-- ==== Sys2Proof/Word.lean ====
section
/-!
DEFINITION. Sys2Proof/Word.lean: the word types. Registers are 64 bits wide (R7); the formats of the spec are
byte strings (R3).
-/
namespace Sys2Proof

/-- A 64-bit register value, handle, key word or hash (scope chapter, *Registers*; R52). -/
abbrev Word := BitVec 64

/-- One byte of a format of the spec. -/
abbrev Byte := BitVec 8

/-- A byte string, lowest offset first. -/
abbrev Bytes := List Byte

/-- An FP32 value as its binary32 encoding (R107). -/
abbrev F32 := BitVec 32

end Sys2Proof
end

