-- ==== Sys2Proof/Types.lean ====
section
/-!
DEFINITION. Sys2Proof/Types.lean: the records and names that commands carry and that the state holds: accessors,
session table entries, tacks, events, fabric frames, lace messages. Times and counts are natural numbers of
nanoseconds or units; values the spec treats as bit patterns are bit vectors.
-/
namespace Sys2Proof

/-- Who makes a register access (R486, R489): the owner port, a host queue pair, or a control core. -/
inductive Port where
  | owner
  | host (qp : Nat)
  | core (n : Nat)
deriving DecidableEq, Repr, Inhabited

/-- The arbiters of R17, by level. A cell arbiter is named by its tile and its number for the block arbiter. -/
inductive Arbiter where
  | cell (tile cell : Nat)
  | block (tile : Nat)
  | region (r : Nat)
  | chip
deriving DecidableEq, Repr, Inhabited

/-- The three ports of a bank cell (R180); `c` names the reading or writing cell that is not the owner. -/
inductive BankPort where
  | a | b
  | c (cell : Nat)
deriving DecidableEq, Repr, Inhabited

/-- One access to a bank word in an arbitration cycle (R181). A write carries a byte-enable mask and 64 bytes. -/
structure BankAccess where
  bank  : Nat
  word  : Nat
  port  : BankPort
  write : Bool := false
  mask  : Nat := 0
  data  : Bytes := []
deriving DecidableEq, Repr, Inhabited

/-- STATE of a session table entry (R55). -/
inductive SesState where
  | free | live | ember | banked | ash | waking | banking | moving | suspect
deriving DecidableEq, Repr, Inhabited

/-- The session table entry of R54, every field. -/
structure Entry where
  state          : SesState := .free
  prior          : SesState := .free
  pinned         : Bool := false
  kindled        : Bool := false
  suppressLate   : Bool := false
  expired        : Bool := false
  moved          : Bool := false
  restored       : Bool := false
  reclaimed      : Bool := false
  ctx            : Nat := 0
  cls            : Nat := 0
  turnCls        : Nat := 0
  place          : Nat := 0
  turnAdmitted   : Bool := false
  handle         : Word := 0
  index          : Nat := 0
  lane           : Nat := 0
  adapterId      : Nat := 0
  adapterVersion : Nat := 0
  tenant         : Nat := 0
  length         : Nat := 0
  retained       : Nat := 0
  budget         : Nat := 0
  ptRoot         : Nat := 0
  stateAddr      : Nat := 0
  deadline       : Nat := 0
  ownerEpoch     : Nat := 0
  mapEpoch       : Nat := 0
  kindleAt       : Nat := 0
  seedKey        : Bytes := []
  turnSeq        : Nat := 0
  lastUse        : Nat := 0
  auditHead      : Bytes := []
  auditCount     : Nat := 0
  forwardNode    : Nat := 0
  created        : Nat := 0
deriving DecidableEq, Repr, Inhabited

/-- A page: one row's slots for one attention ordinal (R138, R141). `addr` is its address in its tier, 0 until it has one; `slot` its place
in the session's T1 space, which is the page itself in T1 and the backing of a copy in T0 (R176); `dirty` the 4 KiB units whose contents
that backing does not hold; `dma` says a transfer to T1 is in flight. -/
structure Page where
  tier  : Nat := 0
  addr  : Nat := 0
  slot  : Option Nat := none
  dirty : List Nat := []
  dma   : Bool := false
deriving DecidableEq, Repr, Inhabited

/-- One retained page row (R138): its index, positions written, score (R150), its pages by ordinal, the first block of its pages on channel
v mod 32 while some lie in T2 (R158), and for each position and attention ordinal the stored K and V bytes (R139). -/
structure Row where
  v       : Nat
  written : Nat := 0
  score   : F32 := 0
  pages   : List Page := []
  block   : Option Nat := none
  kv      : List (List (Bytes × Bytes)) := []
deriving DecidableEq, Repr, Inhabited

/-- A page-table node (R141): its level, the first row it covers, its tier and address, its bytes, and whether T1 holds them too (R176). -/
structure Node where
  level : Nat
  base  : Nat
  tier  : Nat
  addr  : Nat
  dirty : Bool := false
  bytes : Bytes
deriving DecidableEq, Repr, Inhabited

/-- A session's storage: its retained rows, the nodes of its page table or its row list while it is BANKED, and its recurrent state (R121,
R141, R153). `recBacked` says that the recurrent state has tiles in T1, `recDirty` lists the 4 KiB units that those do not hold (R176).
`kept` holds evicted rows that a checkpoint's capture still has to read (R376). -/
structure Store where
  rows      : List Row := []
  kept      : List Row := []
  nodes     : List Node := []
  rowList   : Bytes := []
  recState  : List F32 := []
  recBacked : Bool := false
  recDirty  : List Nat := []
deriving DecidableEq, Repr, Inhabited

/-- A data reference (R251). -/
structure DataRef where
  addr : Nat
  len  : Nat
  rkey : Nat
deriving DecidableEq, Repr, Inhabited

/-- A tack's variable part: inline bytes, or a data reference with FLAGS[0] (R249). -/
inductive Payload where
  | inline (b : Bytes)
  | ref (r : DataRef)
deriving DecidableEq, Repr, Inhabited

/-- The tack header of R249, with the queue pair it arrived on and the DSCP of its packet (R282). `fwd` is the module's
own: the node and job a forwarded tack came from (R354); no tack on the wire carries it. -/
structure TackHdr where
  qp       : Nat
  version  : Nat := 0x48
  flags    : Nat := 0
  length   : Nat := 32
  tag      : Word := 0
  handle   : Word := 0
  mapEpoch : Nat := 0
  dscp     : Nat := 0
  fwd      : Option (Nat × Nat) := none
deriving DecidableEq, Repr, Inhabited

/-- The OPEN body (R254). -/
structure OpenBody where
  ctx       : Nat
  cls       : Nat
  flags     : Nat
  budget    : Nat
  adapterId : Nat
  seedKey   : Bytes
deriving DecidableEq, Repr, Inhabited

/-- The sampling parameters of R124, as sent. -/
structure Sampling where
  invTemp : F32 := 0
  topP    : F32 := 0
  topK    : Nat := 0
deriving DecidableEq, Repr, Inhabited

/-- The TURN body (R255). -/
structure TurnBody where
  cls        : Nat
  stopCount  : Nat
  maxTokens  : Nat
  inputCount : Nat
  deadline   : Nat
  samp       : Sampling
  stops      : List Nat
  input      : Payload
deriving DecidableEq, Repr, Inhabited

/-- The CKP_REPLAY body (R389). -/
structure ReplayBody where
  cls            : Nat
  flags          : Nat
  adapterVersion : Nat
  expectLength   : Nat
  count          : Nat
  firstSample    : Nat
  expectLast     : Nat
  samp           : Sampling
  expectTurnSeq  : Nat
  input          : Payload
deriving DecidableEq, Repr, Inhabited

/-- The VEC_INSERT body (R257): vector and sketch bytes follow the fixed part. -/
structure VecInsertBody where
  indexId : Nat
  cls     : Nat
  id      : Word
  attr    : Word
  data    : Bytes
deriving DecidableEq, Repr, Inhabited

/-- The fields of RING_SETUP (R260) and AUDIT_RING_SETUP (R415); KIND 2 stands for the audit ring. -/
structure RingBody where
  kind         : Nat
  log2Slots    : Nat
  rkey         : Nat
  addr         : Nat
  consumerAddr : Nat
  producerAddr : Nat := 0
deriving DecidableEq, Repr, Inhabited

/-- A tack's opcode and body (R252). -/
inductive TackBody where
  | openSes (b : OpenBody)
  | turn (b : TurnBody)
  | park (tier : Nat)
  | wake
  | kindle (etaUs : Nat)
  | pin
  | unpin
  | move (dest : Nat)
  | close
  | confirm (node : Nat)
  | resolve (node : Nat)
  | stageBegin
  | stageData (off : Nat) (p : Payload)
  | stageEnd (len : Nat)
  | adapterLoad (r : DataRef)
  | adapterDrop (ctx id : Nat)
  | weightsStage (ctx : Nat) (r : DataRef)
  | vecCreate (p : Payload)
  | vecDrop (id : Nat)
  | vecInsert (b : VecInsertBody)
  | vecDelete (id cls slot gen : Nat)
  | vecQuery (r : DataRef) (q : Bytes)
  | regRead (off : Nat)
  | regWrite (off : Nat) (val : Word)
  | ringSetup (b : RingBody)
  | nop
  | ckpStore (job kind flags node : Nat) (r : DataRef)
  | ckpBegin (job members pool flags step base : Nat)
  | ckpCommit (job step : Nat) (sig : Bytes)
  | ckpAbort (job step : Nat)
  | ckpRestore (job which flags slotLo slotHi : Nat) (r : DataRef)
  | ckpReplay (b : ReplayBody)
  | ckpCollect (job : Nat)
  | quote (nonce : Bytes) (r : DataRef)
  | auditRingSetup (b : RingBody)
  | auditRootRead (seq : Nat) (r : DataRef)
  | identityRead (r : DataRef)
deriving DecidableEq, Repr, Inhabited

/-- An event record (R10) before it is laid out in bytes. `unit` is the UNIT word of R430. -/
structure EventRec where
  time     : Nat
  freeRun  : Bool
  severity : Nat
  level    : Nat
  unit     : Nat
  code     : Nat
  detail   : Nat
  hasDetail : Bool := true
deriving DecidableEq, Repr, Inhabited

/-- A result record (R262) before LOST and PHASE are set. -/
structure ResultRec where
  kind   : Nat
  status : Nat
  opcode : Nat
  flags  : Nat := 0
  tag    : Word := 0
  handle : Word := 0
  wordA  : Nat := 0
  wordB  : Nat := 0
  wordC  : Nat := 0
  time   : Nat := 0
deriving DecidableEq, Repr, Inhabited

/-- An audit record (R412). -/
structure AuditRec where
  flags     : Nat
  endStatus : Nat
  node      : Nat
  topK      : Nat
  handle    : Word
  index     : Nat
  stepSeq   : Nat
  turnSeq   : Nat
  epoch     : Nat
  time      : Nat
  posFirst  : Nat
  posCount  : Nat
  token     : Nat
  adapterVersion : Nat
  invTemp   : F32
  topP      : F32
  inputDigest : Bytes
  numericTag  : Bytes
  adapterTag  : Bytes
deriving DecidableEq, Repr, Inhabited

/-- The areas of T1 that R437 tells apart. -/
inductive T1Area where
  | mirrored
  | session (idx : Nat)
  | weightSource (ctx : Nat)
  | adapter (ctx id ver : Nat)
  | once (node stream : Nat)
  | pool (idx : Nat)
  | auditLog (tenant : Nat)
  | vecTable (index : Nat)
  | unused
deriving DecidableEq, Repr, Inhabited

/-- The answer of a member to a claim query (R66). -/
structure ClaimAns where
  node      : Nat
  state     : SesState
  epoch     : Nat
  count     : Nat
  head      : Bytes
  inPlace   : Bool
  moved     : Bool := false
  forward   : Nat := 0
deriving DecidableEq, Repr, Inhabited

/-- The frame header of R310 without KIND and LENGTH, which follow from the body. -/
structure FrameHdr where
  cls   : Nat := 0
  dest  : Nat := 0
  src   : Nat := 0
  job   : Nat := 0
  hops  : Nat := 0
  route : Nat := 0
  path  : Nat := 0
deriving DecidableEq, Repr, Inhabited

/-- The TRAIN fields of R307. -/
structure TrainMsg where
  versions    : List Nat := [0x48]
  laneMask    : Nat := 15
  node        : Nat := 0
  coords      : List Nat := [0, 0, 0, 0]
  link        : Nat := 0
  direction   : Nat := 0
  flags       : Nat := 0
  kind        : Nat := 0
  seedCheck   : Nat := 0
  dims        : List Nat := [1, 1, 1, 1]
  incarnation : Nat := 0
deriving DecidableEq, Repr, Inhabited

/-- The KEY fields of R408. -/
structure KeyMsg where
  step   : Nat := 1
  keySeq : Nat := 1
  nonce  : Bytes := []
  tag    : Bytes := []
deriving DecidableEq, Repr, Inhabited

/-- A fabric request: frame header and request header of R320, with its body. -/
structure Request where
  hdr         : FrameHdr := {}
  op          : Nat := 1
  stream      : Nat := 0
  tag         : Nat := 0
  seq         : Nat := 0
  addr        : Nat := 0
  ackThrough  : Nat := 0
  incarnation : Nat := 0
  msgKind     : Nat := 0
  mask        : Nat := 0
  data        : Bytes := []
  a           : Word := 0
  b           : Word := 0
deriving DecidableEq, Repr, Inhabited

/-- A fabric response: frame header and response header of R320, with its body. -/
structure Response where
  hdr     : FrameHdr := {}
  op      : Nat := 1
  stream  : Nat := 0
  tag     : Nat := 0
  seq     : Nat := 0
  status  : Nat := 0
  nextSeq : Nat := 0
  data    : Bytes := []
deriving DecidableEq, Repr, Inhabited

/-- A Welt frame (R310). -/
inductive Frame where
  | req (r : Request)
  | rsp (r : Response)
  | train (h : FrameHdr) (t : TrainMsg)
  | key (h : FrameHdr) (k : KeyMsg)
  | nodeState (h : FrameHdr) (node seq : Nat)
deriving DecidableEq, Repr, Inhabited

/-- The lace header of R346; LTYPE follows from the message. -/
structure LaceHdr where
  job    : Nat := 0
  term   : Nat := 0
  epoch  : Nat := 0
  sender : Nat := 0
  part   : Nat := 0
  parts  : Nat := 1
  mapId  : Bytes := []
deriving DecidableEq, Repr, Inhabited

/-- A location record (R353). -/
structure LocRec where
  handle : Word
  owner  : Nat
  epoch  : Nat
deriving DecidableEq, Repr, Inhabited

/-- Messages between session units (MSG_KIND 1). The spec gives their contents, not a byte layout. -/
inductive SesMsg where
  | offer (e : Entry)
  | storage (h : Word)
  | ack (h : Word) (epoch : Nat)
  | release (h : Word)
  | query (h : Word)
  | queryAnswer (h : Word) (committed : Bool)
  | cancel (h : Word)
  | suspectReport (h : Word)
  | claimQuery (h : Word)
  | claimAnswer (h : Word) (a : ClaimAns)
  | settle (h : Word) (winner epoch : Nat)
  | confirm (h : Word) (node : Nat) (override : Bool)
  | tack (h : TackHdr) (b : TackBody)
  | record (qp : Nat) (r : ResultRec)
deriving DecidableEq, Repr, Inhabited

/-- What the block puts on its ports, in order: frames on the host wire, in-band interrupts and read data on the
owner port, messages handed to the fabric, bank read data. -/
inductive Out where
  | rdmaWrite (qp rkey addr : Nat) (b : Bytes)
  | rdmaRead (qp rkey addr len : Nat)
  | cm (qp : Nat) (msg : Bytes) (kind : Nat) (reason : Nat := 0)
  | ack (qp credits : Nat)
  | nak (qp kind : Nat)
  | rnr (qp timer : Nat)
  | cnp (qp : Nat)
  | ptpDelayReq (seq time dom transport : Nat)
  | ibi (b : Nat)
  | i3c (b : Bytes)
  | flit (link : Nat) (b : Bytes)
  | session (dest job : Nat) (m : SesMsg)
  | lace (dest ltype : Nat) (h : LaceHdr) (payload : Bytes)
  | bankRead (bank word : Nat) (b : Bytes)
  | bankError (bank cell : Nat)
deriving DecidableEq, Repr, Inhabited

/-- The packets of a SEND: the DSCP of each, in order (R282), and whether it comes in IP fragments (R243). -/
structure Packets where
  dscps : List Nat := []
  frag  : Bool := false
deriving DecidableEq, Repr, Inhabited

/-- What the IP header of a connection request gives its queue pair: traffic class and flow label (R244, R246). -/
structure IpFlow where
  cls  : Nat := 0
  flow : Nat := 0
deriving DecidableEq, Repr, Inhabited

/-- A PTP message's sequence, its domain, and the transport that it came over, as PTP_TRANSPORT numbers it (R266, R271). -/
structure PtpHdr where
  sq  : Nat := 0
  dom : Nat := 0
  tr  : Nat := 0
deriving DecidableEq, Repr, Inhabited

/-- An announced master: its port identity and its priority (R266). -/
structure PtpMaster where
  src  : Nat
  prio : Nat
deriving DecidableEq, Repr, Inhabited

/-- The loss of an UP link: of its own lane lock, or by the peer's notice (R308). -/
structure LinkLoss where
  link : Nat
  peer : Bool := false
deriving DecidableEq, Repr, Inhabited

end Sys2Proof
end

