-- ==== Sys2Proof/Syntax.lean ====
section
/-!
DEFINITION. Sys2Proof/Syntax.lean: the commands of the block, one constructor for each row of the opcode table,
in the table's order, with the row's operands.
-/
namespace Sys2Proof

/-- The commands. Each constructor's docstring gives its row's mnemonic and rule. A row that stands for the expiry
of a time is the fact that the time has come. -/
inductive Instr where
  /-- REGISTER_WRITE (R7). -/
  | registerWrite (acc : Port) (off : Nat) (val : Word)
  /-- EVENT_RING_DRAIN (R12). -/
  | eventRingDrain (tenant : Nat) (consumed : Nat)
  /-- ARBITER_GRANT (R17). -/
  | arbiterGrant (arb : Arbiter) (reqs : List Nat) (accs : List BankAccess)
  /-- OWNER_STAGE_BEGIN (R51). -/
  | ownerStageBegin
  /-- OWNER_STAGE_END (R51). -/
  | ownerStageEnd (len : Nat)
  /-- SEC_IMG_STAGE_DATA (R51). -/
  | secImgStageData (val : Word)
  /-- STAGE_LOCK_TIMEOUT (R40). -/
  | stageLockTimeout
  /-- ACTIVATE (R40). -/
  | activate (sealToo : Bool) (persist : Bool) (auto : Bool) (drainMs : Nat)
  /-- SEAL (R45). -/
  | sealImage
  /-- ABORT_STAGE (R40). -/
  | abortStage
  /-- IMAGE_CHECK_DONE (R41). -/
  | imageCheckDone
  /-- DRAIN_TIMEOUT (R43). -/
  | drainTimeout
  /-- IMAGE_PERSIST_COMPLETE (R44). -/
  | imagePersistComplete (ok : Bool)
  /-- OPEN (R57). -/
  | openTack (h : TackHdr) (b : OpenBody)
  /-- TURN (R80). -/
  | turn (h : TackHdr) (b : TurnBody)
  /-- PARK (R57). -/
  | park (h : TackHdr) (tier : Nat)
  /-- WAKE (R57). -/
  | wake (h : TackHdr)
  /-- KINDLE (R61). -/
  | kindle (h : TackHdr) (etaUs : Nat)
  /-- PIN (R63). -/
  | pin (h : TackHdr)
  /-- UNPIN (R63). -/
  | unpin (h : TackHdr)
  /-- MOVE (R64). -/
  | moveTack (h : TackHdr) (dest : Nat)
  /-- CLOSE (R57). -/
  | closeTack (h : TackHdr)
  /-- CONFIRM (R68). -/
  | confirm (h : TackHdr) (node : Nat)
  /-- RESOLVE (R68). -/
  | resolve (h : TackHdr) (node : Nat)
  /-- BANKING_COMPLETE (R57). -/
  | bankingComplete (idx : Nat)
  /-- BANKING_WRITE_FAIL (R57). -/
  | bankingWriteFail (idx : Nat)
  /-- WAKE_START (R62). -/
  | wakeStart
  /-- WAKE_COMPLETE (R57). -/
  | wakeComplete (idx : Nat)
  /-- WAKE_FAILED (R57). -/
  | wakeFailed (idx : Nat)
  /-- COPY_TO_T0_COMPLETE (R57). -/
  | copyToT0Complete (idx : Nat)
  /-- KINDLE_AT_REACHED (R61). -/
  | kindleAtReached (idx : Nat)
  /-- KINDLE_HOLD_EXPIRED (R61). -/
  | kindleHoldExpired (idx : Nat)
  /-- PRESSURE_RULE (R60). -/
  | pressureRule
  /-- MOVE_OFFER (R57). -/
  | moveOffer (src : Nat) (job : Nat) (e : Entry)
  /-- MOVE_STORAGE_RECEIVED (R64). -/
  | moveStorageReceived (handle : Word) (st : Store)
  /-- MOVE_ACK (R64). -/
  | moveAck (handle : Word) (epoch : Nat)
  /-- MOVE_RELEASE (R64). -/
  | moveRelease (handle : Word)
  /-- MOVE_TIMEOUT (R65). -/
  | moveTimeout (handle : Word)
  /-- MOVE_QUERY (R65). -/
  | moveQuery (src : Nat) (job : Nat) (handle : Word)
  /-- MOVE_QUERY_ANSWER (R65). -/
  | moveQueryAnswer (handle : Word) (committed : Bool)
  /-- MOVE_QUERY_TIMEOUT (R65). -/
  | moveQueryTimeout (handle : Word)
  /-- MOVE_CANCEL (R65). -/
  | moveCancel (handle : Word)
  /-- MOVE_RELEASE_TIMEOUT (R65). -/
  | moveReleaseTimeout (handle : Word)
  /-- SUSPECT_REPORT (R66). -/
  | suspectReport (src : Nat) (job : Nat) (handle : Word)
  /-- CLAIM_QUERY (R66). -/
  | claimQuery (home : Nat) (job : Nat) (handle : Word)
  /-- CLAIM_ANSWER (R66). -/
  | claimAnswer (handle : Word) (ans : ClaimAns)
  /-- CLAIM_COLLECTION_END (R67). -/
  | claimCollectionEnd (handle : Word)
  /-- DISPUTE_SETTLE (R68). -/
  | disputeSettle (handle : Word) (winner : Nat) (epoch : Nat)
  /-- STORAGE_RECLAIMED (R56). -/
  | storageReclaimed (idx : Nat)
  /-- MOVE_KEEP_EXPIRED (R56). -/
  | moveKeepExpired (idx : Nat)
  /-- SES_INSPECT_INDEX (R75). -/
  | sesInspectIndex (acc : Port) (val : Word)
  /-- STEP_BOUNDARY (R82). -/
  | stepBoundary
  /-- EMPTY_BOUNDARY (R83). -/
  | emptyBoundary
  /-- ADAPTER_LOAD (R94). -/
  | adapterLoad (h : TackHdr) (r : DataRef)
  /-- ADAPTER_LOAD_COMPLETE (R92). -/
  | adapterLoadComplete (ctx : Nat) (id : Nat)
  /-- ADAPTER_DROP (R92). -/
  | adapterDrop (h : TackHdr) (ctx : Nat) (id : Nat)
  /-- CONTEXT_LOAD (R96). -/
  | contextLoad (acc : Port) (ctx : Nat)
  /-- CONTEXT_UNLOAD (R96). -/
  | contextUnload (acc : Port) (ctx : Nat)
  /-- CONTEXT_LOAD_COMPLETE (R96). -/
  | contextLoadComplete (ctx : Nat)
  /-- WEIGHTS_IN_PLACE (R96). -/
  | weightsInPlace (ctx : Nat)
  /-- CONTEXT_TEARDOWN_COMPLETE (R96). -/
  | contextTeardownComplete (ctx : Nat)
  /-- STP_CLEAR_MAX (R99). -/
  | stpClearMax
  /-- ARI_CLEAR_COUNTS (R136). -/
  | ariClearCounts (acc : Port)
  /-- RUN_KAT (R132). -/
  | runKat (acc : Port)
  /-- KAT_COMPLETE (R132). -/
  | katComplete (fails : List (Nat × Nat × Nat))
  /-- KV_SPILL (R156). -/
  | kvSpill (tile : Nat)
  /-- PAGE_SPILL_COMPLETE (R156). -/
  | pageSpillComplete (idx : Nat) (v : Nat) (tile : Nat)
  /-- PAGE_BRING_BACK (R157). -/
  | pageBringBack (tile : Nat)
  /-- LONG_ROW_SPILL (R158). -/
  | longRowSpill (idx : Nat)
  /-- ATN_CLEAR_COUNTS (R167). -/
  | atnClearCounts (acc : Port)
  /-- LAB_FLUSH (R167). -/
  | labFlush (acc : Port)
  /-- T1_ALLOC_GRANT (R173). -/
  | t1AllocGrant
  /-- ALLOC_WAIT (R173). -/
  | allocWait
  /-- SESSION_SPILL_T1 (R177). -/
  | sessionSpillT1 (tile : Nat)
  /-- SESSION_SPILL_T1_COMPLETE (R177). -/
  | sessionSpillT1Complete (idx : Nat)
  /-- OBJ_CREATE (R179). -/
  | objCreate (acc : Port) (kind : Nat) (tier : Nat) (region : Nat) (size : Nat)
  /-- OBJ_MOVE (R179). -/
  | objMove (acc : Port) (obj : Nat) (tier : Nat)
  /-- OBJ_PIN (R179). -/
  | objPin (acc : Port) (obj : Nat)
  /-- OBJ_UNPIN (R179). -/
  | objUnpin (acc : Port) (obj : Nat)
  /-- OBJ_FREE (R179). -/
  | objFree (acc : Port) (obj : Nat)
  /-- OBJ_TRANSFER_DONE (R208). -/
  | objTransferDone (obj : Nat)
  /-- BANK_HANDOVER (R182). -/
  | bankHandover (acc : Port) (val : Word)
  /-- BANK_HANDOVER_DONE (R182). -/
  | bankHandoverDone (bank : Nat)
  /-- SCRUB_PERIOD_END (R185). -/
  | scrubPeriodEnd
  /-- SCRUB_NOW (R209). -/
  | scrubNow (acc : Port)
  /-- MEM_CLEAR_COUNTS (R209). -/
  | memClearCounts (acc : Port)
  /-- UE_T1 (R437). -/
  | ueT1 (addr : Nat) (area : T1Area)
  /-- UE_T2 (R191). -/
  | ueT2 (ch : Nat) (block : Nat)
  /-- BLOCK_RETIRE (R191). -/
  | blockRetire (ch : Nat) (block : Nat)
  /-- VEC_CREATE (R212). -/
  | vecCreate (h : TackHdr) (p : Payload)
  /-- VEC_DROP (R212). -/
  | vecDrop (h : TackHdr) (id : Nat)
  /-- VEC_INSERT (R224). -/
  | vecInsert (h : TackHdr) (b : VecInsertBody)
  /-- VEC_DELETE (R225). -/
  | vecDelete (h : TackHdr) (id : Nat) (cls : Nat) (slot : Nat) (gen : Nat)
  /-- VEC_QUERY (R221). -/
  | vecQuery (h : TackHdr) (r : DataRef) (q : Bytes)
  /-- COORDINATOR_ADMIT (R228). -/
  | coordinatorAdmit (ch : Nat)
  /-- FORWARDED_WORK (R228). -/
  | forwardedWork (ch : Nat)
  /-- VEC_QUERY_COMPLETE (R232). -/
  | vecQueryComplete (idx : Nat) (qseq : Nat)
  /-- BATCH_CLOSE (R229). -/
  | batchClose (ch : Nat) (idx : Nat) (list : Nat)
  /-- TAIL_FLUSH (R224). -/
  | tailFlush (idx : Nat) (list : Nat)
  /-- UPDATE_DURABLE (R218). -/
  | updateDurable (idx : Nat) (useq : Nat)
  /-- HORIZON_ADVANCE (R218). -/
  | horizonAdvance
  /-- REPAIR_START (R226). -/
  | repairStart
  /-- VECTOR_PASS (R226). -/
  | vectorPass (idx : Nat)
  /-- VEC_REPAIR_NOW (R242). -/
  | vecRepairNow (acc : Port)
  /-- VEC_CLEAR_COUNTS (R242). -/
  | vecClearCounts (acc : Port)
  /-- HOST_LINK_UP (R274). -/
  | hostLinkUp
  /-- HOST_LINK_DOWN (R248). -/
  | hostLinkDown
  /-- SEND_MESSAGE (R250). -/
  | sendMessage (qp : Nat) (msg : Bytes) (pkts : Packets) (ce : Bool)
  /-- PEER_RDMA_REQUEST (R243). -/
  | peerRdmaRequest (qp : Nat) (kind : Nat)
  /-- PFC_FRAME (R243). -/
  | pfcFrame (prios : Nat) (quanta : Nat)
  /-- CNP (R244). -/
  | cnp (qp : Nat)
  /-- RATE_RECOVERY (R244). -/
  | rateRecovery (qp : Nat)
  /-- ACK_TIMEOUT (R244). -/
  | ackTimeout (qp : Nat)
  /-- RDMA_NAK (R244). -/
  | rdmaNak (qp : Nat)
  /-- FETCH_COMPLETE (R251). -/
  | fetchComplete (qp : Nat) (tag : Word) (data : Bytes)
  /-- CM_REQ (R246). -/
  | cmReq (priv : Bytes) (remote : Nat) (ip : IpFlow)
  /-- CM_RTU (R248). -/
  | cmRtu (qp : Nat)
  /-- CM_DREQ (R248). -/
  | cmDreq (qp : Nat)
  /-- CM_DREP (R248). -/
  | cmDrep (qp : Nat)
  /-- CONNECT_TIMEOUT (R248). -/
  | connectTimeout (qp : Nat)
  /-- QP_ERROR_TIMEOUT (R248). -/
  | qpErrorTimeout (qp : Nat)
  /-- STAGE_BEGIN (R256). -/
  | stageBegin (h : TackHdr)
  /-- STAGE_DATA (R256). -/
  | stageData (h : TackHdr) (off : Nat) (p : Payload)
  /-- STAGE_END (R256). -/
  | stageEnd (h : TackHdr) (len : Nat)
  /-- WEIGHTS_STAGE (R256). -/
  | weightsStage (h : TackHdr) (ctx : Nat) (r : DataRef)
  /-- REG_READ (R258). -/
  | regRead (h : TackHdr) (off : Nat)
  /-- REG_WRITE (R258). -/
  | regWrite (h : TackHdr) (off : Nat) (val : Word)
  /-- RING_SETUP (R260). -/
  | ringSetup (h : TackHdr) (b : RingBody)
  /-- NOP (R252). -/
  | nop (h : TackHdr)
  /-- RING_CONSUMER_READ (R261). -/
  | ringConsumerRead (qp : Nat) (kind : Nat) (count : Nat)
  /-- EGRESS_FRAME (R286). -/
  | egressFrame (port : Nat)
  /-- GATE_ENTRY (R289). -/
  | gateEntry (port : Nat)
  /-- PTP_SYNC (R266). -/
  | ptpSync (hdr : PtpHdr) (twoStep : Bool) (rx : Nat) (src : Nat)
  /-- PTP_FOLLOW_UP (R267). -/
  | ptpFollowUp (hdr : PtpHdr) (origin : Nat)
  /-- PTP_DELAY_RESP (R266). -/
  | ptpDelayResp (hdr : PtpHdr) (rx : Nat)
  /-- PTP_ANNOUNCE (R266). -/
  | ptpAnnounce (hdr : PtpHdr) (master : PtpMaster)
  /-- PTP_DELAY_REQ (R266). -/
  | ptpDelayReq
  /-- PTP_HOLDOVER (R267). -/
  | ptpHoldover
  /-- HOST_TX_ENABLE (R270). -/
  | hostTxEnable (on : Bool)
  /-- HST_CLEAR_COUNTS (R270). -/
  | hstClearCounts
  /-- HIST_SAMPLE (R292). -/
  | histSample
  /-- SHP_CLEAR_COUNTS (R294). -/
  | shpClearCounts (acc : Port)
  /-- CLEAR_HIST (R294). -/
  | clearHist (acc : Port)
  /-- SHP_HIST_SEL (R301). -/
  | shpHistSel (acc : Port) (val : Word)
  /-- WLT_ENABLE (R329). -/
  | wltEnable (val : Word)
  /-- LANE_LOCK (R308). -/
  | laneLock (link : Nat) (mask : Nat)
  /-- SIGNAL_TIMEOUT (R308). -/
  | signalTimeout (link : Nat)
  /-- ALIGN_DONE (R308). -/
  | alignDone (link : Nat)
  /-- ALIGN_TIMEOUT (R308). -/
  | alignTimeout (link : Nat)
  /-- TRAIN_SEND (R308). -/
  | trainSend (link : Nat)
  /-- TRAIN (R309). -/
  | train (link : Nat) (t : TrainMsg)
  /-- PARAM_TIMEOUT (R308). -/
  | paramTimeout (link : Nat)
  /-- KEY (R408). -/
  | key (link : Nat) (k : KeyMsg)
  /-- KEY_CONFIRM_TIMEOUT (R408). -/
  | keyConfirmTimeout (link : Nat)
  /-- REKEY_START (R408). -/
  | rekeyStart (link : Nat)
  /-- REKEY_DEADLINE (R408). -/
  | rekeyDeadline (link : Nat)
  /-- LANE_LOCK_LOSS (R308). -/
  | laneLockLoss (loss : LinkLoss)
  /-- FEC_SECOND (R308). -/
  | fecSecond (link : Nat) (corrected : Nat) (uncorrected : Nat)
  /-- RETRAIN_TIMER (R308). -/
  | retrainTimer (link : Nat)
  /-- FLIT (R305). -/
  | flit (link : Nat) (raw : Bytes)
  /-- FLIT_ACK_TIMEOUT (R305). -/
  | flitAckTimeout (link : Nat)
  /-- FORWARD_FRAME (R315). -/
  | forwardFrame (link : Nat) (f : Frame)
  /-- LOAD (R321). -/
  | load (link : Nat) (r : Request)
  /-- STORE (R325). -/
  | store (link : Nat) (r : Request)
  /-- FADD (R320). -/
  | fadd (link : Nat) (r : Request)
  /-- SWAP (R320). -/
  | swap (link : Nat) (r : Request)
  /-- CAS (R320). -/
  | cas (link : Nat) (r : Request)
  /-- FAND (R320). -/
  | fand (link : Nat) (r : Request)
  /-- FOR (R320). -/
  | forOp (link : Nat) (r : Request)
  /-- FXOR (R320). -/
  | fxor (link : Nat) (r : Request)
  /-- LINE_UNIT_ACCEPT (R325). -/
  | lineUnitAccept (region : Nat)
  /-- FABRIC_RESPONSE (R322). -/
  | fabricResponse (r : Response)
  /-- RESP_TIMEOUT (R323). -/
  | respTimeout (tag : Nat)
  /-- TARGET_DEAD (R327). -/
  | targetDead (tag : Nat)
  /-- ONCE_RESULT_EXPIRE (R321). -/
  | onceResultExpire (node : Nat) (stream : Nat) (sq : Nat)
  /-- NODE_STATE (R328). -/
  | nodeState (link : Nat) (node : Nat) (sq : Nat)
  /-- WLT_CLEAR_COUNTS (R339). -/
  | wltClearCounts (acc : Port)
  /-- WLT_RETRAIN (R339). -/
  | wltRetrain (acc : Port)
  /-- PROPOSE (R349). -/
  | propose (l : LaceHdr) (part : Bytes)
  /-- ACCEPT (R349). -/
  | accept (l : LaceHdr)
  /-- REFUSE (R349). -/
  | refuse (l : LaceHdr) (reason : Nat)
  /-- COMMIT (R351). -/
  | commit (l : LaceHdr)
  /-- HEARTBEAT_TIMER (R347). -/
  | heartbeatTimer (job : Nat)
  /-- HEARTBEAT (R347). -/
  | heartbeat (l : LaceHdr)
  /-- HEARTBEAT_ACK (R347). -/
  | heartbeatAck (l : LaceHdr)
  /-- ELECTION_TIMEOUT (R348). -/
  | electionTimeout (job : Nat)
  /-- VOTE_REQUEST (R348). -/
  | voteRequest (l : LaceHdr)
  /-- VOTE (R348). -/
  | vote (l : LaceHdr) (granted : Bool)
  /-- CANDIDATE_TIMEOUT (R348). -/
  | candidateTimeout (job : Nat)
  /-- SYNC_REQUEST (R347). -/
  | syncRequest (l : LaceHdr)
  /-- SYNC (R347). -/
  | sync (l : LaceHdr) (part : Bytes)
  /-- REPORT (R346). -/
  | report (l : LaceHdr) (kind : Nat) (node : Nat) (count : Nat)
  /-- TEARDOWN (R361). -/
  | teardown (l : LaceHdr) (hdr : Bytes)
  /-- LOCATION (R353). -/
  | location (l : LaceHdr) (recs : List LocRec)
  /-- COMPOSE (R365). -/
  | compose (l : LaceHdr) (req : Bytes)
  /-- MEMBER_SILENT (R360). -/
  | memberSilent (job : Nat) (node : Nat)
  /-- RECOMPOSE_PROPOSE (R362). -/
  | recomposePropose (job : Nat)
  /-- FORM_TIMEOUT (R341). -/
  | formTimeout (job : Nat)
  /-- PROPOSAL_TIMEOUT (R349). -/
  | proposalTimeout (job : Nat)
  /-- DRAIN_WINDOW_END (R351). -/
  | drainWindowEnd (job : Nat)
  /-- FORWARDED_TACK (R354). -/
  | forwardedTack (src : Nat) (job : Nat) (h : TackHdr) (b : TackBody)
  /-- FORWARDED_RECORD (R354). -/
  | forwardedRecord (src : Nat) (qp : Nat) (r : ResultRec)
  /-- CATCH_UP_TIMEOUT (R356). -/
  | catchUpTimeout (qp : Nat) (tag : Word)
  /-- MAP_REQ_DATA (R369). -/
  | mapReqData (acc : Port) (val : Word)
  /-- MAP_REQ_SUBMIT (R365). -/
  | mapReqSubmit (acc : Port) (val : Word)
  /-- MAP_CLEAR_COUNTS (R372). -/
  | mapClearCounts
  /-- SYNC_NOW (R372). -/
  | syncNow
  /-- CKP_STORE (R373). -/
  | ckpStore (h : TackHdr) (job : Nat) (kind : Nat) (flags : Nat) (node : Nat) (r : DataRef)
  /-- CKP_BEGIN (R382). -/
  | ckpBegin (h : TackHdr) (job : Nat) (members : Nat) (pool : Nat) (flags : Nat) (step : Nat) (base : Nat)
  /-- CLAIM_POLL (R378). -/
  | claimPoll
  /-- CHECKPOINT_WRITE_DONE (R382). -/
  | checkpointWriteDone (ok : Bool)
  /-- CHECKPOINT_ALL_DONE (R382). -/
  | checkpointAllDone
  /-- CKP_COMMIT (R382). -/
  | ckpCommit (h : TackHdr) (job : Nat) (step : Nat) (sig : Bytes)
  /-- CKP_ABORT (R382). -/
  | ckpAbort (h : TackHdr) (job : Nat) (step : Nat)
  /-- SIGN_WAIT_TIMEOUT (R382). -/
  | signWaitTimeout
  /-- CKP_RESTORE (R385). -/
  | ckpRestore (h : TackHdr) (job : Nat) (which : Nat) (flags : Nat) (slotLo : Nat) (slotHi : Nat) (r : DataRef)
  /-- RESTORE_COMPLETE (R387). -/
  | restoreComplete
  /-- CKP_REPLAY (R389). -/
  | ckpReplay (h : TackHdr) (b : ReplayBody)
  /-- CKP_COLLECT (R384). -/
  | ckpCollect (h : TackHdr) (job : Nat)
  /-- COLLECT_COMPLETE (R384). -/
  | collectComplete
  /-- REPLAY_HOLD_EXPIRED (R388). -/
  | replayHoldExpired
  /-- CKP_CLEAR_COUNTS (R398). -/
  | ckpClearCounts (acc : Port)
  /-- CKP_CTRL_ABORT (R398). -/
  | ckpCtrlAbort (acc : Port)
  /-- RELEASE_REPLAY (R398). -/
  | releaseReplay (acc : Port)
  /-- OWNER_SELECT (R400). -/
  | ownerSelect (off : Nat)
  /-- OWNER_WRITE (R400). -/
  | ownerWrite (off : Nat) (val : Word)
  /-- OWNER_WRITE_BURST (R400). -/
  | ownerWriteBurst (off : Nat) (vals : List Word)
  /-- OWNER_READ (R400). -/
  | ownerRead (groups : Nat)
  /-- ENTDAA (R400). -/
  | entdaa (addr : Nat)
  /-- RSTDAA (R400). -/
  | rstdaa
  /-- ENEC (R400). -/
  | enec
  /-- DISEC (R400). -/
  | disec
  /-- GETPID (R400). -/
  | getpid
  /-- GETBCR (R400). -/
  | getbcr
  /-- GETDCR (R400). -/
  | getdcr
  /-- GETSTATUS (R400). -/
  | getstatus
  /-- GETMWL (R400). -/
  | getmwl
  /-- GETMRL (R400). -/
  | getmrl
  /-- SEC_KEY_DATA (R425). -/
  | secKeyData (val : Word)
  /-- ENROL (R405). -/
  | enrol (slot : Nat)
  /-- REMOVE (R405). -/
  | remove (slot : Nat)
  /-- SET_SECRET (R405). -/
  | setSecret (slot : Nat)
  /-- CLEAR_ALL (R405). -/
  | clearAll (slot : Nat)
  /-- KEY_CMD_COMPLETE (R405). -/
  | keyCmdComplete (ok : Bool)
  /-- QUOTE (R410). -/
  | quote (h : TackHdr) (nonce : Bytes) (r : DataRef)
  /-- QUOTE_GO (R426). -/
  | quoteGo
  /-- QUOTE_READY (R410). -/
  | quoteReady
  /-- SEC_QUOTE_DATA (R426). -/
  | secQuoteData
  /-- IDENTITY_READ (R404). -/
  | identityRead (h : TackHdr) (r : DataRef)
  /-- AUDIT_RING_SETUP (R415). -/
  | auditRingSetup (h : TackHdr) (b : RingBody)
  /-- AUDIT_RING_POLL (R416). -/
  | auditRingPoll (tenant : Nat) (consumed : Nat)
  /-- AUDIT_INTERVAL_END (R418). -/
  | auditIntervalEnd
  /-- AUDIT_ROOT_SIGNED (R419). -/
  | auditRootSigned
  /-- AUDIT_ROOT_READ (R420). -/
  | auditRootRead (h : TackHdr) (sq : Nat) (r : DataRef)
  /-- SEC_AUD_CLEAR_COUNTS (R429). -/
  | secAudClearCounts
  /-- CELL_FENCE (R433). -/
  | cellFence (tile : Nat) (cell : Nat) (cause : Nat)
  /-- STEP_WATCHDOG (R431). -/
  | stepWatchdog (tile : Nat) (cell : Nat)
  /-- TILE_FENCE (R435). -/
  | tileFence (tile : Nat) (cause : Nat)
  /-- SALVAGE_COMPLETE (R435). -/
  | salvageComplete (tile : Nat)
  /-- SALVAGE_TIMEOUT (R435). -/
  | salvageTimeout (tile : Nat)
  /-- CORE_WATCHDOG (R431). -/
  | coreWatchdog (n : Nat)
  /-- REGION_FENCE (R436). -/
  | regionFence (r : Nat) (cause : Nat)
  /-- LEAVE_SERVICE (R438). -/
  | leaveService (cause : Nat) (sound : Bool)
  /-- ERR_ARM (R441). -/
  | errArm
  /-- ARM_EXPIRED (R441). -/
  | armExpired
  /-- ERR_CLEAR_COUNTS (R449). -/
  | errClearCounts (acc : Port)
  /-- INJECT_CORRECTABLE (R441). -/
  | injectCorrectable (ueUnit : Nat)
  /-- INJECT_UNCORRECTABLE (R441). -/
  | injectUncorrectable (ueUnit : Nat)
  /-- INJECT_CELL_FAULT (R441). -/
  | injectCellFault (ueUnit : Nat)
  /-- INJECT_TILE_FAULT (R441). -/
  | injectTileFault (ueUnit : Nat)
  /-- INJECT_T1_READ (R441). -/
  | injectT1Read (ueUnit : Nat) (area : T1Area)
  /-- INJECT_T2_READ (R441). -/
  | injectT2Read (ueUnit : Nat)
  /-- INJECT_FLIT_CRC (R441). -/
  | injectFlitCrc (ueUnit : Nat)
  /-- INJECT_REGION_FAULT (R441). -/
  | injectRegionFault (ueUnit : Nat)
  /-- VIN_AUX_UP (R450). -/
  | vinAuxUp (mv : Nat)
  /-- VIN_START (R450). -/
  | vinStart
  /-- VIN_OUT_OF_RANGE (R450). -/
  | vinOutOfRange (mv : Nat)
  /-- VIN_STOP (R450). -/
  | vinStop (mv : Nat)
  /-- RAIL_POWER_GOOD (R451). -/
  | railPowerGood (rail : Nat)
  /-- RAIL_TIMEOUT (R451). -/
  | railTimeout (rail : Nat)
  /-- ROOT_PLL_UNLOCK (R452). -/
  | rootPllUnlock (refLost : Bool)
  /-- BOOT_STAGE_END (R455). -/
  | bootStageEnd (fails : List (Nat × Nat)) (chipFail : Bool)
  /-- PWR_RESET (R453). -/
  | pwrReset
  /-- GOTO_STANDBY (R463). -/
  | gotoStandby
  /-- STANDBY_QUIESCED (R463). -/
  | standbyQuiesced
  /-- STANDBY_QUIESCE_TIMEOUT (R463). -/
  | standbyQuiesceTimeout
  /-- GOTO_ON (R462). -/
  | gotoOn
  /-- RESUME_COMPLETE (R464). -/
  | resumeComplete
  /-- GOTO_OFF (R462). -/
  | gotoOff
  /-- CLEAR_PEAK (R470). -/
  | clearPeak
  /-- IDLE_ENTRY (R462). -/
  | idleEntry
  /-- IDLE_EXIT (R462). -/
  | idleExit
  /-- THROTTLE_CHANGE (R465). -/
  | throttleChange (up : Bool) (cause : Nat) (maxC : Nat) (hot : Nat) (watts : Nat)
  /-- THERMAL_TRIP (R466). -/
  | thermalTrip (hot : Nat)
  /-- PWR_NOR_DATA (R459). -/
  | pwrNorData (val : Word)
  /-- ERASE_FW (R459). -/
  | eraseFw
  /-- NOR_OP_COMPLETE (R475). -/
  | norOpComplete (ok : Bool)
  /-- OSFP_INSERT (R498). -/
  | osfpInsert (inserted : Bool) (watts : Nat)
  /-- CABLE_PRESENT_CHANGE (R499). -/
  | cablePresentChange (link : Nat) (present : Bool)
  /-- LIM_TERM_SEL (R481). -/
  | limTermSel (acc : Port) (val : Word)
  /-- LIM_CLEAR_HIST (R483). -/
  | limClearHist (acc : Port)
  /-- CLEAR_PEAKS (R483). -/
  | clearPeaks (acc : Port)
  /-- QP_LINK_DOWN_TIMEOUT (R248). -/
  | qpLinkDownTimeout
  /-- COBBLER_LEASE_EXPIRY (R347). -/
  | cobblerLeaseExpiry (job : Nat)
  /-- VIN_AUX_DOWN (R450). -/
  | vinAuxDown
  /-- VIN_EXCURSION (R469). -/
  | vinExcursion
  /-- I3C_VREF_CHANGE (R501). -/
  | i3cVrefChange (present : Bool)
  /-- ROCE_ACK (R244). -/
  | roceAck (qp : Nat) (n : Nat)
deriving DecidableEq, Repr

end Sys2Proof
end

