-- ==== Sys2Proof/Decode.lean ====
section
/-!
DEFINITION. Sys2Proof/Decode.lean: the command that a word spells by the opcode table's bits. The table of this block
gives no row any bits: commands reach it as register writes, tacks, frames and events, whose layouts stand with the
operations that read them. So no word spells a command.
-/
namespace Sys2Proof

/-- The command a word of `nbits` bits spells: none, for the table gives no row any bits. -/
def decodeTableWord (_nbits _w : Nat) : Option Instr := none

end Sys2Proof
end

