-- ==== Sys2Proof/Config.lean ====
section
/-!
DEFINITION. Sys2Proof/Config.lean: what an implementation fixes and the spec leaves open, as constants without a
body, and what the model fixes by a log entry, as definitions with one.
-/
namespace Sys2Proof.Config

/-- The n-th free value: an address an allocator of the module chooses, which the spec does not give (log entry 3). -/
opaque freeAddr : Nat → Nat

/-- Which of a tile's KV banks holds a page: by session index, row and attention ordinal; a recurrent state stands as row
65,536 with its layer (R434; log entry 3). -/
opaque kvBank : Nat → Nat → Nat → Nat

/-- Which 4 KiB unit of its bank a page starts at: by session index, row and attention ordinal (R141; log entry 3). -/
opaque kvUnit : Nat → Nat → Nat → Nat

/-- Which 64 KiB tile of its region's T1 holds tile k of a session's storage: by session index and k (R173; log entry 3). -/
opaque t1Tile : Nat → Nat → Nat

/-- Where a page-table node or a row list lies, in units of 64 bytes of its tier: by session index, level and first row; a row list stands as
level 4 (R141, R159; log entry 3). -/
opaque nodeUnit : Nat → Nat → Nat → Nat

/-- How many dirty units of a session a move to T1 had written when it was cancelled: by free value (R178; log entry 3). -/
opaque moved : Nat → Nat

/-- The logical block that a channel engine tries first for a run of blocks: by channel and free value (R190; log entry 3). -/
opaque firstBlock : Nat → Nat → Nat

/-- Whether a staging bank holds matrices of an adapter version: bank, context, ADAPTER_ID, version. R95 places them in staging banks of
the context's tiles and says no more (log entry 3). -/
opaque stagedIn : Nat → Nat → Nat → Nat → Bool

/-- How many errors the LPDDR5X devices corrected in a patrol pass over T1: by free value (R186, R204; log entry 3). -/
opaque t1Corrected : Nat → Nat

/-- The code of an event that a rule requires and the event table does not name: 0 a change of the throttle
level, 2 a host plug-in that is held in low power (R439; log entry 3). -/
opaque eventCode : Nat → Nat

/-- Which reading operation issued a NAND read that failed, where vector queries are among those that may have: channel, logical
block, a number that is taken over those queries and one that stands for every other reader (R191; log entry 3). -/
opaque nandReader : Nat → Nat → Nat

/-- The n-th value that a sensor of the module measures where no command carries it (R469, R473; log entry 3). -/
opaque sensor : Nat → Nat

/-- Whether an erase that failed, or was cut off, had reached a byte of the firmware area: which operation, which byte (R475; log
entry 3). -/
opaque norErased : Nat → Nat → Bool

/-- What a T1 address holds where a register write injects an uncorrectable read there: by the free value and the address
(R437, R441; log entry 3). -/
opaque t1Area : Nat → Nat → T1Area

/-- The n-th byte of the security block's random source (R57, R408, R411; log entry 3). -/
opaque randomByte : Nat → Byte

/-- The physically unclonable secret K_PUF, byte by byte (R402; log entry 5). -/
opaque kPuf : Nat → Byte

/-- The bytes of a session-unit message, whose contents the spec gives without a layout (log entry 9). -/
opaque sesMsgLength : Nat → Nat

/-- The n-th byte of a session-unit message's body (log entry 9). -/
opaque sesMsgByte : Nat → Byte

/-- The coordinates of a node that no map this module holds lists; the fabric's builder assigns them (R313, log
entry 11). -/
opaque coordsOf : Nat → List Nat

/-- The I3C identification the spec names without a value: PID, BCR, DCR, MWL, MRL (R400; log entry 8). -/
opaque i3cConst : Nat → Bytes

/-- The device status GETSTATUS answers, of which the spec gives no layout (R400; log entry 8). -/
opaque i3cStatus : Nat → Bytes

/-- A byte of T1 or T0 that nothing has written reads zero (R173, R192). -/
def ramDefault : Byte := 0

/-- A byte of the SPI NOR that nothing has written (DESIGN CHOICE, log entry 7). -/
def norDefault : Byte := 0xFF

/-- The manufacturing MAC (DESIGN CHOICE, log entry 6). -/
def macAtManufacture : Nat := 0

end Sys2Proof.Config
end

