-- ==== Sys2Proof/Machine/Bits.lean ====
section
/-!
DEFINITION. Sys2Proof/Machine/Bits.lean: bit fields, byte order (R3), saturating counts, lists keyed by number, and
byte memories in canonical form.
-/
namespace Sys2Proof.Machine
open Sys2Proof

/-- Bits [lo + width − 1 : lo] of a number. -/
def field (n lo width : Nat) : Nat := n / 2 ^ lo % 2 ^ width

/-- Bit `i` of a number. -/
def bit (n i : Nat) : Bool := n / 2 ^ i % 2 == 1

/-- A number placed at bit `lo`, cut to `width` bits. -/
def place (v lo width : Nat) : Nat := v % 2 ^ width * 2 ^ lo

/-- A Bool placed at bit `lo`. -/
def placeB (b : Bool) (lo : Nat) : Nat := if b then 2 ^ lo else 0

/-- The number of 1 bits of `n` among its low `w` bits. -/
def popcount (n : Nat) : Nat → Nat
  | 0 => 0
  | w + 1 => (if bit n w then 1 else 0) + popcount n w

/-- A field of a register. -/
def wfield (w : Word) (lo width : Nat) : Nat := field w.toNat lo width

/-- `n` in `k` little-endian bytes (R3). -/
def le (n : Nat) : Nat → Bytes
  | 0 => []
  | k + 1 => BitVec.ofNat 8 n :: le (n / 256) k

/-- The number that little-endian bytes spell (R3). -/
def leNat : Bytes → Nat
  | [] => 0
  | b :: bs => b.toNat + 256 * leNat bs

/-- `k` bytes from offset `o`; fewer where the string ends. -/
def slice (b : Bytes) (o k : Nat) : Bytes := (b.drop o).take k

/-- The little-endian number of `k` bytes at offset `o`; bytes past the end count as zero. -/
def leAt (b : Bytes) (o k : Nat) : Nat := leNat (slice b o k)

/-- `k` zero bytes. -/
def zeros (k : Nat) : Bytes := List.replicate k 0

/-- A byte string cut or filled with zeros to `k` bytes. -/
def fit (b : Bytes) (k : Nat) : Bytes := b.take k ++ zeros (k - b.length)

/-- A byte string filled with zeros to a multiple of `k`. -/
def padTo (b : Bytes) (k : Nat) : Bytes := b ++ zeros ((k - b.length % k) % k)

/-- The ASCII bytes of a string. -/
def ascii (s : String) : Bytes := s.toList.map fun c => BitVec.ofNat 8 c.toNat

/-- A count that stops at `2 ^ w − 1`. -/
def sat (n w : Nat) : Nat := min n (2 ^ w - 1)

/-- Division rounded up. -/
def ceilDiv (a b : Nat) : Nat := (a + b - 1) / b

/-- floor(log2 n); 0 for 0. -/
def log2 (n : Nat) : Nat := Nat.log2 n

/-- The positions of the 1 bits of `n` below `w`, ascending. -/
def bitsOf (n w : Nat) : List Nat := (List.range w).filter (bit n)

/-- The value under a key; none where the key is not listed. -/
def find? {κ α : Type} [DecidableEq κ] (k : κ) : List (κ × α) → Option α
  | [] => none
  | (k', a) :: l => if k = k' then some a else find? k l

/-- The value under a key, or a default. -/
def findD {κ α : Type} [DecidableEq κ] (k : κ) (l : List (κ × α)) (d : α) : α := (find? k l).getD d

/-- The list without a key. -/
def erase {κ α : Type} [DecidableEq κ] (k : κ) (l : List (κ × α)) : List (κ × α) := l.filter fun p => p.1 ≠ k

/-- Give a key a value: in place where it is listed, at the end where it is not. -/
def put {κ α : Type} [DecidableEq κ] (k : κ) (a : α) : List (κ × α) → List (κ × α)
  | [] => [(k, a)]
  | (k', a') :: l => if k = k' then (k, a) :: l else (k', a') :: put k a l

/-- Give a number a value in a list whose numbers rise. -/
def putN {α : Type} (k : Nat) (a : α) : List (Nat × α) → List (Nat × α)
  | [] => [(k, a)]
  | (k', a') :: l => if k = k' then (k, a) :: l else if k < k' then (k, a) :: (k', a') :: l else (k', a') :: putN k a l

/-- Read one byte of a memory; `d` is what an unlisted address reads as. -/
def readByte (d : Byte) (a : Nat) : List Host.Cell → Byte
  | [] => d
  | (a', b) :: m => if a = a' then b else readByte d a m

/-- Write one byte, keeping addresses strictly rising and no entry equal to `d`. -/
def writeByte (d : Byte) (a : Nat) (b : Byte) : List Host.Cell → List Host.Cell
  | [] => if b = d then [] else [(a, b)]
  | (a', b') :: m =>
    if a < a' then (if b = d then (a', b') :: m else (a, b) :: (a', b') :: m)
    else if a = a' then (if b = d then m else (a, b) :: m)
    else (a', b') :: writeByte d a b m

/-- Read `k` bytes from address `a` upward off a memory whose addresses below `a` are gone. -/
def readRun (d : Byte) (a : Nat) : Nat → List Host.Cell → Bytes
  | 0, _ => []
  | k + 1, [] => d :: readRun d (a + 1) k []
  | k + 1, (a', b) :: m => if a = a' then b :: readRun d (a + 1) k m else d :: readRun d (a + 1) k ((a', b) :: m)

/-- Read `k` bytes from address `a` upward. -/
def readBytes (d : Byte) (a k : Nat) (m : List Host.Cell) : Bytes := readRun d a k (m.dropWhile fun c => c.1 < a)

/-- The entries that bytes from address `a` upward need: those that differ from `d`. -/
def cellsOf (d : Byte) (a : Nat) : Bytes → List Host.Cell
  | [] => []
  | b :: bs => if b = d then cellsOf d (a + 1) bs else (a, b) :: cellsOf d (a + 1) bs

/-- Write bytes from address `a` upward. -/
def writeBytes (d : Byte) (a : Nat) (bs : Bytes) (m : List Host.Cell) : List Host.Cell :=
  m.filter (fun c => c.1 < a) ++ cellsOf d a bs ++ m.filter (fun c => a + bs.length ≤ c.1)

/-- The canonical form of a memory: addresses strictly rise and no entry equals the unlisted byte. -/
def Memory.wf (d : Byte) : List Host.Cell → Bool
  | [] => true
  | [(_, b)] => b != d
  | (a, b) :: (a', b') :: m => b != d && a < a' && Memory.wf d ((a', b') :: m)

/-- Insertion sort by a relation; stable. -/
def sortBy {α : Type} (le : α → α → Bool) : List α → List α
  | [] => []
  | x :: l => (sortBy le l |> insertFront le x)
where
  /-- Put `x` before the first element that is not strictly below it. -/
  insertFront (le : α → α → Bool) (x : α) : List α → List α
    | [] => [x]
    | y :: l => if le x y then x :: y :: l else y :: insertFront le x l

/-- Lexicographic comparison of lists of numbers: at or before. -/
def lexLe : List Nat → List Nat → Bool
  | [], _ => true
  | _ :: _, [] => false
  | a :: l, b :: m => if a < b then true else if b < a then false else lexLe l m

/-- Whether two lists of numbers compare strictly. -/
def lexLt (a b : List Nat) : Bool := !lexLe b a

/-- The first element of least key; none of an empty list. -/
def leastBy {α : Type} (key : α → List Nat) : List α → Option α
  | [] => none
  | x :: l =>
    match leastBy key l with
    | none => some x
    | some y => if lexLe (key x) (key y) then some x else some y

/-- Sum of a list of numbers. -/
def sumN (l : List Nat) : Nat := l.foldl (· + ·) 0

/-- Version check of R5 for generation 1, major 1. -/
def versionOk (v : Nat) : Bool := v / 8 = 9

end Sys2Proof.Machine
end

