-- ==== Sys2Proof/Machine/Crypto.lean ====
section
/-!
DEFINITION. Sys2Proof/Machine/Crypto.lean: SHA-2, HMAC and HKDF (R402), the AES forward cipher (R126, R213), CRC-64
(R302) and MIX64 (R172). The modes of AES stand in Cipher.lean, the signatures in Slh.lean.
-/
namespace Sys2Proof.Machine
open Sys2Proof

/-- MIX64 of R172. -/
def mix64 (x : Word) : Word :=
  let x := x ^^^ (x >>> 33)
  let x := x * 0xFF51AFD7ED558CCD
  let x := x ^^^ (x >>> 33)
  let x := x * 0xC4CEB9FE1A85EC53
  x ^^^ (x >>> 33)

/-- MIX64 on numbers. -/
def mixN (n : Nat) : Nat := (mix64 (BitVec.ofNat 64 n)).toNat

/-- `n` in `k` big-endian bytes. -/
def be (n k : Nat) : Bytes := (le n k).reverse

/-- The number that big-endian bytes spell. -/
def beNat (b : Bytes) : Nat := leNat b.reverse

/-- XOR of byte strings. -/
def xorB (a b : Bytes) : Bytes := a.zipWith (· ^^^ ·) b

/-! ### SHA-2 (FIPS 180-4): one compression for both word widths -/

/-- What differs between SHA-256 and SHA-512: the rounds, and the three amounts of each of the four sigma functions. -/
structure Sha2 where
  rounds : Nat
  big0   : Nat × Nat × Nat
  big1   : Nat × Nat × Nat
  small0 : Nat × Nat × Nat
  small1 : Nat × Nat × Nat

/-- Four words that a round shifts along: the newest is `x0`. -/
structure Quad (w : Nat) where
  x0 : BitVec w
  x1 : BitVec w
  x2 : BitVec w
  x3 : BitVec w

/-- A new word enters. -/
def Quad.push {w : Nat} (x : BitVec w) (q : Quad w) : Quad w := ⟨x, q.x0, q.x1, q.x2⟩

/-- Word by word sum. -/
def Quad.add {w : Nat} (p q : Quad w) : Quad w := ⟨p.x0 + q.x0, p.x1 + q.x1, p.x2 + q.x2, p.x3 + q.x3⟩

/-- The bytes of four words, each big-endian. -/
def Quad.bytes {w : Nat} (q : Quad w) : Bytes := [q.x0, q.x1, q.x2, q.x3].flatMap fun x => be x.toNat (w / 8)

/-- The 64-bit round constants, eight to a row, the first of a row in its highest bits. -/
def shaRows : List Nat :=
  [0x428a2f98d728ae227137449123ef65cdb5c0fbcfec4d3b2fe9b5dba58189dbbc3956c25bf348b53859f111f1b605d019923f82a4af194f9bab1c5ed5da6d8118,
   0xd807aa98a303024212835b0145706fbe243185be4ee4b28c550c7dc3d5ffb4e272be5d74f27b896f80deb1fe3b1696b19bdc06a725c71235c19bf174cf692694,
   0xe49b69c19ef14ad2efbe4786384f25e30fc19dc68b8cd5b5240ca1cc77ac9c652de92c6f592b02754a7484aa6ea6e4835cb0a9dcbd41fbd476f988da831153b5,
   0x983e5152ee66dfaba831c66d2db43210b00327c898fb213fbf597fc7beef0ee4c6e00bf33da88fc2d5a79147930aa72506ca6351e003826f142929670a0e6e70,
   0x27b70a8546d22ffc2e1b21385c26c9264d2c6dfc5ac42aed53380d139d95b3df650a73548baf63de766a0abb3c77b2a881c2c92e47edaee692722c851482353b,
   0xa2bfe8a14cf10364a81a664bbc423001c24b8b70d0f89791c76c51a30654be30d192e819d6ef5218d69906245565a910f40e35855771202a106aa07032bbd1b8,
   0x19a4c116b8d2d0c81e376c085141ab532748774cdf8eeb9934b0bcb5e19b48a8391c0cb3c5c95a634ed8aa4ae3418acb5b9cca4f7763e373682e6ff3d6b2b8a3,
   0x748f82ee5defb2fc78a5636f43172f6084c87814a1f0ab728cc702081a6439ec90befffa23631e28a4506cebde82bde9bef9a3f7b2c67915c67178f2e372532b,
   0xca273eceea26619cd186b8c721c0c207eada7dd6cde0eb1ef57d4f7fee6ed17806f067aa72176fba0a637dc5a2c898a6113f9804bef90dae1b710b35131c471b,
   0x28db77f523047d8432caab7b40c724933c9ebe0a15c9bebc431d67c49c100d4c4cc5d4becb3e42b6597f299cfc657e2a5fcb6fab3ad6faec6c44198c4a475817]

/-- The eight 64-bit initial words, the first highest. -/
def shaStart : Nat :=
  0x6a09e667f3bcc908bb67ae8584caa73b3c6ef372fe94f82ba54ff53a5f1d36f1510e527fade682d19b05688c2b3e6c1f1f83d9abfb41bd6b5be0cd19137e2179

/-- Word `i` of eight 64-bit words in one number, cut to its `w` highest bits: the constants of SHA-256 are the upper halves of
those of SHA-512. -/
def shaWord (w row i : Nat) : BitVec w := BitVec.ofNat w (field row (64 * (7 - i)) 64 / 2 ^ (64 - w))

/-- Round constant `t`. -/
def shaConst (w t : Nat) : BitVec w := shaWord w (shaRows.getD (t / 8) 0) (t % 8)

/-- The initial chaining value: the words a to d, and e to h. -/
def shaIv (w : Nat) : Quad w × Quad w :=
  let i := shaWord w shaStart
  (⟨i 0, i 1, i 2, i 3⟩, ⟨i 4, i 5, i 6, i 7⟩)

/-- The sum of three rotations. -/
def bigSigma {w : Nat} (r : Nat × Nat × Nat) (x : BitVec w) : BitVec w :=
  x.rotateRight r.1 ^^^ x.rotateRight r.2.1 ^^^ x.rotateRight r.2.2

/-- The sum of two rotations and a shift. -/
def smallSigma {w : Nat} (r : Nat × Nat × Nat) (x : BitVec w) : BitVec w :=
  x.rotateRight r.1 ^^^ x.rotateRight r.2.1 ^^^ (x >>> r.2.2)

/-- The rounds from `t` on, `n` of them. `win` holds the sixteen message words from word `t` on; each round uses the first and
appends the sixteenth after it. -/
def shaRounds {w : Nat} (p : Sha2) : Nat → Nat → List (BitVec w) → Quad w → Quad w → Quad w × Quad w
  | 0, _, _, a, e => (a, e)
  | n + 1, t, win, a, e =>
    let m (i : Nat) : BitVec w := win.getD i 0
    let pick := e.x2 ^^^ (e.x0 &&& (e.x1 ^^^ e.x2))
    let most := (a.x0 &&& a.x1) ||| (a.x2 &&& (a.x0 ||| a.x1))
    let mixed := e.x3 + bigSigma p.big1 e.x0 + pick + shaConst w t + m 0
    let next := m 0 + smallSigma p.small0 (m 1) + m 9 + smallSigma p.small1 (m 14)
    shaRounds p n (t + 1) (win.drop 1 ++ [next]) (a.push (mixed + bigSigma p.big0 a.x0 + most)) (e.push (a.x3 + mixed))

/-- One block of sixteen words into the chaining value. -/
def shaBlock {w : Nat} (p : Sha2) (v : Quad w × Quad w) (blk : Bytes) : Quad w × Quad w :=
  let k := w / 8
  let r := shaRounds p p.rounds 0 ((List.range 16).map fun i => BitVec.ofNat w (beNat (slice blk (k * i) k))) v.1 v.2
  (v.1.add r.1, v.2.add r.2)

/-- The message filled with a 1 bit, zeros and its length in bits to whole blocks of sixteen words. -/
def shaPad (w : Nat) (m : Bytes) : Bytes :=
  let k := w / 8
  let used := m.length + 1 + 2 * k
  m ++ [0x80] ++ zeros ((16 * k - used % (16 * k)) % (16 * k)) ++ be (8 * m.length) (2 * k)

/-- The hash of a message. -/
def sha2 (w : Nat) (p : Sha2) (m : Bytes) : Bytes :=
  let b := shaPad w m
  let v := (List.range (b.length / (2 * w))).foldl (fun v i => shaBlock p v (slice b (2 * w * i) (2 * w))) (shaIv w)
  v.1.bytes ++ v.2.bytes

/-- SHA-256: 32 bytes. -/
def sha256 (m : Bytes) : Bytes :=
  sha2 32 { rounds := 64, big0 := (2, 13, 22), big1 := (6, 11, 25), small0 := (7, 18, 3), small1 := (17, 19, 10) } m

/-- SHA-512: 64 bytes. -/
def sha512 (m : Bytes) : Bytes :=
  sha2 64 { rounds := 80, big0 := (28, 34, 39), big1 := (14, 18, 41), small0 := (1, 8, 7), small1 := (19, 61, 6) } m

/-- HMAC (RFC 2104) over a hash with blocks of `blk` bytes. -/
def hmacOf (hash : Bytes → Bytes) (blk : Nat) (key msg : Bytes) : Bytes :=
  let k := fit (if key.length > blk then hash key else key) blk
  hash (k.map (· ^^^ 0x5C) ++ hash (k.map (· ^^^ 0x36) ++ msg))

/-- HMAC-SHA-256. -/
def hmac (key msg : Bytes) : Bytes := hmacOf sha256 64 key msg

/-- HKDF expansion blocks (RFC 5869). -/
def hkdfBlocks (prk info : Bytes) : Nat → Nat → Bytes → Bytes
  | 0, _, _ => []
  | n + 1, i, prev =>
    let t := hmac prk (prev ++ info ++ [BitVec.ofNat 8 i])
    t ++ hkdfBlocks prk info n (i + 1) t

/-- KDF(IKM, info, L) of R402. -/
def kdf (ikm info : Bytes) (len : Nat) : Bytes :=
  (hkdfBlocks (hmac (ascii "YILUNUM1") ikm) info (ceilDiv len 32) 1 []).take len

/-! ### The AES forward cipher (FIPS 197), for keys of 16 and 32 bytes -/

/-- Multiply by x in GF(2^8). -/
def xtime (b : Byte) : Byte := if b.msb then (b <<< 1) ^^^ 0x1B else b <<< 1

/-- Multiply in GF(2^8). -/
def gmul (a b : Byte) : Byte :=
  go 8 a b 0
where
  /-- Shift and add, `n` bits left. -/
  go : Nat → Byte → Byte → Byte → Byte
    | 0, _, _, acc => acc
    | n + 1, a, b, acc => go n (xtime a) (b >>> 1) (if b.getLsbD 0 then acc ^^^ a else acc)

/-- The inverse in GF(2^8), x^254; 0 for 0. -/
def ginv (b : Byte) : Byte :=
  let b2 := gmul b b
  let b4 := gmul b2 b2
  let b8 := gmul b4 b4
  let b16 := gmul b8 b8
  let b32 := gmul b16 b16
  let b64 := gmul b32 b32
  let b128 := gmul b64 b64
  gmul (gmul (gmul b2 b4) (gmul b8 b16)) (gmul (gmul b32 b64) b128)

/-- The S-box. -/
def sbox (b : Byte) : Byte :=
  let i := ginv b
  i ^^^ i.rotateLeft 1 ^^^ i.rotateLeft 2 ^^^ i.rotateLeft 3 ^^^ i.rotateLeft 4 ^^^ 0x63

/-- The key schedule's next `n` words, kept newest first; `i` counts the words so far and `rc` is the next round constant. -/
def aesExpand (nk : Nat) : Nat → Nat → Byte → List Bytes → List Bytes
  | 0, _, _, ws => ws
  | n + 1, i, rc, ws =>
    let last := ws.getD 0 []
    let t :=
      if i % nk = 0 then xorB ((last.rotateLeft 1).map sbox) [rc, 0, 0, 0]
      else if nk > 6 && i % nk = 4 then last.map sbox
      else last
    aesExpand nk n (i + 1) (if i % nk = 0 then xtime rc else rc) (xorB (ws.getD (nk - 1) []) t :: ws)

/-- The round keys of a key of 16 or 32 bytes: 11 or 15 of 16 bytes. -/
def aesKeys (key : Bytes) : List Bytes :=
  let nk := key.length / 4
  let ws := (aesExpand nk (4 * (nk + 7) - nk) nk 1 ((List.range nk).map fun i => slice key (4 * i) 4).reverse).reverse
  (List.range (nk + 7)).map fun r => (slice' ws (4 * r)).flatten
where
  /-- Four words from word `i` on. -/
  slice' (ws : List Bytes) (i : Nat) : List Bytes := (ws.drop i).take 4

/-- ShiftRows on a column-major state. -/
def shiftRows (s : Bytes) : Bytes := (List.range 16).map fun i => (s[(i + 4 * (i % 4)) % 16]?).getD 0

/-- MixColumns on one column. -/
def mixCol : Bytes → Bytes
  | [a, b, c, d] =>
    [xtime a ^^^ xtime b ^^^ b ^^^ c ^^^ d, a ^^^ xtime b ^^^ xtime c ^^^ c ^^^ d,
     a ^^^ b ^^^ xtime c ^^^ xtime d ^^^ d, xtime a ^^^ a ^^^ b ^^^ c ^^^ xtime d]
  | s => s

/-- MixColumns. -/
def mixCols (s : Bytes) : Bytes :=
  mixCol (slice s 0 4) ++ mixCol (slice s 4 4) ++ mixCol (slice s 8 4) ++ mixCol (slice s 12 4)

/-- The rounds after the first key addition, one for each key; the last has no MixColumns. -/
def aesRounds : List Bytes → Bytes → Bytes
  | [], s => s
  | k :: ks, s =>
    let s := shiftRows (s.map sbox)
    aesRounds ks (xorB (if ks.isEmpty then s else mixCols s) k)

/-- The cipher of one block under a key schedule. -/
def aesWith (ks : List Bytes) (blk : Bytes) : Bytes :=
  match ks with
  | [] => blk
  | k :: ks => aesRounds ks (xorB (fit blk 16) k)

/-- AES-128-ENCRYPT of one block. -/
def aes128 (key blk : Bytes) : Bytes := aesWith (aesKeys (fit key 16)) blk

/-- AES-256-ENCRYPT of one block. -/
def aes256 (key blk : Bytes) : Bytes := aesWith (aesKeys (fit key 32)) blk

/-! ### CRC-64 (R302) -/

/-- One byte into the CRC: polynomial 0x42F0_E1EB_A9EA_3693, most significant bit first. -/
def crcByte (c : Word) (b : Byte) : Word :=
  go 8 (c ^^^ (b.setWidth 64 <<< 56))
where
  /-- Shift `n` bits. -/
  go : Nat → Word → Word
    | 0, c => c
    | n + 1, c => go n (if c.msb then (c <<< 1) ^^^ 0x42F0E1EBA9EA3693 else c <<< 1)

/-- CRC-64 with initial value and final XOR all ones (R302; the bit order is that of ECMA-182, log entry 10). -/
def crc64 (b : Bytes) : Word := ~~~ (b.foldl crcByte (BitVec.allOnes 64))

end Sys2Proof.Machine
end

