-- ==== Sys2Proof/Machine/State.lean ====
section
/-!
DEFINITION. Sys2Proof/Machine/State.lean: everything the spec gives the block, as plain data, and its value right
after reset. Tables that the spec numbers are kept as lists of key and value pairs with a default for a key that is
not listed. Times are module time in ns unless a name says otherwise.
-/
namespace Sys2Proof.Machine
open Sys2Proof

/-- Why the block stops with a fault. -/
inductive Fault where
  /-- Raised by a command whose operand names a unit that the part does not have: a tile above 47, a link above 31, a
  region above 7, a port above 32. No such command can reach the part. Safe: the model stops. -/
  | noSuchUnit
deriving DecidableEq, Repr

/-- Why the model gives a command no meaning. -/
inductive Refusal where
  /-- Raised only by an arm of Dispatch whose command has no meaning yet. Safe: the model stops. -/
  | notModelled (mnemonic : String)
deriving DecidableEq, Repr

/-! ### Shared RW and RWS registers (R492 to R495) -/

/-- The registers that hold what was written to them and that every accessor shares (R489). Reserved bits are kept
zero by the one operation that writes registers. -/
structure Regs where
  sesCfg       : Word := 0
  reviveEst    : Word := 0
  stpCtrl      : Word := 0
  stpCfg       : Word := 0
  ctxLanes     : Word := 0
  ctxCfg       : Word := 0
  atnCfg       : Word := 0
  memCfg       : Word := 0
  t2Part       : Word := 0
  vecCfg       : Word := 0
  hstCtrl      : Word := 0
  hstCfg       : Word := 0
  ipv4         : Word := 0
  ipv6Hi       : Word := 0
  ipv6Lo       : Word := 0
  shpCfg       : Word := 0
  wltEnable    : Word := 0
  wltCfg       : Word := 0
  wltQmap      : Word := 0
  ckpCfg       : Word := 0
  imgExpect0   : Word := 0
  imgExpect1   : Word := 0
  imgExpect2   : Word := 0
  imgExpect3   : Word := 0
  stageAddr    : Word := 0
  quoteNonce0  : Word := 0
  quoteNonce1  : Word := 0
  quoteNonce2  : Word := 0
  quoteNonce3  : Word := 0
  audCfg       : Word := 0
  errCfg       : Word := 0
  injectAddr   : Word := 0
  pwrCfg       : Word := 0
  pwrThermal   : Word := 0
  pwrEnable    : Word := 0
  norAddr      : Word := 0
  limCfg       : Word := 0
deriving DecidableEq, Repr

/-- The registers that one accessor has for itself (R489): the selectors, the composition request registers, the
snapshots, and the results of its own placement and handover calls. -/
structure AccRegs where
  labSel     : Nat := 0
  bankSel    : Nat := 0
  t2Sel      : Nat := 0
  engSel     : Nat := 0
  idxSel     : Nat := 0
  qpSel      : Nat := 0
  meterSel   : Nat := 0
  portSel    : Nat := 0
  histSel    : Nat := 0
  linkSel    : Nat := 0
  jobSel     : Nat := 0
  cellSel    : Nat := 0
  termSel    : Nat := 0
  hwmSel     : Nat := 0
  inspectIdx : Nat := 0
  inspect    : Bytes := []
  inspectTenant : Nat := 0
  histSnap   : List Nat := []
  termSnap   : List Nat := []
  bankCode   : Nat := 0
  bankNo     : Nat := 0
  bankDone   : Bool := false
  objCode    : Nat := 0
  objId      : Nat := 0
  objTier    : Nat := 0
  objDone    : Bool := false
  reqAddr    : Nat := 0
  reqKey     : Nat := 0
  reqBuf     : List Host.Cell := []
  reqOpen    : Bool := false
  reqCode    : Nat := 0
  reqReason  : Nat := 0
  reqJob     : Nat := 0
  reqEpoch   : Nat := 0
deriving DecidableEq, Repr

/-! ### Time, power, start-up -/

/-- Module time and the PTP clock (R266, R267, R452). `ticks` is the free-running count of 10 ns ticks; `corr` is what
module time is to be stepped by at the first lock, in ns. -/
structure Clock where
  ticks      : Nat := 0
  nowPs      : Nat := 0
  slewPs     : Int := 0
  state      : Nat := 0
  everLocked : Bool := false
  goodSyncs  : Nat := 0
  offset     : Int := 0
  corr       : Int := 0
  pathDelay  : Nat := 0
  lastSync   : Nat := 0
  pendSync   : Option (Nat × Nat) := none
  lastT1T2   : Option (Nat × Nat) := none
  pendDelay  : Option (Nat × Nat) := none
  delaySeq   : Nat := 0
  ignored    : Nat := 0
  masters    : List (Nat × Nat) := []
deriving DecidableEq, Repr

/-- Module time in ns. -/
def Clock.now (c : Clock) : Nat := c.nowPs / 1000

/-- An operation of the SPI NOR that is under way (R459, R475). -/
inductive NorOp where
  | erase
  | program (off : Nat) (data : Bytes)
deriving DecidableEq, Repr

/-- Power, clocks, start-up, temperatures and the owner connector (R450 to R476, R498 to R501). -/
structure Power where
  state      : Nat := 1
  bootStage  : Nat := 0
  resetKind  : Nat := 0
  cmdResult  : Nat := 0
  bootMs     : Nat := 0
  powerEnd   : Nat := 0
  aux        : Bool := true
  vinMv      : Nat := 0
  pinW       : Nat := 0
  peakW      : Nat := 0
  excursions : Nat := 0
  rails      : Nat := 0
  startReq   : Bool := false
  tripped    : Bool := false
  goto       : Option Nat := none
  quiesceEnd : Nat := 0
  lastWork   : Nat := 0
  maxC       : Nat := 0
  hotTile    : Nat := 0
  inletC     : Nat := 0
  outletC    : Nat := 0
  level      : Nat := 0
  cause      : Nat := 0
  changes    : Nat := 0
  lastChange : Nat := 0
  throttle   : Option (Nat × Nat) := none
  refOk      : Bool := false
  rootLock   : Bool := false
  hostSerdes : Bool := false
  weltSerdes : Nat := 0
  ariDiv     : Nat := 4
  nor        : List Host.Cell := []
  norBusy    : Bool := false
  norError   : Bool := false
  norOp      : Option NorOp := none
  osfp       : Bool := false
  osfpHeld   : Bool := false
  cables     : List Nat := []
deriving DecidableEq, Repr

/-- The carrier EEPROM (R53, R272, R321, R402 to R406). -/
structure Eeprom where
  incarnation : Nat := 0
  issueNode   : Option (Nat × Nat) := none
  issueEnd    : Nat := 0
  keys        : List (Nat × Bytes) := []
  secret      : Option Bytes := none
  keySeq      : Nat := 0
  mac         : Nat := 0
  helperOk    : Bool := true
  endorsement : Option Bytes := none
deriving DecidableEq, Repr

/-! ### The Last image -/

/-- A placement entry (R25). -/
structure PlEntry where
  ctx         : Nat
  part        : Nat
  layer       : Nat
  firstExpert : Nat
  experts     : Nat
  mask        : Nat
  kib         : Nat
deriving DecidableEq, Repr, Inhabited

/-- A CONTEXTS entry (R32) with its EVICTION block (R148). -/
structure CtxCfg where
  id       : Nat
  kvFormat : Nat
  stFormat : Nat
  experts  : Nat
  layers   : Nat
  maxPos   : Nat
  digest   : Bytes
  mode     : Nat
  scoreLayer : Nat
  sink     : Nat
  recent   : Nat
  defBudget : Nat
  decay    : F32
deriving DecidableEq, Repr, Inhabited

/-- A TENANTS entry (R33). -/
structure Tenant where
  id      : Nat
  ctxMask : Nat
  rights  : Nat
  eventQp : Nat
deriving DecidableEq, Repr, Inhabited

/-- A QUEUE_PAIRS entry (R34). -/
structure QpCfg where
  idx      : Nat
  tenant   : Nat
  topClass : Nat
  egress   : Nat
  meter    : Nat
deriving DecidableEq, Repr, Inhabited

/-- A METERS entry (R37). -/
structure MeterCfg where
  cir    : Nat
  cbs    : Nat
  pir    : Nat
  pbs    : Nat
  yellow : Nat
  aware  : Bool
deriving DecidableEq, Repr, Inhabited

/-- A GATE_LIST (R37): base time, cycle, and entries of interval and open mask. -/
structure GateList where
  base    : Nat
  cycle   : Nat
  entries : List (Nat × Nat)
deriving DecidableEq, Repr, Inhabited

/-- TOPOLOGY (R38). -/
structure Topology where
  kind      : Nat := 0
  dims      : List Nat := [1, 1, 1, 1]
  node      : Nat := 0
  coords    : List Nat := [0, 0, 0, 0]
  nodeEpoch : Nat := 0
  links     : List Nat := []
deriving DecidableEq, Repr, Inhabited

/-- A Last image, its sections read (R20 to R38). -/
structure Image where
  part       : Option Nat := none
  sealAct    : Bool := false
  revision   : Nat := 0
  build      : Nat := 0
  measured   : Bytes := []
  numeric    : Bytes := []
  keyId      : Bytes := []
  raw        : Bytes := []
  primary    : List PlEntry := []
  tileLoss   : List (Nat × List PlEntry) := []
  regionLoss : List (Nat × List PlEntry) := []
  banks      : List Nat := []
  log2       : Nat := 0
  tracker    : Bool := false
  pinnedMax  : Nat := 0
  ctxs       : List CtxCfg := []
  tenants    : List Tenant := []
  qps        : List QpCfg := []
  quotas     : List Nat := []
  seeds      : List Word := []
  meters     : List MeterCfg := []
  gates      : List (Nat × GateList) := []
  weights    : List (Nat × List Nat) := []
  topo       : Topology := {}
deriving DecidableEq, Repr, Inhabited

/-- The image controller (R40 to R51). `st` is SEC_IMG_STATUS.STATE. -/
structure ImgCtl where
  st         : Nat := 0
  source     : Nat := 0
  stageQp    : Nat := 0
  staged     : Nat := 0
  buf        : List Host.Cell := []
  lastData   : Nat := 0
  addrFull   : Bool := false
  code       : Nat := 0
  section_   : Nat := 0x3FF
  detail     : Nat := 0
  isSealed   : Bool := false
  sealHeld   : Bool := false
  persist    : Bool := false
  auto       : Bool := false
  drainMs    : Nat := 0
  passedAt   : Nat := 0
  draining   : Bool := false
  drainOver  : Bool := false
  fromNor    : Bool := false
  expectNor  : Bytes := []
  next       : Option Image := none
  active     : Option Image := none
  partials   : List Bytes := []
  placeKind  : Nat := 0
  placeIdx   : Nat := 0
  storing    : Option Image := none
  persistAuto : Bool := false
deriving DecidableEq, Repr

/-! ### Sessions -/

/-- A wake that waits or runs (R62): its group in the order of R62, the key within the group, its arrival. -/
structure Wake where
  group   : Nat
  key     : Nat
  arrival : Nat
  running : Bool := false
deriving DecidableEq, Repr

/-- A move in flight at a source or destination (R64, R65). -/
structure MoveInfo where
  source  : Bool
  peer    : Nat
  job     : Nat
  epoch   : Nat
  due     : Nat
  queried : Bool := false
  placed  : Bool := false
  ackSent : Bool := false
deriving DecidableEq, Repr

/-- A bank descriptor (R190): tier, context, session index, tiles, page units, T1 address of the row list, digest of the plaintext stripe;
in T2 FIRST_BLOCK of each channel, in T3 the stripe's fabric address. -/
structure BankDesc where
  tier    : Nat
  ctx     : Nat := 0
  idx     : Nat := 0
  tiles   : Nat
  units   : Nat
  rowList : Nat := 0
  digest  : Bytes
  first   : List Nat := []
  addr    : Nat := 0
deriving DecidableEq, Repr

/-- A session the table holds: its entry, its storage, and what is in flight on it; `got` holds the 128-byte lines of a stripe in T3 that a
wake has read so far, by number. -/
structure Sess where
  e         : Entry
  st        : Store := {}
  job       : Option Nat := none
  desc      : Option BankDesc := none
  bankTier  : Option Nat := none
  bankPress : Bool := false
  wake      : Option Wake := none
  copyUp    : Bool := false
  spillT1   : Bool := false
  closeReq  : Bool := false
  kindleEta : Nat := 0
  mv        : Option MoveInfo := none
  ashAt     : Nat := 0
  reclaimed : Bool := false
  fromCkp   : Bool := false
  got       : List (Nat × Bytes) := []
deriving DecidableEq, Repr

/-- A dispute this module referees (R66 to R68). -/
structure Dispute where
  handle  : Word
  job     : Nat
  due     : Nat
  done    : Bool := false
  answers : List ClaimAns := []
  winner  : Option (Nat × Nat) := none
  waiting : List (TackHdr × TackBody) := []
deriving DecidableEq, Repr

/-- The session unit (R52 to R75). `tracker` is SES_STATUS.TRACKER; `pressing` says that the pressure rule has started
and has not yet reached its upper bound (R60). -/
structure SesUnit where
  tracker     : Nat := 2
  tableFenced : Bool := false
  cacheLost   : List Nat := []
  table       : List (Nat × Sess) := []
  unavailable : List Word := []
  issueNext   : Nat := 0
  issueEnd    : Nat := 0
  arrivals    : Nat := 0
  disputes    : List Dispute := []
  pressing    : Bool := false
deriving DecidableEq, Repr

/-! ### The step engine -/

/-- What a CKP_REPLAY adds to a turn (R389, R390). -/
structure Replay where
  ids        : List Nat
  first      : Nat
  sampleLast : Bool
  expectLast : Nat
  start      : Nat
  continues  : Bool
deriving DecidableEq, Repr

/-- An admitted turn (R77, R80) and the instants of R477. -/
structure Turn where
  idx       : Nat
  qp        : Nat
  qpGen     : Nat := 0
  tag       : Word
  forwarder : Option (Nat × Nat) := none
  ctx       : Nat
  cls       : Nat
  deadline  : Nat := 0
  maxTokens : Nat := 0
  stops     : List Nat := []
  samp      : Sampling := {}
  adapterVersion : Nat := 0
  admSeq    : Nat
  input     : List Nat := []
  inputDone : Nat := 0
  generated : Nat := 0
  delivered : Nat := 0
  held      : Option Nat := none
  first     : Bool := true
  replay    : Option Replay := none
  ended     : Option Nat := none
  tArr      : Nat := 0
  tParse    : Nat := 0
  tAdm      : Nat := 0
  tReady    : Option Nat := none
  tGrant    : Option Nat := none
  tFirst    : Option Nat := none
  tLast     : Nat := 0
  tTx       : Nat := 0
deriving DecidableEq, Repr

/-- The phases of R76 a held lane is in; PAUSED is a flag beside the phase held before pausing. -/
inductive Phase where
  | prefill | decode | closing
deriving DecidableEq, Repr

/-- A decode lane that holds a turn, and its work in the step under way. -/
structure Lane where
  turn    : Turn
  phase   : Phase
  paused  : Bool := false
  steps   : Nat := 0
  rerun   : Bool := false
  work    : Nat := 0
deriving DecidableEq, Repr

/-- A context (R96): state as STP_CTX_STATE encodes it, and changes that wait for a boundary. `unload` is an unload that a tile fence
put off (R435); `faulted` says that it has not been RESIDENT since its last fault (R98). -/
structure Ctx where
  state    : Nat := 0
  ready    : Bool := false
  unload   : Bool := false
  fault    : Option (Nat × Nat) := none
  faulted  : Bool := false
  source   : Option Nat := none
  weights  : Bytes := []
deriving DecidableEq, Repr

/-- An adapter version (R92, R94): state 1 LOADING, 2 CURRENT, 3 RETIRING. -/
structure Adapter where
  ctx    : Nat
  id     : Nat
  ver    : Nat
  digest : Bytes
  raw    : Bytes
  state  : Nat
  loaded : Bool := false
  hold   : Bool := false
  qp     : Nat := 0
  tag    : Word := 0
deriving DecidableEq, Repr

/-- The step engine (R76 to R106). -/
structure StepEng where
  lanes    : List (Nat × Lane) := []
  queue    : List Turn := []
  running  : Bool := false
  started  : Nat := 0
  seq      : Nat := 0
  lastNs   : Nat := 0
  maxNs    : Nat := 0
  missed   : Nat := 0
  preempted : Nat := 0
  admSeq   : Nat := 0
  cfg      : Word := 0
  atn      : Word := 0
  ctxs     : List (Nat × Ctx) := []
  loads    : List Nat := []
  adapters : List Adapter := []
  flush    : Bool := false
  switchOn : Bool := false
  tileHits : List Nat := []
  poolWarn : Nat := 0
  noRingWarn : Nat := 0
deriving DecidableEq, Repr

/-- The ARI_ counts and known-answer results (R132 to R137). -/
structure Ari where
  nanLogits  : Nat := 0
  allMasked  : Nat := 0
  outOfVocab : Nat := 0
  nanBlocks  : Nat := 0
  katRunning : Bool := false
  katDone    : Bool := false
  katPass    : Bool := false
  katTests   : Nat := 0
  katCells   : Nat := 0
deriving DecidableEq, Repr

/-- A look-aside entry (R144): set, way, tag and translation. -/
structure LabEntry where
  tile : Nat
  set  : Nat
  way  : Nat
  ctx  : Nat
  idx  : Nat
  ord  : Nat
  v    : Nat
  tier : Nat
  addr : Nat := 0
deriving DecidableEq, Repr

/-- Attention: look-aside buffers, the metadata pool and counters (R144 to R167). -/
structure Atn where
  lab      : List LabEntry := []
  labPtr   : List ((Nat × Nat) × Nat) := []
  hits     : List (Nat × Nat) := []
  misses   : List (Nat × Nat) := []
  evicted  : Nat := 0
  poolWaits : Nat := 0
  spilled  : Nat := 0
  returned : Nat := 0
deriving DecidableEq, Repr

/-! ### Memory -/

/-- A bank cell (R29, R182, R183, R201). `owner` is OWNER_CELL, 0x7F when unowned; `home` and `homeCtx` are what a lent
bank returns to. -/
structure Bank where
  owner   : Nat := 0x7F
  ctx     : Nat := 0
  use     : Nat := 0
  home    : Nat := 0
  homeCtx : Nat := 0
  lent    : Bool := false
  pending : Option (Port × Nat × Nat × Nat) := none
  cePeriod : Nat := 0
  ceTotal : Nat := 0
deriving DecidableEq, Repr, Inhabited

/-- A placement-call object (R179, R207). `blocks` gives its first block on each channel it lies on in T2. -/
structure Obj where
  id      : Nat
  kind    : Nat
  tier    : Nat
  region  : Nat
  size    : Nat
  pinned  : Bool := false
  busy    : Option (Port × Nat × Nat) := none
  ctx     : Option Nat := none
  raw     : Bytes := []
  blocks  : List (Nat × Nat) := []
deriving DecidableEq, Repr

/-- A NAND channel (R187 to R191, R205): blocks in use of the two shares, blocks programmed so far, blocks retired. -/
structure Chan where
  used     : Nat := 0
  vecUsed  : Nat := 0
  wear     : Nat := 0
  retired  : Nat := 0
  fenced   : Bool := false
  readFail : Nat := 0
deriving DecidableEq, Repr, Inhabited

/-- A T1 allocation that waits (R173): who asked, which of its tiles, since when, warned. -/
structure AllocReq where
  idx    : Nat
  tiles  : List Nat
  since  : Nat
  warned : Bool := false
deriving DecidableEq, Repr

/-- An injected bank-word flip that waits for the word's next read (R441): bank, word, uncorrectable. -/
structure Flip where
  bank : Nat
  word : Nat
  bad  : Bool
deriving DecidableEq, Repr

/-- Memory tiers and banks (R168 to R209). `t1Tiles` lists the tiles that each session holds in T1, by their number k in the spread rule; `t2`
the encrypted bytes of the 64 KiB blocks written in T2, by channel x 2^32 + logical block; `spilling` the tiles whose spill goes on until
SPILL_HIGH_MIB (R156, R177). -/
structure Mem where
  banks    : List (Nat × Bank) := []
  t0       : List Host.Cell := []
  t1       : List Host.Cell := []
  arbPtr   : List (Arbiter × Nat) := []
  flips    : List Flip := []
  t1Tiles  : List (Nat × List Nat) := []
  t2       : List (Nat × Bytes) := []
  queue    : List AllocReq := []
  mirrorA  : Nat := 0
  mirrorB  : Nat := 0
  degraded : Bool := false
  t0Ce     : Nat := 0
  t0Ue     : Nat := 0
  t1Ce     : Nat := 0
  t1Ue     : Nat := 0
  chans    : List (Nat × Chan) := []
  objs     : List Obj := []
  nextObj  : Nat := 0
  scrubDue : Nat := 0
  scrubbing : Bool := false
  spilling : List Nat := []
deriving DecidableEq, Repr

/-! ### Vector search -/

/-- A vector record or graph node (R216, R217). `lists` holds the node's neighbour-list versions, newest first. -/
structure VRec where
  slot  : Nat
  gen   : Nat
  id    : Word
  attr  : Word
  seq   : Nat
  list  : Nat
  vec   : List F32
  sketch : Bytes
  edges : List (Nat × List (Nat × Nat)) := []
deriving DecidableEq, Repr

/-- An update not yet published (R218, R224): its SEQ, whether it is durable, and what answers it: the tack, its opcode, WORD_A
to WORD_C. An insert stands at `pos` of its list, or is the node of slot `pos`, since `since`; `flushed` says that its tail tiles have
been programmed. -/
structure VUpd where
  seq     : Nat
  bulk    : Bool := false
  durable : Bool := false
  list    : Nat := 0
  pos     : Option Nat := none
  since   : Nat := 0
  flushed : Bool := false
  answer  : Option (TackHdr × Nat × Nat × Nat × Nat) := none
deriving DecidableEq, Repr

/-- A query at its coordinator (R218, R221, R222, R228): waiting in the engine's input queue, or active in coordinator context `ctx` with
its snapshot bound. `order` is its place in arrival order, `round` how many rounds of its work have been sent. -/
structure VQuery where
  qseq   : Nat
  ch     : Nat
  order  : Nat
  hdr    : TackHdr
  buf    : DataRef
  raw    : Bytes
  bulk   : Bool
  snap   : Nat := 0
  active : Bool := false
  ctx    : Nat := 0
  round  : Nat := 0
deriving DecidableEq, Repr

/-- A bulk batch of a list (R229): its number, when it opened, the queries whose scans it holds, and whether it has closed and its pass
is under way. -/
structure VBatch where
  num    : Nat := 0
  list   : Nat
  opened : Nat
  reqs   : List Nat
  closed : Bool := false
deriving DecidableEq, Repr

/-- The parts of an index on its channels (R216, R217): descriptor and centroids, a list's two runs, node units, the vector area. -/
inductive VPart
  | head | sketch (list : Nat) | vector (list : Nat) | nodes | area
deriving DecidableEq, Repr

/-- A 64 KiB tile of an index: its channel, its part, its place in the part, and its logical block (R188, R216). -/
structure VTile where
  ch    : Nat
  part  : VPart
  k     : Nat
  block : Nat
deriving DecidableEq, Repr

/-- A 4 KiB unit of the node area of a channel, and the version of a node that it holds (R217). -/
structure VUnit where
  ch   : Nat
  unit : Nat
  slot : Nat
  gen  : Nat
  seq  : Nat
deriving DecidableEq, Repr

/-- Who a channel engine works for: a query, an update, a repair or compaction pass, a closed batch. -/
inductive VOwner
  | query (qseq : Nat) | update (seq : Nat) | repair | batch (num : Nat)
deriving DecidableEq, Repr

/-- What a piece of work is (R210): the scan of a list, a re-rank of a list's or a channel's vectors, the read of a node, the writes of an
update or a pass. -/
inductive VJob
  | scan (list : Nat) | rerank (k : Nat) | node (slot : Nat) | write
deriving DecidableEq, Repr

/-- Where a piece of work stands (R227, R228, R229): held by its coordinator, in the bulk batch of its list, in the forward queue, in a
context that waits for a NAND command, in a context with one outstanding. -/
inductive VStage
  | held | batched (num : Nat) | queued | ready (ctx : Nat) | reading (ctx : Nat)
deriving DecidableEq, Repr

/-- A piece of work of a channel engine. `own` says that it is the coordinator's own engine's, and so not forwarded (R210). -/
structure VWork where
  idx   : Nat
  owner : VOwner
  bulk  : Bool
  ch    : Nat
  own   : Bool
  job   : VJob
  stage : VStage
deriving DecidableEq, Repr

/-- A channel engine's arbiter (R227): its rotating pointer, and the time and class of the NAND commands of the last millisecond. -/
structure VEng where
  ptr    : Nat := 0
  grants : List (Nat × Bool) := []
deriving DecidableEq, Repr, Inhabited

/-- Runs of a list that compaction has replaced: freed once the scans in flight on them have completed (R226). -/
structure VStale where
  list   : Nat
  tiles  : List VTile
  owners : List VOwner
deriving DecidableEq, Repr

/-- A vector index (R211 to R226). `head` holds its descriptor and rows, `entries` the versions of its entry slots with the SEQ that
each began, newest first, `pubLog` times and the PUBLISHED_SEQ that each began; `repairing` the R of a sweep under
way, `reclaim` the R and last SEQ of sweeps whose deleted slots are not free yet. -/
structure VIndex where
  id      : Nat
  tenant  : Nat
  graph   : Bool
  metric  : Nat
  format  : Nat
  dim     : Nat
  bits    : Nat
  mask    : Nat
  skKind  : Nat
  degree  : Nat
  cprobe  : Nat
  nlist   : Nat
  key     : Bytes
  centre  : List F32
  capacity : Nat
  cents   : List (List F32)
  csk     : List Bytes
  recs    : List VRec := []
  gens    : List (Nat × Nat) := []
  freeSlots : List Nat := []
  dels    : List (Nat × Nat × Nat) := []
  entries : List (Nat × List Nat) := []
  updates : Nat := 0
  pub     : Nat := 0
  horizon : Nat := 0
  pubLog  : List (Nat × Nat) := []
  waiting : List VUpd := []
  queries : List VQuery := []
  nextQ   : Nat := 0
  dropped : Bool := false
  degraded : Bool := false
  repairing : Option Nat := none
  reclaim : List (Nat × Nat) := []
  batches : List VBatch := []
  head    : Bytes := []
  tiles   : List VTile := []
  units   : List VUnit := []
  stale   : List VStale := []
deriving DecidableEq, Repr

/-- A staging window of this module for the result of a query it forwarded (R358): whose query, its job, the T1 address, and the
host buffer the result goes to. -/
structure VWin where
  hdr  : TackHdr
  job  : Nat
  addr : Nat
  buf  : DataRef
deriving DecidableEq, Repr

/-- Vector search (R210 to R242). -/
structure Vec where
  idxs    : List VIndex := []
  wins    : List VWin := []
  work    : List VWork := []
  engs    : List (Nat × VEng) := []
  arrivals : Nat := 0
  batchNo : Nat := 0
  queries : Nat := 0
  short   : Nat := 0
  passes  : Nat := 0
  busy    : Nat := 0
deriving DecidableEq, Repr

/-! ### The host port -/

/-- The bindings that a tack is checked against: those in force at its arrival (R33, R34, R43). -/
structure Bind where
  tenant   : Nat := 0
  rights   : Nat := 0
  ctxMask  : Nat := 0
  topClass : Nat := 0
deriving DecidableEq, Repr, Inhabited

/-- A ring (R260, R261, R415): `prod` counts records written, `cons` is the consumer count last read. -/
structure Ring where
  slots  : Nat
  rkey   : Nat
  addr   : Nat
  consumerAddr : Nat
  producerAddr : Nat := 0
  prod   : Nat := 0
  cons   : Nat := 0
  seq    : Nat := 1
  lost   : Nat := 0
  reading : Bool := false
  held   : List (ResultRec × Option (Nat × Nat)) := []
deriving DecidableEq, Repr

/-- A fetch from host memory that is under way or waits (R251): the tack, the range read, what is done with it, and the bindings that
its later checks go by. `left` counts the READs of the range that have not been sent. -/
structure Fetch where
  hdr  : TackHdr
  body : TackBody
  ref  : DataRef
  left  : Nat := 0
  stage : Nat := 0
  part  : Bytes := []
  tArr  : Nat := 0
  bind  : Bind := {}
deriving DecidableEq, Repr

/-- A tack whose completion is due in tack order (R264): its record once made, and the ring to set up with it. -/
structure OrdEnt where
  tag  : Word
  op   : Nat
  res  : Option ResultRec := none
  ring : Option RingBody := none
deriving DecidableEq, Repr

/-- A queue pair (R246 to R248, R277). `st` is HST_QP_INFO.STATE; `gen` counts its connections; `readsDue` holds key and address of the
consumer-count READs that wait for one of the 64 (R251). -/
structure Qp where
  st      : Nat := 0
  gen     : Nat := 0
  version : Nat := 0
  remote  : Nat := 0
  tcls    : Nat := 0
  flow    : Nat := 0
  since   : Nat := 0
  result  : Option Ring := none
  event   : Option Ring := none
  audit   : Option Ring := none
  fetches : List Fetch := []
  readsDue : List (Nat × Nat) := []
  order   : List OrdEnt := []
  lost    : Nat := 0
  rate    : Nat := 0
  lastCnpOut : Option Nat := none
  lastCnpIn  : Nat := 0
  unacked : List Out := []
  sentAt  : Nat := 0
  retries : Nat := 0
deriving DecidableEq, Repr, Inhabited

/-- The event buffer of a tenant's ring (R12). -/
structure EvBuf where
  held    : List EventRec := []
  reserve : List EventRec := []
  lost    : Nat := 0
deriving DecidableEq, Repr, Inhabited

/-- A token or end record in the order of the batches (R91): the queue pair and its connection, the node that forwarded the turn, the
record, and what a token record measures (R477). -/
structure StepRec where
  qp   : Nat
  gen  : Nat
  fwd  : Option (Nat × Nat) := none
  record : ResultRec
  measure : Option (Nat × Nat) := none
deriving DecidableEq, Repr

/-- The host port (R243 to R278). `batch` holds the token and end records that wait for records before them (R91, R264). -/
structure Hst where
  linkUp   : Bool := false
  downAt   : Nat := 0
  txOn     : Bool := false
  pfc      : List (Nat × Nat) := []
  qps      : List (Nat × Qp) := []
  poolUsed : Nat := 0
  tacks    : Nat := 0
  refused  : Nat := 0
  rnrNaks  : Nat := 0
  noRing   : Nat := 0
  fragments : Nat := 0
  evs      : List (Nat × EvBuf) := []
  preEvs   : EvBuf := {}
  catchUp  : List (Nat × TackHdr × TackBody × Nat × Nat) := []
  batch    : List StepRec := []
deriving DecidableEq, Repr

/-! ### Metering, queuing, gates -/

/-- A meter (R281, R296). -/
structure Meter where
  tc     : Nat := 0
  tp     : Nat := 0
  last   : Nat := 0
  green  : Nat := 0
  yellow : Nat := 0
  yRef   : Nat := 0
  red    : Nat := 0
deriving DecidableEq, Repr, Inhabited

/-- A tack in an ingress class queue (R283). `group` numbers the SEND that carried it. -/
structure QTack where
  hdr  : TackHdr
  body : TackBody
  tArr : Nat
  group : Nat
  bind : Bind
deriving DecidableEq, Repr

/-- A frame that waits in an egress queue (R286). `measure` names the turn of a token record by its admission sequence,
with the t_b that delivered it (R477); `held` is the receive buffer that a forwarded frame still takes up: link, virtual channel and
64-byte units (R312). -/
structure EFrame where
  len  : Nat
  at_  : Nat
  outs : Option Out := none
  frame : Option Frame := none
  measure : Option (Nat × Nat) := none
  held : Option (Nat × Nat × Nat) := none
deriving DecidableEq, Repr

/-- An egress queue (R286, R287): `tag` is the start tag of its head, once the head has one. -/
structure EQueue where
  frames : List EFrame := []
  fLast  : Nat := 0
  tag    : Option Nat := none
  woke   : Bool := true
  lost   : Nat := 0
  weight : Nat := 1
deriving DecidableEq, Repr, Inhabited

/-- A port (R286 to R291). Port 0 is the host port, nn + 1 is Pnn. `stalled` holds the frames, with their queues, whose issuers wait for
room in the buffer (R288); `lastSend` is when a frame last started. -/
structure EPort where
  v       : Nat := 0
  maxF    : Nat := 0
  ctl     : List EFrame := []
  queues  : List (Nat × EQueue) := []
  stalled : List (Nat × EFrame) := []
  lastSend : Option Nat := none
  gates   : Option GateList := none
  running : Bool := false
  startAt : Nat := 0
  pend    : Option (Option GateList × Nat) := none
  entry   : Nat := 0
  overruns : Nat := 0
  warnAt  : Option Nat := none
deriving DecidableEq, Repr, Inhabited

/-- Shaping (R279 to R301). `hist` holds bins 1 to 15 of the histograms of R292, uncut; bin 0 is what is left of
`samples`. -/
structure Shp where
  meters : List (Nat × Meter) := []
  cls    : List (Nat × List QTack) := []
  groups : Nat := 0
  groupLeft : List (Nat × Nat) := []
  ports  : List (Nat × EPort) := []
  hist   : List ((Nat × Nat × Nat) × List Nat) := []
  samples : Nat := 0
  lastSample : Nat := 0
deriving DecidableEq, Repr

/-! ### The Welt fabric -/

/-- A data flit in the replay buffer (R305): its sequence, when it was last sent, how often it was replayed, its bytes, and
the frames that end in it. -/
structure SentFlit where
  seq    : Nat
  at_    : Nat
  times  : Nat := 0
  raw    : Bytes
  frames : List Frame
deriving DecidableEq, Repr

/-- A Welt link (R303 to R317, R333, R334, R408). `st` is WLT_LINK_INFO.STATE. -/
structure Link where
  st        : Nat := 0
  lanes     : Nat := 15
  encrypted : Bool := false
  version   : Nat := 0
  peerNode  : Nat := 0
  peerLink  : Nat := 0
  reason    : Nat := 0
  retrains  : Nat := 0
  since     : Nat := 0
  fecCorrected : Nat := 0
  replays   : Nat := 0
  uncorrected : Nat := 0
  forwarded : Nat := 0
  discarded : Nat := 0
  txSeq     : Nat := 0
  rxNext    : Nat := 0
  ackedTo   : Nat := 0
  nak       : Bool := false
  replayBuf : List SentFlit := []
  rxPart    : Bytes := []
  txPart    : Bytes := []
  txFrames  : List Frame := []
  tagFails  : Nat := 0
  credits   : List (Nat × Nat) := []
  owed      : List (Nat × Nat) := []
  keySeq    : Nat := 0
  keyStart  : Nat := 0
  myNonce   : Option Bytes := none
  peerNonce : Option Bytes := none
  nonceAt   : Nat := 0
  confirmSent : Bool := false
  confirmGot : Bool := false
  newKey    : Option (Bytes × Bytes) := none
  txKey     : Option Bytes := none
  rxKey     : Option Bytes := none
  prevKey   : Option (Bytes × Nat) := none
  crcInject : Nat := 0
deriving DecidableEq, Repr, Inhabited

/-- A requester stream to one destination (R320, R321). -/
structure ReqStream where
  next : Nat := 0
  ackThrough : Option Nat := none
  answered : List Nat := []
deriving DecidableEq, Repr, Inhabited

/-- What a transaction's answer is for. -/
inductive Purpose where
  | none
  | session (m : SesMsg)
  | lace (ltype : Nat)
  | location (h : Word)
  | moved (h : Word)
  | restored (h : Word)
  | ckp
  | wake (idx line : Nat)
deriving DecidableEq, Repr

/-- A transaction outstanding at this requester (R323, R324). -/
structure Outst where
  req   : Request
  first : Nat
  last  : Nat
  purpose : Purpose := .none
  group : Nat := 0
deriving DecidableEq, Repr

/-- A home's stream entry (R321). -/
structure HomeStream where
  incarnation : Nat := 0
  next : Nat := 0
  lost : Bool := false
deriving DecidableEq, Repr, Inhabited

/-- A stored atomic result (R321): requester, stream, SEQ, value, when stored. -/
structure OnceRes where
  node   : Nat
  stream : Nat
  seq    : Nat
  val    : Word
  at_    : Nat
deriving DecidableEq, Repr

/-- The fabric block (R302 to R339). -/
structure Wlt where
  links    : List (Nat × Link) := []
  streams  : List ((Nat × Nat) × ReqStream) := []
  outst    : List Outst := []
  stalled  : List (Request × Purpose) := []
  homes    : List ((Nat × Nat) × HomeStream) := []
  once     : List OnceRes := []
  buffer   : List (Nat × Nat × Request) := []
  here     : List Frame := []
  states   : List (Nat × Nat) := []
  stateSeq : Nat := 0
  stopped  : List Nat := []
  duplicates : Nat := 0
  gaps     : Nat := 0
  resends  : Nat := 0
  dead     : Nat := 0
  stale    : Nat := 0
deriving DecidableEq, Repr

/-! ### Composition -/

/-- A member entry of a map (R343). -/
structure Member where
  node    : Nat
  roles   : Nat
  mstate  : Nat := 0
  coords  : List Nat := [0, 0, 0, 0]
  qpFirst : Nat := 0
  qpCount : Nat := 0
deriving DecidableEq, Repr, Inhabited

/-- A pool of a map (R344): members as (member index, INDEX_FIRST, INDEX_COUNT, BASE). -/
structure Pool where
  id      : Nat
  kind    : Nat
  park    : Bool
  units   : Nat
  members : List (Nat × Nat × Nat × Nat)
deriving DecidableEq, Repr, Inhabited

/-- A map (R342 to R345). -/
structure LaceMap where
  state   : Nat := 0
  job     : Nat := 0
  flags   : Nat := 0
  epoch   : Nat := 0
  term    : Nat := 0
  cobbler : Nat := 0
  tenant  : Nat := 0
  drainUs : Nat := 1000
  seedCheck : Nat := 0
  hbMs    : Nat := 5
  leaseMs : Nat := 50
  memberMs : Nat := 100
  formMs  : Nat := 200
  members : List Member := []
  pools   : List Pool := []
  slots   : List Nat := []
deriving DecidableEq, Repr, Inhabited

/-- A proposal under way at the cobbler (R349, R350). -/
structure Proposal where
  map      : LaceMap
  due      : Nat
  accepted : List Nat := []
  refused  : List (Nat × Nat) := []
  unanimous : Bool := false
  requester : Option Port := none
deriving DecidableEq, Repr

/-- A job of which this module is a member (R340, R341, R347 to R363); `map.state` 0 stands for a job whose first map is
not yet committed. `inMaps` holds the parts of maps and requests under way, by LTYPE, sender and MAP_ID; `handover` lists the
nodes whose handover of location records has not arrived, `handed` those whose handover came with its epoch (R355);
`forced` says that a FORCE removal asks for a recomposition. -/
structure Job where
  map      : LaceMap
  prev     : Option LaceMap := none
  older    : List (LaceMap × Nat) := []
  commitAt : Nat := 0
  drainOn  : Bool := false
  removed  : Bool := false
  term     : Nat := 0
  votedTerm : Nat := 0
  hbSeq    : Nat := 0
  hbSent   : Nat := 0
  hbTimes  : List (Nat × Nat) := []
  hbGot    : List (Nat × Nat) := []
  heard    : List (Nat × Nat) := []
  lastAck  : Nat := 0
  leaseEnd : Nat := 0
  hasLease : Bool := false
  candidate : Bool := false
  votes    : List Nat := []
  candAt   : Nat := 0
  proposal : Option Proposal := none
  inMaps   : List ((Nat × Nat × Bytes) × List (Nat × Bytes)) := []
  accepted : Option (Bytes × LaceMap) := none
  dead     : List Nat := []
  formDue  : Nat := 0
  registered : List Nat := []
  forced   : Bool := false
  handover : List Nat := []
  handed   : List (Nat × Nat) := []
  locRecs  : List LocRec := []
  triggers : Nat := 0
  lostCount : Nat := 0
deriving DecidableEq, Repr

/-- Composition (R340 to R372). -/
structure MapUnit where
  jobs      : List (Nat × Job) := []
  commits   : Nat := 0
  elections : Nat := 0
  teardowns : Nat := 0
  redirects : Nat := 0
  forwards  : Nat := 0
  catchFails : Nat := 0
  openWait  : List (Word × TackHdr × Nat) := []
deriving DecidableEq, Repr

/-! ### Checkpoint -/

/-- A registered store region (R373, R374). `used` is its free map as the module holds it, bit by unit; `loaded` says that
it holds one. -/
structure Region where
  job   : Nat
  kind  : Nat
  node  : Nat
  qp    : Nat
  ref   : DataRef
  collectSeq : Nat := 0
  used   : Nat := 0
  loaded : Bool := false
deriving DecidableEq, Repr, Inhabited

/-- A blob reference (R375). -/
structure BlobRef where
  digest : Bytes := []
  node   : Nat := 0
  unit   : Nat := 0
  len    : Nat := 0
deriving DecidableEq, Repr, Inhabited

/-- A retained row as a record lists it (R380): its references, by ordinal group. -/
structure RowRef where
  v       : Nat
  written : Nat
  score   : F32
  refs    : List BlobRef
deriving DecidableEq, Repr, Inhabited

/-- A failure of a restore (R387). -/
structure FailEnt where
  slotLo : Nat
  slotHi : Nat
  layLo  : Nat
  layHi  : Nat
  posLo  : Nat
  posHi  : Nat
  shard  : Nat
  reason : Nat
  source : Nat := 0
deriving DecidableEq, Repr

/-- A session record (R377, R380). -/
structure CkpRec where
  e     : Entry
  kept  : Nat
  flags : Nat := 0
  state : BlobRef := {}
  groups : List (Nat × Nat) := []
  rows  : List RowRef := []
deriving DecidableEq, Repr

/-- A blob that is to be placed: of a session's row `v` and ordinal group `g`, of its state (v = 65536), of a context
(v = 65537, g its number) or of the g-th adapter (v = 65538). `share` says that it is claimed (R378). -/
structure BlobJob where
  h     : Word
  v     : Nat
  g     : Nat
  ctx   : Nat
  data  : Bytes
  share : Bool
deriving DecidableEq, Repr

/-- A shard that is to be written (R379): its table entry's ranges, and its records in the clear. -/
structure ShardJob where
  slotLo : Nat
  slotHi : Nat
  layLo  : Nat
  layHi  : Nat
  posLo  : Nat
  posHi  : Nat
  count  : Nat
  recs   : Bytes
deriving DecidableEq, Repr

/-- A restore under way (R385): its tack (none for the slot home's own restore of R363) and operands. -/
structure RestoreReq where
  hdr    : Option TackHdr
  job    : Nat
  which  : Nat
  flags  : Nat
  slotLo : Nat
  slotHi : Nat
  buf    : Option DataRef
deriving DecidableEq, Repr

/-- The checkpoint engine (R373 to R398). `st` is CKP_STATUS.STATE. `phase` is what the engine does next, `waiting` says
that it waits for an answer and `inbox` holds one that has come; the probe, the loading and the times are those of the
CLAIM under way (R378). `reads` holds what has been read of the store regions, by kind, node, offset and length. -/
structure Ckp where
  st       : Nat := 0
  coord    : Bool := false
  job      : Nat := 0
  step     : Nat := 0
  base     : Nat := 0
  members  : Nat := 0
  pool     : Nat := 0xFFFF
  tenant   : Nat := 0
  hdr      : Option TackHdr := none
  cfg      : Word := 0
  cutTime  : Nat := 0
  revision : Nat := 0
  phase    : Nat := 0
  waiting  : Bool := false
  inbox    : Option Bytes := none
  want     : Option (Nat × Nat × Nat × Nat) := none
  reads    : List ((Nat × Nat × Nat × Nat) × Bytes) := []
  captured : List (Entry × Store) := []
  adapters : List (Nat × Nat × Nat × Bytes) := []
  ledger   : List (Word × CkpRec) := []
  working  : List (Word × CkpRec) := []
  workStep : Nat := 0
  stage    : Option Nat := none
  numeric  : Bytes := []
  keyId    : Bytes := []
  todo     : List BlobJob := []
  placed   : List ((Word × Nat × Nat) × BlobRef) := []
  probe    : Nat := 0
  loading  : Nat := 0
  since    : Nat := 0
  polled   : Nat := 0
  claims   : List (Bytes × BlobRef) := []
  shardJobs : List ShardJob := []
  shards   : Nat := 0
  shardBase : Nat := 0
  table    : List Bytes := []
  written  : Nat := 0
  shared   : Nat := 0
  bytes    : Nat := 0
  readyAt  : Nat := 0
  body     : Bytes := []
  digest   : Bytes := []
  last     : Nat := 0
  slot     : Nat := 0
  regions  : List Region := []
  placing  : Option (Nat × Nat × List FailEnt) := none
  unplaced : List Word := []
  homeFull : Bool := false
  restored : Nat := 0
  failedN  : Nat := 0
  failCount : Nat := 0
  restore  : Option RestoreReq := none
  collect  : Option TackHdr := none
  owed     : List Nat := []
  holdEnd  : Option Nat := none
deriving DecidableEq, Repr

/-! ### Security -/

/-- A quote that waits (R410): who asked, the nonce. -/
structure QuoteReq where
  hdr   : Option (TackHdr × DataRef)
  nonce : Bytes
deriving DecidableEq, Repr

/-- A tenant's audit records that wait for its ring (R415, R416). -/
structure AudTenant where
  ever : Bool := false
  log  : List Bytes := []
deriving DecidableEq, Repr, Inhabited

/-- A signed audit root that is kept (R419, R420). -/
structure AudRoot where
  seq  : Nat
  rcd  : Bytes
  sig  : Bytes
  subs : List (Nat × Bytes)
deriving DecidableEq, Repr

/-- An audit root whose signature is being made (R419). -/
structure PendRoot where
  rcd  : Bytes
  subs : List (Nat × Bytes)
deriving DecidableEq, Repr

/-- Identity, keys, quotes and audit (R399 to R429). `leaves` holds, by tenant and handle, the chain count and head after a commit,
with its t_b. -/
structure Sec where
  identity   : Bool := false
  helperFail : Bool := false
  pubkey     : Bytes := []
  fwMeasured : Bool := false
  fwDigest   : Bytes := []
  fwLength   : Nat := 0
  fwImage    : Bytes := []
  keyBuf     : Bytes := []
  keyCode    : Nat := 0
  keySlot    : Nat := 0
  keyDone    : Bool := false
  keyBusy    : Option (Nat × Nat × Bytes) := none
  quotes     : List QuoteReq := []
  quoteBusy  : Bool := false
  quoteOut   : Bytes := []
  quoteReady : Bool := false
  aud        : List (Nat × AudTenant) := []
  leaves     : List (Nat × Word × Nat × Bytes × Nat) := []
  nextEnd    : Nat := 250000000
  rootsPend  : List PendRoot := []
  roots      : List AudRoot := []
  rootSeq    : Nat := 0
  rootMade   : Nat := 0
  prevRoot   : Bytes := []
  revChanged : Bool := false
  noRing     : Nat := 0
  stalled    : Nat := 0
deriving DecidableEq, Repr

/-- The owner port's I3C target (R400). -/
structure I3c where
  addr   : Option Nat := none
  ibi    : Bool := false
  sel    : Nat := 0
  vref   : Bool := true
deriving DecidableEq, Repr

/-! ### Fencing -/

/-- Fences, injection and their counts (R430 to R449). `unsound` says that the fault that took the module out of service
touched the step in flight; `salvage` lists the tiles under salvage, with when their time ends and the sessions that have
dirty units there (R435). -/
structure Err where
  chipOut  : Bool := false
  unsound  : Bool := false
  regions  : List Nat := []
  tiles    : List Nat := []
  cells    : List ((Nat × Nat) × Nat) := []
  ue       : List ((Nat × Nat) × Nat) := []
  t1Ues    : List (Nat × Nat) := []
  channels : List Nat := []
  switching : Bool := false
  switchAt : Nat := 0
  salvage  : List (Nat × Nat × List Nat) := []
  armedTo  : Option Nat := none
  cellFences : Nat := 0
  tileFences : Nat := 0
  ctxFaults : Nat := 0
  sesLost  : Nat := 0
deriving DecidableEq, Repr

/-- Latency terms and limits (R477 to R483). -/
structure Lim where
  hist  : List (Nat × List Nat) := []
  measured : Nat := 0
  unmeasured : Nat := 0
  ended : List Turn := []
  peaks : List (Nat × Nat) := []
  hits  : List (Nat × Nat) := []
deriving DecidableEq, Repr

/-! ### The whole block -/

/-- The state of the block: everything above, the commands that wait, what left on its ports, and the model's own
counter of free values. -/
structure State where
  pending : List Instr := []
  regs    : Regs := {}
  accs    : List (Port × AccRegs) := []
  clk     : Clock := {}
  pwr     : Power := {}
  rom     : Eeprom := {}
  img     : ImgCtl := {}
  ses     : SesUnit := {}
  stp     : StepEng := {}
  ari     : Ari := {}
  atn     : Atn := {}
  mem     : Mem := {}
  vec     : Vec := {}
  hst     : Hst := {}
  shp     : Shp := {}
  wlt     : Wlt := {}
  map     : MapUnit := {}
  ckp     : Ckp := {}
  sec     : Sec := {}
  i3c     : I3c := {}
  err     : Err := {}
  lim     : Lim := {}
  out     : List Out := []
  free    : Nat := 0
deriving DecidableEq, Repr

/-- The registers at their reset values (R71, R72, R100, R104, R161, R197, R206, R235, R271, R293, R330, R338, R393,
R427, R446, R471, R472, R480). -/
def Regs.reset : Regs where
  sesCfg := BitVec.ofNat 64 (16 + 32 * 2 ^ 12 + 100 * 2 ^ 24 + 2000 * 2 ^ 34 + 1000 * 2 ^ 50)
  reviveEst := BitVec.ofNat 64 (100 + 1800 * 2 ^ 16 + 4000 * 2 ^ 32)
  stpCfg := BitVec.ofNat 64 (1024 + 512 * 2 ^ 11 + 64 * 2 ^ 22 + 1 * 2 ^ 32 + 1 * 2 ^ 36)
  ctxLanes := BitVec.ofNat 64 (256 + 256 * 2 ^ 9 + 256 * 2 ^ 18 + 256 * 2 ^ 27)
  ctxCfg := 0x5555
  atnCfg := BitVec.ofNat 64 (64 + 128 * 2 ^ 12 + 2 * 2 ^ 24 + 4096 * 2 ^ 28)
  memCfg := BitVec.ofNat 64 (100 + 3600 * 2 ^ 16 + 16 * 2 ^ 36)
  t2Part := 25
  vecCfg := BitVec.ofNat 64 (20 + 10 * 2 ^ 7 + 600 * 2 ^ 17 + 500 * 2 ^ 37 + 1 * 2 ^ 53)
  hstCfg := BitVec.ofNat 64 (1 + 16 * 2 ^ 5 + 7 * 2 ^ 11 + 14 * 2 ^ 14 + 5 * 2 ^ 19 + 50 * 2 ^ 22)
  shpCfg := BitVec.ofNat 64 (1 + 8 * 2 + 7 * 2 ^ 6)
  wltCfg := BitVec.ofNat 64 (1000 + 8 * 2 ^ 14 + 1000 * 2 ^ 18 + 1000 * 2 ^ 34 + 1 * 2 ^ 44)
  wltQmap := BitVec.ofNat 64 (8 * 2 ^ 6 + 16 * 2 ^ 12 + 24 * 2 ^ 18 + 32 * 2 ^ 24 + 1 * 2 ^ 30 + 2 * 2 ^ 36 + 2 * 2 ^ 42)
  ckpCfg := BitVec.ofNat 64 (8 + 256 * 2 ^ 16 + 20 * 2 ^ 28 + 3600 * 2 ^ 38 + 720 * 2 ^ 54)
  audCfg := BitVec.ofNat 64 (65536 + 10 * 2 ^ 24 + 240 * 2 ^ 34)
  errCfg := BitVec.ofNat 64 (100 + 16 * 2 ^ 10 + 8 * 2 ^ 18 + 50 * 2 ^ 25)
  pwrCfg := BitVec.ofNat 64 (50 + 2500 * 2 ^ 16)
  pwrThermal := BitVec.ofNat 64 (95 + 90 * 2 ^ 8 + 110 * 2 ^ 16)
  limCfg := BitVec.ofNat 64 (1 + 10 * 2 ^ 4 + 1 * 2 ^ 9)

/-- The block right after reset: a cold start has begun and stage POWER runs (R453 to R455), no image is active,
nothing is enabled, every register is at its reset value. -/
def State.reset : State where
  regs := Regs.reset
  stp := { cfg := Regs.reset.stpCfg, atn := Regs.reset.atnCfg }

end Sys2Proof.Machine
end

