-- ==== Sys2Proof/Machine/Ops.lean ====
section
/-!
DEFINITION. Sys2Proof/Machine/Ops.lean: the operations that every family shares: module time, the active image's
bindings, events (R10 to R12, R265), frames on the host wire (R286 to R288), result records (R260 to R264), and the
high-water marks of R482.
-/
namespace Sys2Proof.Machine
open Sys2Proof

/-! ### Time -/

/-- Module time in ns. -/
def now (s : State) : Nat := s.clk.now

/-- Module time moves forward to `t` ns where it is behind; it never moves backward (R267). -/
def Clock.advance (t : Nat) (c : Clock) : Clock :=
  if c.now < t then { c with nowPs := t * 1000, ticks := c.ticks + ceilDiv (t - c.now) 10 } else c

/-- The instant `t` has come. -/
def advance (t : Nat) (s : State) : State := { s with clk := s.clk.advance t }

/-- Whether the engines have power: ON or IDLE (R462). -/
def powered (s : State) : Bool := s.pwr.state = 1 || s.pwr.state = 2

/-- Whether control core `n` serves: its region is not fenced (R15). -/
def coreServes (s : State) (n : Nat) : Bool := n < 8 && !s.err.regions.contains n

/-- The control core that holds the chip-level duties: the lowest-numbered one whose region is not fenced (R15). -/
def dutyCore (s : State) : Option Nat := (List.range 8).find? (coreServes s)

/-- Whether the owner port is on its bus: powered by the auxiliary converter, with its reference (R450, R501). -/
def onBus (s : State) : Bool := s.pwr.aux && s.i3c.vref

/-! ### The active image's bindings -/

/-- The tenants of the active image. -/
def tenants (s : State) : List Tenant := match s.img.active with | some i => i.tenants | none => []

/-- The queue pair entries of the active image. -/
def qpCfgs (s : State) : List QpCfg := match s.img.active with | some i => i.qps | none => []

/-- The entry of a queue pair (R34). -/
def qpCfg? (s : State) (qp : Nat) : Option QpCfg := (qpCfgs s).find? (·.idx = qp)

/-- The tenant of a queue pair; 0 where it has none. -/
def tenantOf (s : State) (qp : Nat) : Nat := ((qpCfg? s qp).map (·.tenant)).getD 0

/-- The entry of a tenant (R33). -/
def tenant? (s : State) (t : Nat) : Option Tenant := (tenants s).find? (·.id = t)

/-- Whether a tenant holds a right of R33. -/
def hasRight (s : State) (t r : Nat) : Bool := match tenant? s t with | some x => bit x.rights r | none => false

/-- The tenants that hold the register-read right (R265). -/
def readers (s : State) : List Nat := ((tenants s).filter fun t => bit t.rights 2).map (·.id)

/-- The tenants whose CONTEXT_MASK includes a context. -/
def ctxTenants (s : State) (c : Nat) : List Nat := ((tenants s).filter fun t => bit t.ctxMask c).map (·.id)

/-- The CONTEXTS entry of a context of the active image (R32). -/
def ctxCfg? (s : State) (c : Nat) : Option CtxCfg := s.img.active.bind fun i => i.ctxs.find? (·.id = c)

/-- Whether a Last image is active. -/
def imageOn (s : State) : Bool := s.img.active.isSome

/-- Fabric and session work from outside: none is done until a Last image is active (R1). -/
def onFabric (f : State → State) (s : State) : State := if imageOn s then f s else s

/-! ### Queue pairs -/

/-- A queue pair. -/
def qpOf (s : State) (qp : Nat) : Qp := findD qp s.hst.qps {}

/-- Change a queue pair. -/
def modQp (qp : Nat) (f : Qp → Qp) (s : State) : State :=
  { s with hst := { s.hst with qps := putN qp (f (qpOf s qp)) s.hst.qps } }

/-! ### Outputs -/

/-- Put something on a port. -/
def emit (o : Out) (s : State) : State := { s with out := s.out ++ [o] }

/-! ### High-water marks (R479, R482): requests that met a bound -/

/-- A request met limit `i`. -/
def hit (i : Nat) (s : State) : State :=
  { s with lim := { s.lim with hits := putN i (sat (findD i s.lim.hits 0 + 1) 16) s.lim.hits } }

/-! ### Egress queues (R286 to R288) -/

/-- Modular order of tags: `a` precedes `b` (R286). -/
def precedes (a b : Nat) : Bool := (a + 2 ^ 64 - b % 2 ^ 64) % 2 ^ 64 ≥ 2 ^ 63

/-- The later of two tags. -/
def laterTag (a b : Nat) : Nat := if precedes a b then b else a

/-- A port. -/
def portOf (s : State) (p : Nat) : EPort := findD p s.shp.ports {}

/-- Change a port. -/
def modPort (p : Nat) (f : EPort → EPort) (s : State) : State :=
  { s with shp := { s.shp with ports := putN p (f (portOf s p)) s.shp.ports } }

/-- Bytes that wait in a port's egress queues. -/
def EPort.used (p : EPort) : Nat := sumN (p.queues.map fun q => sumN (q.2.frames.map (·.len)))

/-- The egress buffer of a port (R288). -/
def egressRoom (p : Nat) : Nat := if p = 0 then 32 * 2 ^ 20 else 8 * 2 ^ 20

/-- Tag the frame that reaches the head of a queue (R286): from max(V, F_last) where the queue wakes, from F_last
where it stayed backlogged and eligible. -/
def EQueue.tagHead (v : Nat) (q : EQueue) : EQueue :=
  match q.frames with
  | [] => { q with tag := none, woke := true }
  | f :: _ =>
    let st := if q.woke then laterTag v q.fLast else q.fLast
    { q with tag := some st, fLast := (st + f.len * 65536 / max q.weight 1) % 2 ^ 64, woke := false }

/-- A frame enters an egress queue of a port. -/
def EPort.push (q : Nat) (f : EFrame) (p : EPort) : EPort :=
  let x := findD q p.queues {}
  let x' : EQueue := { x with frames := x.frames ++ [f] }
  let x' := if x.frames.isEmpty then ({ x' with woke := true } : EQueue).tagHead p.v else x'
  let p := { p with queues := putN q x' p.queues }
  match x'.tag with
  | some _ => { p with maxF := laterTag p.maxF x'.fLast }
  | none => p

/-- A frame that is routed again enters an egress queue ahead of the frames that wait there (R317): the queue's start tag stands, and
the new head is the one it charges. -/
def EPort.pushFront (q : Nat) (f : EFrame) (p : EPort) : EPort :=
  let x := findD q p.queues {}
  match x.tag with
  | none => p.push q f
  | some st =>
    let last := (st + f.len * 65536 / max x.weight 1) % 2 ^ 64
    { p with queues := putN q { x with frames := f :: x.frames, fLast := last } p.queues, maxF := laterTag p.maxF last }

/-- With every queue empty, V becomes the greatest finish tag issued (R286). -/
def EPort.settle (p : EPort) : EPort := if p.queues.all fun y => y.2.frames.isEmpty then { p with v := p.maxF } else p

/-- A frame enters a queue of a port. Where the buffer has no room, or an earlier frame of the queue waits for room, its issuer stalls
(R288; limits 5 and 6). -/
def pushFrame (p q : Nat) (f : EFrame) (s : State) : State :=
  let x := portOf s p
  if x.used + f.len > egressRoom p || x.stalled.any (·.1 = q) then
    modPort p (fun x => { x with stalled := x.stalled ++ [(q, f)] }) (hit (if p = 0 then 5 else 6) s)
  else modPort p (·.push q f) s

/-- The frames of stalled issuers enter their queues in order as long as the buffer has room (R288). -/
def EPort.refill (room : Nat) : List (Nat × EFrame) → EPort → EPort
  | [], p => { p with stalled := [] }
  | x :: l, p => if p.used + x.2.len ≤ room then (p.push x.1 x.2).refill room l else { p with stalled := x :: l }

/-- The egress queue of a queue pair (R34). -/
def egressQ (s : State) (qp : Nat) : Nat := ((qpCfg? s qp).map (·.egress)).getD 0

/-- The IPv6 address, in use where it is not zero (R273). -/
def ipv6Used (s : State) : Bool := s.regs.ipv6Hi ≠ 0 || s.regs.ipv6Lo ≠ 0

/-- Whether a queue pair's peer is reached over IPv6: where the IPv6 address is in use and the IPv4 address is not valid (R273, log
entry 138). -/
def overV6 (s : State) : Bool := !(bit s.regs.ipv4.toNat 38) && ipv6Used s

/-- The length of a RoCEv2 frame with a payload of `n` bytes: Ethernet, IP, UDP, BTH, ICRC and FCS, and RETH in a
first packet. -/
def roceLen (s : State) (reth : Bool) (n : Nat) : Nat :=
  (if reth then 78 else 62) + (if overV6 s then 20 else 0) + 4 * ceilDiv n 4

/-- The path MTU (R271). -/
def pathMtu (s : State) : Nat :=
  match wfield s.regs.hstCfg 19 3 with
  | 3 => 1024
  | 4 => 2048
  | _ => 4096

/-- The frames of one RDMA WRITE, packet by packet. -/
def writePackets (s : State) (qp rkey : Nat) : Nat → Bool → Nat → Bytes → List EFrame
  | 0, _, _, _ => []
  | n + 1, first, addr, b =>
    let m := pathMtu s
    let piece := b.take m
    { len := roceLen s first piece.length, at_ := now s, outs := some (.rdmaWrite qp rkey addr piece) } ::
      (if b.length ≤ m then [] else writePackets s qp rkey n false (addr + m) (b.drop m))

/-- Issue one RDMA WRITE on a queue pair. -/
def rdmaWrite (qp rkey addr : Nat) (b : Bytes) (s : State) : State :=
  (writePackets s qp rkey (b.length / 1024 + 1) true addr b).foldl (fun s f => pushFrame 0 (egressQ s qp) f s) s

/-- Issue one RDMA READ request on a queue pair. -/
def rdmaRead (qp rkey addr len : Nat) (s : State) : State :=
  pushFrame 0 (egressQ s qp) { len := roceLen s true 0, at_ := now s, outs := some (.rdmaRead qp rkey addr len) } s

/-- READs that a range takes, of at most 1 MiB each (R251). -/
def readsOf (r : DataRef) : Nat := ceilDiv r.len (2 ^ 20)

/-- Whether a ring's consumer count is being read. -/
def ringReading (r : Option Ring) : Nat := match r with | some x => if x.reading then 1 else 0 | none => 0

/-- READs outstanding on a queue pair, of data references and of consumer counts (R251, R277). -/
def readsOut (q : Qp) : Nat :=
  sumN (q.fetches.map fun f => readsOf f.ref - f.left) +
  (ringReading q.result + ringReading q.event + ringReading q.audit - q.readsDue.length)

/-- The READ of a ring's consumer count, the ring already marked: it goes out, or waits where 64 others are out (R251). -/
def readConsumer (qp rkey addr : Nat) (s : State) : State :=
  if readsOut (qpOf s qp) > 64 then hit 9 (modQp qp (fun q => { q with readsDue := q.readsDue ++ [(rkey, addr)] }) s)
  else rdmaRead qp rkey addr 8 s

/-- A control frame of the host port goes first at the next frame boundary (R285). -/
def pushCtl (o : Out) (len : Nat) (s : State) : State :=
  modPort 0 (fun p => { p with ctl := p.ctl ++ [{ len := len, at_ := now s, outs := some o }] }) s

/-! ### Events -/

/-- The UNIT of the module as a whole and of the chip-level units (R430). -/
def unitChip (kind : Nat) : Nat := kind * 2 ^ 24 + 0xFFFF00

/-- The UNIT of a tile. -/
def unitTile (t : Nat) : Nat := 0x10 * 2 ^ 24 + t / 6 * 2 ^ 16 + t * 2 ^ 8 + t % 6

/-- The UNIT of a unit of a region. -/
def unitRegion (kind r i : Nat) : Nat := kind * 2 ^ 24 + r * 2 ^ 16 + 0xFF00 + i

/-- The UNIT of a NAND channel. -/
def unitChannel (ch : Nat) : Nat := unitRegion 0x22 (ch / 4) (ch % 4)

/-- The UNIT of a Welt link. -/
def unitLink (l : Nat) : Nat := unitRegion 0x23 (l / 4) (l % 4)

/-- Kind and index of a cell by its block arbiter number (R17, R430). -/
def cellKind (c : Nat) : Nat × Nat :=
  if c < 4 then (1, c) else if c < 6 then (2, c - 4) else if c < 70 then (3, c - 6)
  else if c = 70 then (4, 0) else if c = 71 then (5, 0) else (6, c - 72)

/-- The UNIT of a cell. -/
def unitCell (t c : Nat) : Nat := (cellKind c).1 * 2 ^ 24 + t / 6 * 2 ^ 16 + t * 2 ^ 8 + (cellKind c).2

/-- The 32 bytes of an event record (R10); `flagLost` sets FLAGS[1], and the count replaces DETAIL where the code
defines none (R12). -/
def eventBytes (e : EventRec) (seq lost : Nat) : Bytes :=
  le e.time 8 ++ le 0x48 1 ++ le e.severity 1 ++ le e.level 1 ++
  le ((if e.freeRun then 1 else 0) + (if lost = 0 then 0 else 2)) 1 ++ le e.unit 4 ++ le e.code 4 ++ le seq 4 ++
  le (if lost ≠ 0 && !e.hasDetail then lost else e.detail) 8

/-- Hold an event in a ring's buffer (R12): 256 records, then the newest is lost; a severity 3 record displaces the
oldest of lower severity, or takes a reserve slot. -/
def EvBuf.hold (e : EventRec) (b : EvBuf) : EvBuf :=
  if b.held.length < 256 then { b with held := b.held ++ [e] }
  else if e.severity = 3 then
    match b.held.findIdx? (·.severity < 3) with
    | some i => { b with held := b.held.eraseIdx i ++ [e], lost := b.lost + 1 }
    | none => if b.reserve.length < 4 then { b with reserve := b.reserve ++ [e] } else { b with lost := b.lost + 1 }
  else { b with lost := b.lost + 1 }

/-- The event buffer of a tenant's ring. -/
def evBuf (s : State) (t : Nat) : EvBuf := findD t s.hst.evs {}

/-- Set the event buffer of a tenant's ring. -/
def setEvBuf (t : Nat) (b : EvBuf) (s : State) : State := { s with hst := { s.hst with evs := putN t b s.hst.evs } }

/-- The queue pair and event ring of a tenant, where one is set up (R33, R260). -/
def eventRing? (s : State) (t : Nat) : Option (Nat × Ring) :=
  match tenant? s t with
  | none => none
  | some x => if (qpOf s x.eventQp).st = 2 then ((qpOf s x.eventQp).event).map fun r => (x.eventQp, r) else none

/-- The least of the records a buffer holds goes to the ring while the ring and the egress buffer have room; `n`
bounds the records. -/
def deliverEvents : Nat → Nat → State → State
  | 0, _, s => s
  | n + 1, t, s =>
    match eventRing? s t with
    | none => s
    | some (qp, r) =>
      let b := evBuf s t
      match b.held ++ b.reserve with
      | [] => s
      | e :: rest =>
        if r.prod - r.cons ≥ r.slots then
          if r.reading then s
          else readConsumer qp r.rkey r.consumerAddr (modQp qp (fun q => { q with event := some { r with reading := true } }) s)
        else if (portOf s 0).used + roceLen s true 32 > egressRoom 0 then s
        else
          let r' := { r with prod := r.prod + 1, seq := (r.seq + 1) % 2 ^ 32 }
          let s := modQp qp (fun q => { q with event := some r' }) s
          let s := setEvBuf t { held := rest.take 256, reserve := rest.drop 256, lost := 0 } s
          let s := rdmaWrite qp r.rkey (r.addr + 32 * (r.prod % r.slots)) (eventBytes e r.seq b.lost) s
          deliverEvents n t s

/-- An event record for one tenant's ring. -/
def eventTo (e : EventRec) (s : State) (t : Nat) : State :=
  let b := evBuf s t
  let s := if b.held.length ≥ 256 then hit 28 s else s
  deliverEvents 1 t (setEvBuf t (b.hold e) s)

/-- An event record made now (R10). -/
def eventNow (s : State) (sev level unit code detail : Nat) (hasDetail : Bool) : EventRec :=
  { time := now s, freeRun := !s.clk.everLocked, severity := sev, level := level, unit := unit, code := code,
    detail := detail % 2 ^ 64, hasDetail := hasDetail }

/-- Log an event to the rings of the given tenants. -/
def logTo (ts : List Nat) (sev level unit code detail : Nat) (s : State) (hasDetail : Bool := true) : State :=
  ts.foldl (eventTo (eventNow s sev level unit code detail hasDetail)) s

/-- Log an event that names no tenant (R265); before any image is active it waits for the tenants (R454). -/
def logAll (sev level unit code detail : Nat) (s : State) (hasDetail : Bool := true) : State :=
  match s.img.active with
  | none => { s with hst := { s.hst with preEvs := s.hst.preEvs.hold (eventNow s sev level unit code detail hasDetail) } }
  | some _ => logTo (readers s) sev level unit code detail s hasDetail

/-- REGISTER_WARN with its offset and reason, routed by who made the access (R9, R265). -/
def registerWarn (acc : Port) (off why : Nat) (s : State) : State :=
  let d := off % 2 ^ 24 + why * 2 ^ 24
  match acc with
  | .host qp => logTo [tenantOf s qp] 1 6 (unitChip 0) 0x0404 d s
  | _ => logAll 1 6 (unitChip 0) 0x0404 d s

/-- VERSION_REJECT with the rejected VERSION byte (R5), from a unit kind of R430; the unit of each format is the model's choice (log
entry 119). -/
def versionReject (unit v : Nat) (s : State) : State := logAll 1 6 (unitChip unit) 0x0405 (v % 256) s

/-- Log a structure's VERSION, at offset `o` of its bytes, where it is not one that R5 accepts. -/
def noteVersion (unit : Nat) (b : Bytes) (o : Nat) (s : State) : State :=
  if b.length ≤ o || versionOk (leAt b o 1) then s else versionReject unit (leAt b o 1) s

/-! ### Result records -/

/-- The 64 bytes of a result record (R262). -/
def resultBytes (r : ResultRec) (lost phase : Nat) : Bytes :=
  le 0x48 1 ++ le r.kind 1 ++ le r.status 1 ++ le r.opcode 1 ++ le (r.flags + (if lost = 0 then 0 else 4)) 2 ++ zeros 2 ++
  le r.tag.toNat 8 ++ le r.handle.toNat 8 ++ le r.wordA 8 ++ le r.wordB 8 ++ le r.wordC 8 ++ le r.time 8 ++
  le lost 4 ++ zeros 3 ++ le phase 1

/-- Records of a connection that has ended are discarded and counted (R248). -/
def countLost (qp n : Nat) (s : State) : State := if n = 0 then s else modQp qp (fun q => { q with lost := sat (q.lost + n) 32 }) s

/-- A record of a queue pair is lost and counted (R261). -/
def loseRecord (qp : Nat) (s : State) : State :=
  modQp qp (fun q => { q with lost := sat (q.lost + 1) 32, result := q.result.map fun r => { r with lost := r.lost + 1 } }) s

/-- A result record is lost at an egress queue (R299). -/
def EPort.countLost (q : Nat) (p : EPort) : EPort :=
  let x := findD q p.queues {}
  { p with queues := putN q { x with lost := sat (x.lost + 1) 18 } p.queues }

/-- Put one record into a ring that has room (R261, R262). Where the egress buffer has no room the record is lost and
the queue counts it (R288, R299). `m` names the turn and the t_b of a token record (R477). -/
def writeRecord (qp : Nat) (ring : Ring) (rcd : ResultRec) (m : Option (Nat × Nat)) (s : State) : State :=
  let len := roceLen s true 64
  if (portOf s 0).used + len > egressRoom 0 then
    let q := egressQ s qp
    hit 5 (loseRecord qp (modPort 0 (·.countLost q) s))
  else
    let n := ring.prod
    let phase := if n / ring.slots % 2 = 0 then 1 else 0
    let b := resultBytes rcd ring.lost phase
    let s := modQp qp (fun q => { q with result := some { ring with prod := n + 1, lost := 0 } }) s
    pushFrame 0 (egressQ s qp)
      { len := len, at_ := now s, outs := some (.rdmaWrite qp ring.rkey (ring.addr + 64 * (n % ring.slots)) b), measure := m } s

/-- A record is due on a queue pair. Without a ring it is discarded and counted (R248); in a full ring it is held
until the consumer count has been read (R261). -/
def postRecord (qp : Nat) (rcd : ResultRec) (s : State) (m : Option (Nat × Nat) := none) : State :=
  let q := qpOf s qp
  match q.result with
  | none => countLost qp 1 s
  | some r =>
    if q.st ≠ 2 then countLost qp 1 s
    else if r.reading then modQp qp (fun q => { q with result := some { r with held := r.held ++ [(rcd, m)] } }) s
    else if r.prod - r.cons ≥ r.slots then
      readConsumer qp r.rkey r.consumerAddr
        (modQp qp (fun q => { q with result := some { r with reading := true, held := r.held ++ [(rcd, m)] } }) s)
    else writeRecord qp r rcd m s

/-- Whether a record posted now on a queue pair is written at once. -/
def ringWrites (s : State) (qp : Nat) : Bool :=
  match (qpOf s qp).result with
  | none => false
  | some r => (qpOf s qp).st = 2 && !r.reading && r.prod - r.cons < r.slots &&
    (portOf s 0).used + roceLen s true 64 ≤ egressRoom 0

/-! ### Completions (R264) -/

/-- The opcodes whose completions appear in tack order. -/
def orderedOp (op : Nat) : Bool := (1 ≤ op && op ≤ 0x0B) || op = 0x30 || op = 0x31 || op = 0x38 || op = 0x3F

/-- The opcode of a tack (R252, R389, R410 to R421). -/
def opcodeOf : TackBody → Nat
  | .openSes _ => 0x01
  | .turn _ => 0x02
  | .park _ => 0x03
  | .wake => 0x04
  | .kindle _ => 0x05
  | .pin => 0x06
  | .unpin => 0x07
  | .move _ => 0x08
  | .close => 0x09
  | .confirm _ => 0x0A
  | .resolve _ => 0x0B
  | .stageBegin => 0x10
  | .stageData _ _ => 0x11
  | .stageEnd _ => 0x12
  | .adapterLoad _ => 0x13
  | .adapterDrop _ _ => 0x14
  | .weightsStage _ _ => 0x15
  | .vecCreate _ => 0x20
  | .vecDrop _ => 0x21
  | .vecInsert _ => 0x22
  | .vecDelete _ _ _ _ => 0x23
  | .vecQuery _ _ => 0x24
  | .regRead _ => 0x30
  | .regWrite _ _ => 0x31
  | .ringSetup _ => 0x38
  | .nop => 0x3F
  | .ckpStore _ _ _ _ _ => 0x40
  | .ckpBegin _ _ _ _ _ _ => 0x41
  | .ckpCommit _ _ _ => 0x42
  | .ckpAbort _ _ => 0x43
  | .ckpRestore _ _ _ _ _ _ => 0x44
  | .ckpReplay _ => 0x45
  | .ckpCollect _ => 0x46
  | .quote _ _ => 0x50
  | .auditRingSetup _ => 0x51
  | .auditRootRead _ _ => 0x52
  | .identityRead _ => 0x53

/-- A new ring (R260): slot 0, phase 1, SEQUENCE 1. -/
def newRing (b : RingBody) : Ring :=
  { slots := 2 ^ b.log2Slots, rkey := b.rkey, addr := b.addr, consumerAddr := b.consumerAddr, producerAddr := b.producerAddr }

/-- Set up a result or event ring (R260). -/
def installRing (qp : Nat) (b : RingBody) (s : State) : State :=
  if b.kind = 0 then modQp qp (fun q => { q with result := some (newRing b) }) s
  else
    let s := modQp qp (fun q => { q with event := some (newRing b) }) s
    deliverEvents 260 (tenantOf s qp) s

/-- Whether a completion has to wait: it sets up a result ring while the consumer count of the ring in its place is read, so that the
records held for that ring reach it (R260). -/
def awaitsOldRing (q : Qp) (e : OrdEnt) : Bool :=
  match e.ring, q.result with
  | some b, some r => b.kind = 0 && r.reading
  | _, _ => false

/-- Write the completions at the front of a queue pair's order that have been made. -/
def flushOrder : Nat → Nat → State → State
  | 0, _, s => s
  | n + 1, qp, s =>
    match (qpOf s qp).order with
    | [] => s
    | e :: rest =>
      match (if awaitsOldRing (qpOf s qp) e then none else e.res) with
      | none => s
      | some r =>
        let s := modQp qp (fun q => { q with order := rest }) s
        let s := match e.ring with
          | some b => if b.kind = 0 then installRing qp b s else s
          | none => s
        let s := postRecord qp r s
        let s := match e.ring with
          | some b => if b.kind = 0 then s else installRing qp b s
          | none => s
        flushOrder n qp s

/-- Give the first tack of a tag and opcode that still waits its record. -/
def fillOrder (tag : Word) (op : Nat) (r : ResultRec) (ring : Option RingBody) : List OrdEnt → List OrdEnt
  | [] => []
  | e :: l =>
    if e.tag = tag ∧ e.op = op ∧ e.res = none then { e with res := some r, ring := ring } :: l
    else e :: fillOrder tag op r ring l

/-- The completions at the front of a queue pair's order that have been made go out. -/
def flushQp (qp : Nat) (s : State) : State := flushOrder ((qpOf s qp).order.length + 1) qp s

/-! ### The order of token and end records (R91, R264) -/

/-- Whether the completion of the TURN that a record belongs to is out. -/
def turnDone (q : Qp) (r : ResultRec) : Bool :=
  q.order.all fun e => match e.res with
    | some c => !(c.opcode = 2 && c.status = 0 && c.handle = r.handle && c.wordA = r.wordB)
    | none => true

/-- Whether a token or end record waits at the full ring of another queue pair. -/
def heldElsewhere (s : State) (qp : Nat) : Bool :=
  s.hst.qps.any fun q => q.1 ≠ qp && (match q.2.result with | some r => r.held.any (·.1.kind ≠ 1) | none => false)

/-- Whether the first record of the batches may be written: no record before it waits at another ring, so that each step's records are
written before the next step's (R91), and its TURN's completion is out (R264, log entry 134). -/
def StepRec.ready (s : State) (x : StepRec) : Bool :=
  !heldElsewhere s x.qp && (x.fwd.isSome || (qpOf s x.qp).gen ≠ x.gen || turnDone (qpOf s x.qp) x.record)

/-- Count a tack processed and, where its status is not OK, refused (R278). -/
def countTack (status : Nat) (s : State) : State :=
  let n := if status = 0 then s.hst.refused else sat (s.hst.refused + 1) 32
  { s with hst := { s.hst with tacks := sat (s.hst.tacks + 1) 32, refused := n } }

/-- What a completion carries beside its status (R263). -/
structure Words where
  a : Nat := 0
  b : Nat := 0
  c : Nat := 0
  handle : Option Word := none
deriving DecidableEq, Repr

/-- Whether a tack names a session in its HANDLE (R249): the session opcodes but OPEN, and CKP_REPLAY. -/
def sessionOp (op : Nat) : Bool := (2 ≤ op && op ≤ 0x0B) || op = 0x45

/-! ### Registers of one accessor (R489) -/

/-- The registers an accessor has for itself. -/
def accRegs (s : State) (acc : Port) : AccRegs := findD acc s.accs {}

/-- Change the registers of one accessor. -/
def modAcc (acc : Port) (f : AccRegs → AccRegs) (s : State) : State :=
  { s with accs := put acc (f (accRegs s acc)) s.accs }

/-! ### Sessions and contexts -/

/-- The session at an index. -/
def sess? (s : State) (idx : Nat) : Option Sess := find? idx s.ses.table

/-- Change the session at an index, where there is one. -/
def modSess (idx : Nat) (f : Sess → Sess) (s : State) : State :=
  match sess? s idx with
  | none => s
  | some x => { s with ses := { s.ses with table := putN idx (f x) s.ses.table } }

/-- Change a session's table entry. -/
def modEntry (idx : Nat) (f : Entry → Entry) (s : State) : State := modSess idx (fun x => { x with e := f x.e }) s

/-- The session that holds a handle: the copy that is not ASH, where there is one. -/
def byHandle? (s : State) (h : Word) : Option (Nat × Sess) :=
  match s.ses.table.find? fun p => p.2.e.handle = h && p.2.e.state ≠ .free && p.2.e.state ≠ .ash with
  | some p => some p
  | none => s.ses.table.find? fun p => p.2.e.handle = h && p.2.e.state ≠ .free

/-- How many sessions meet a test. -/
def countSess (s : State) (p : Sess → Bool) : Nat := (s.ses.table.filter fun x => p x.2).length

/-- A context. -/
def ctxOf (s : State) (c : Nat) : Ctx := findD c s.stp.ctxs {}

/-- Change a context. -/
def modCtx (c : Nat) (f : Ctx → Ctx) (s : State) : State :=
  { s with stp := { s.stp with ctxs := putN c (f (ctxOf s c)) s.stp.ctxs } }

/-! ### Free values (log entry 3) -/

/-- The next free number, as an allocator chooses it. -/
def freshAddr (s : State) : Nat × State := (Config.freeAddr s.free, { s with free := s.free + 1 })

/-- The next `n` bytes of the random source. -/
def freshBytes (n : Nat) (s : State) : Bytes × State :=
  ((List.range n).map fun i => Config.randomByte (s.free + i), { s with free := s.free + n })

end Sys2Proof.Machine
end

