-- ==== Sys2Proof/Machine/ImageParse.lean ====
section
/-!
DEFINITION. Sys2Proof/Machine/ImageParse.lean: the layout of a Last image (R20 to R38), read from its bytes.
-/
namespace Sys2Proof.Machine
open Sys2Proof

/-- One entry of the section table (R21), with its place in the table. -/
structure SecEnt where
  pos  : Nat
  typ  : Nat
  inst : Nat
  ver  : Nat
  off  : Nat
  len  : Nat
deriving DecidableEq, Repr, Inhabited

/-- SECTION_COUNT (R20). -/
def imgSections (b : Bytes) : Nat := leAt b 10 2

/-- IMAGE_LENGTH (R20). -/
def imgLength (b : Bytes) : Nat := leAt b 16 4

/-- FLAGS[0]: a partial image (R20). -/
def imgPartial (b : Bytes) : Bool := bit (leAt b 9 1) 0

/-- The section table (R21). -/
def secTable (b : Bytes) : List SecEnt :=
  (List.range (imgSections b)).map fun i =>
    let e := slice b (128 + 16 * i) 16
    { pos := i, typ := leAt e 0 2, inst := leAt e 2 1, ver := leAt e 3 1, off := leAt e 4 4, len := leAt e 8 4 }

/-- The bytes of a section. -/
def secBytes (b : Bytes) (e : SecEnt) : Bytes := slice b e.off e.len

/-- ENTRY_COUNT of a section (R23). -/
def secCount (s : Bytes) : Nat := leAt s 0 4

/-- ENTRY_SIZE of a section (R23). -/
def secSize (s : Bytes) : Nat := leAt s 4 2

/-- The entries of a section (R23). -/
def secEntries (s : Bytes) : List Bytes := (List.range (secCount s)).map fun i => slice s (32 + secSize s * i) (secSize s)

/-- The bytes of the section of a type and instance number; none where the table lists none. -/
def findSec (b : Bytes) (typ inst : Nat) : Option Bytes :=
  ((secTable b).find? fun e => e.typ = typ && e.inst = inst).map (secBytes b)

/-- The entries of the section of a type and instance number. -/
def secList (b : Bytes) (typ inst : Nat) : List Bytes := ((findSec b typ inst).map secEntries).getD []

/-- A placement entry (R25). -/
def readPl (e : Bytes) : PlEntry :=
  { ctx := leAt e 0 1, part := leAt e 1 1, layer := leAt e 2 2, firstExpert := leAt e 4 2, experts := leAt e 6 2,
    mask := leAt e 8 8 % 2 ^ 48, kib := leAt e 16 4 }

/-- A CONTEXTS entry (R32, R148). -/
def readCtx (e : Bytes) : CtxCfg :=
  { id := leAt e 0 1, kvFormat := leAt e 1 1, stFormat := leAt e 2 1, experts := leAt e 3 1, layers := leAt e 4 2,
    maxPos := leAt e 8 4, digest := slice e 16 32, mode := leAt e 48 1, scoreLayer := leAt e 49 1, sink := leAt e 52 4,
    recent := leAt e 56 4, defBudget := leAt e 60 4, decay := BitVec.ofNat 32 (leAt e 64 4) }

/-- A TENANTS entry (R33). -/
def readTenant (e : Bytes) : Tenant :=
  { id := leAt e 0 2, ctxMask := leAt e 2 1 % 16, rights := leAt e 3 1 % 128, eventQp := leAt e 4 2 }

/-- A QUEUE_PAIRS entry (R34). -/
def readQpCfg (e : Bytes) : QpCfg :=
  { idx := leAt e 0 2, tenant := leAt e 2 2, topClass := leAt e 4 1, egress := leAt e 5 1, meter := leAt e 6 2 }

/-- A METERS entry (R37). -/
def readMeter (e : Bytes) : MeterCfg :=
  { cir := leAt e 0 4, cbs := leAt e 4 4, pir := leAt e 8 4, pbs := leAt e 12 4, yellow := leAt e 16 2,
    aware := bit (leAt e 18 1) 0 }

/-- A GATE_LIST section (R37). -/
def readGates (s : Bytes) : GateList :=
  { base := leAt s 8 8, cycle := leAt s 16 4, entries := (secEntries s).map fun e => (leAt e 0 4, leAt e 8 8) }

/-- An EGRESS_QUEUES entry (R37). -/
def readWeights (e : Bytes) : List Nat := (List.range 64).map fun q => leAt e (2 * q) 2

/-- A TOPOLOGY entry (R38). -/
def readTopo (e : Bytes) : Topology :=
  { kind := leAt e 0 1, dims := (List.range 4).map fun d => leAt e (1 + d) 1, node := leAt e 5 2 % 4096,
    coords := (List.range 4).map fun d => leAt e (7 + d) 1, nodeEpoch := leAt e 11 1,
    links := (List.range 32).map fun l => leAt e (32 + 2 * l) 2 % 32 }

/-- The sections of a type, by INSTANCE. -/
def secInsts (b : Bytes) (typ : Nat) : List (Nat × Bytes) :=
  ((secTable b).filter (·.typ = typ)).map fun e => (e.inst, secBytes b e)

/-- A checked image's content, measured by check 4 of R41 (R42). -/
def readImage (b : Bytes) : Image :=
  let st := (secList b 5 0).headD []
  let q := (secList b 9 0).headD []
  let h := (secList b 10 0).headD []
  { part := if imgPartial b then some (leAt b 20 1) else none
    sealAct := bit (leAt b 9 1) 1
    revision := leAt b 12 4
    build := leAt b 24 8
    measured := sha256 (b.take (imgLength b - 16224))
    numeric := slice b 48 32
    keyId := slice b 80 8
    raw := b
    primary := (secList b 1 0).map readPl
    tileLoss := (secInsts b 2).map fun p => (p.1, (secEntries p.2).map readPl)
    regionLoss := (secInsts b 3).map fun p => (p.1, (secEntries p.2).map readPl)
    banks := (secList b 4 0).map fun e => leAt e 0 2 % 4096
    log2 := leAt st 0 1
    tracker := bit (leAt st 1 1) 0
    pinnedMax := leAt st 4 4
    ctxs := (secList b 6 0).map readCtx
    tenants := (secList b 7 0).map readTenant
    qps := (secList b 8 0).map readQpCfg
    quotas := (List.range 6).map fun i => leAt q (4 * i) 4
    seeds := (List.range 4).map fun i => BitVec.ofNat 64 (leAt h (8 * i) 8)
    meters := (secList b 11 0).map readMeter
    gates := (secInsts b 12).map fun p => (p.1, readGates p.2)
    weights := (secInsts b 13).map fun p => (p.1, readWeights ((secEntries p.2).headD []))
    topo := readTopo ((secList b 14 0).headD []) }

/-- A placement with the entries of a fallback section in place of those of the same key (R27). -/
def fallback (primary repl : List PlEntry) : List PlEntry :=
  primary.map fun p =>
    (repl.find? fun r => r.ctx = p.ctx && r.part = p.part && r.layer = p.layer && r.firstExpert = p.firstExpert).getD p

/-- The placement of an image by kind (R47): 0 primary, 1 tile-loss, 2 region-loss. -/
def Image.placement (i : Image) (kind idx : Nat) : List PlEntry :=
  match kind with
  | 0 => i.primary
  | 1 => fallback i.primary (findD idx i.tileLoss [])
  | _ => fallback i.primary (findD idx i.regionLoss [])

/-- Weight KiB that a placement puts on a tile. -/
def tileKib (pl : List PlEntry) (t : Nat) : Nat := sumN ((pl.filter fun e => bit e.mask t).map (·.kib))

/-- The tiles that hold a part of a context. -/
def ctxTiles (pl : List PlEntry) (c : Nat) : List Nat :=
  (List.range 48).filter fun t => pl.any fun e => e.ctx = c && bit e.mask t

end Sys2Proof.Machine
end

