-- ==== Sys2Proof/Machine/Slh.lean ====
section
/-!
DEFINITION. Sys2Proof/Machine/Slh.lean: the two SLH-DSA parameter sets of R411, SHA2-128f and SHA2-192s of FIPS 205, with pure
signing under an empty context string. A tree is given by its leaves and its node hash; a verifier folds an authentication path.
-/
namespace Sys2Proof.Machine
open Sys2Proof

/-- A parameter set: hash bytes n, layers d, height of one layer, FORS tree height a and count k, and whether the wide hashes of
the higher security category are used. -/
structure Slh where
  n    : Nat
  d    : Nat
  hp   : Nat
  a    : Nat
  k    : Nat
  wide : Bool

/-- SLH-DSA-SHA2-128f. -/
def slh128f : Slh := { n := 16, d := 22, hp := 3, a := 6, k := 33, wide := false }

/-- SLH-DSA-SHA2-192s. -/
def slh192s : Slh := { n := 24, d := 7, hp := 9, a := 14, k := 17, wide := true }

/-- A hash address: layer, tree, type, and the three words that the type gives their meaning. -/
structure Adrs where
  layer : Nat := 0
  tree  : Nat := 0
  kind  : Nat := 0
  w1    : Nat := 0
  w2    : Nat := 0
  w3    : Nat := 0

/-- The compressed address: 22 bytes. -/
def Adrs.bytes (x : Adrs) : Bytes := be x.layer 1 ++ be x.tree 8 ++ be x.kind 1 ++ be x.w1 4 ++ be x.w2 4 ++ be x.w3 4

/-- The seed, filled to one block, and the address in front of every tweaked hash. -/
def Slh.front (p : Slh) (blk : Nat) (seed : Bytes) (x : Adrs) : Bytes := seed ++ zeros (blk - p.n) ++ x.bytes

/-- F and PRF: the tweaked hash of one n-byte string. -/
def Slh.f (p : Slh) (seed : Bytes) (x : Adrs) (m : Bytes) : Bytes := (sha256 (p.front 64 seed x ++ m)).take p.n

/-- H and T_l: the tweaked hash of longer strings. -/
def Slh.h (p : Slh) (seed : Bytes) (x : Adrs) (m : Bytes) : Bytes :=
  if p.wide then (sha512 (p.front 128 seed x ++ m)).take p.n else p.f seed x m

/-- The hash under PRF_msg and H_msg. -/
def Slh.hash (p : Slh) (m : Bytes) : Bytes := if p.wide then sha512 m else sha256 m

/-- PRF_msg. -/
def Slh.prfMsg (p : Slh) (key opt m : Bytes) : Bytes := (hmacOf p.hash (if p.wide then 128 else 64) key (opt ++ m)).take p.n

/-- MGF1: `len` bytes. -/
def Slh.mgf (p : Slh) (z : Bytes) (len : Nat) : Bytes :=
  ((List.range (ceilDiv len 32)).flatMap fun i => p.hash (z ++ be i 4)).take len

/-- The message digest split into its FORS part, the tree and the leaf (slh_sign, slh_verify of FIPS 205). -/
def Slh.digest (p : Slh) (r seed root m : Bytes) : Bytes × Nat × Nat :=
  let kb := ceilDiv (p.k * p.a) 8
  let tb := ceilDiv (p.hp * (p.d - 1)) 8
  let lb := ceilDiv p.hp 8
  let dg := p.mgf (r ++ seed ++ p.hash (r ++ seed ++ root ++ m)) (kb + tb + lb)
  (dg.take kb, beNat (slice dg kb tb) % 2 ^ (p.hp * (p.d - 1)), beNat (slice dg (kb + tb) lb) % 2 ^ p.hp)

/-- The first `len` groups of `w` bits of a byte string, from its highest bit on. -/
def bitGroups (b : Bytes) (w len : Nat) : List Nat :=
  let total := 8 * b.length
  (List.range len).map fun i => field (beNat b) (total - w * (i + 1)) w

/-! ### Merkle trees -/

/-- The node of height `z` and index `i` of a tree with the given leaves and node hash. -/
def treeNode (leaf : Nat → Bytes) (node : Nat → Nat → Bytes → Bytes) : Nat → Nat → Bytes
  | 0, i => leaf i
  | z + 1, i => node (z + 1) i (treeNode leaf node z (2 * i) ++ treeNode leaf node z (2 * i + 1))

/-- The authentication path of a leaf: the sibling at each height below `z`. -/
def authPath (leaf : Nat → Bytes) (node : Nat → Nat → Bytes → Bytes) (z i : Nat) : Bytes :=
  (List.range z).flatMap fun j => treeNode leaf node j ((i / 2 ^ j) ^^^ 1)

/-- The root that a leaf's value and its path give, from height `j` on. -/
def climb (n : Nat) (node : Nat → Nat → Bytes → Bytes) : Nat → Nat → Nat → Bytes → Bytes → Bytes
  | 0, _, _, _, v => v
  | z + 1, j, i, path, v =>
    let sib := path.take n
    climb n node z (j + 1) (i / 2) (path.drop n) (node (j + 1) (i / 2) (if i % 2 = 0 then v ++ sib else sib ++ v))

/-! ### WOTS+ -/

/-- `s` steps of a chain from step `i` on. -/
def Slh.chain (p : Slh) (seed : Bytes) (x : Adrs) : Nat → Nat → Bytes → Bytes
  | 0, _, v => v
  | s + 1, i, v => Slh.chain p seed x s (i + 1) (p.f seed { x with w3 := i } v)

/-- The chain lengths of a message: its nibbles and the three of their checksum. -/
def Slh.digits (p : Slh) (m : Bytes) : List Nat :=
  let ds := bitGroups m 4 (2 * p.n)
  ds ++ bitGroups (be (16 * sumN (ds.map (15 - ·))) 2) 4 3

/-- The secret start of a chain of a key pair. -/
def Slh.wotsSecret (p : Slh) (sk seed : Bytes) (x : Adrs) (kp i : Nat) : Bytes :=
  p.f seed { x with kind := 5, w1 := kp, w2 := i, w3 := 0 } sk

/-- The public key that the ends of its chains compress to. -/
def Slh.wotsKey (p : Slh) (seed : Bytes) (x : Adrs) (kp : Nat) (ends : Bytes) : Bytes :=
  p.h seed { x with kind := 1, w1 := kp, w2 := 0, w3 := 0 } ends

/-- The chains of a key pair: each from its start for the given number of steps. -/
def Slh.wotsSign (p : Slh) (sk seed : Bytes) (x : Adrs) (kp : Nat) (ds : List Nat) : Bytes :=
  ds.zipIdx.flatMap fun q => p.chain seed { x with kind := 0, w1 := kp, w2 := q.2 } q.1 0 (p.wotsSecret sk seed x kp q.2)

/-- The public key from a signature. -/
def Slh.wotsFromSig (p : Slh) (seed : Bytes) (x : Adrs) (kp : Nat) (ds : List Nat) (sig : Bytes) : Bytes :=
  p.wotsKey seed x kp (ds.zipIdx.flatMap fun q =>
    p.chain seed { x with kind := 0, w1 := kp, w2 := q.2 } (15 - q.1) q.1 (slice sig (p.n * q.2) p.n))

/-! ### XMSS and the hypertree -/

/-- A leaf of an XMSS tree: the WOTS+ public key of its key pair. -/
def Slh.leaf (p : Slh) (sk seed : Bytes) (x : Adrs) (i : Nat) : Bytes :=
  p.wotsKey seed x i (p.wotsSign sk seed x i (List.replicate (2 * p.n + 3) 15))

/-- The node hash of an XMSS tree. -/
def Slh.node (p : Slh) (seed : Bytes) (x : Adrs) (z i : Nat) (m : Bytes) : Bytes :=
  p.h seed { x with kind := 2, w1 := 0, w2 := z, w3 := i } m

/-- The root of an XMSS tree. -/
def Slh.root (p : Slh) (sk seed : Bytes) (x : Adrs) : Bytes := treeNode (p.leaf sk seed x) (p.node seed x) p.hp 0

/-- The signatures of the layers from `j` on, `m` of them: each signs the root of the one below. -/
def Slh.layers (p : Slh) (sk seed : Bytes) : Nat → Nat → Nat → Nat → Bytes → Bytes
  | 0, _, _, _, _ => []
  | m + 1, j, tree, leaf, msg =>
    let x : Adrs := { layer := j, tree := tree }
    p.wotsSign sk seed x leaf (p.digits msg) ++ authPath (p.leaf sk seed x) (p.node seed x) p.hp leaf ++
      Slh.layers p sk seed m (j + 1) (tree / 2 ^ p.hp) (tree % 2 ^ p.hp) (p.root sk seed x)

/-- The root that the signatures of the layers from `j` on give. -/
def Slh.ascend (p : Slh) (seed : Bytes) : Nat → Nat → Nat → Nat → Bytes → Bytes → Bytes
  | 0, _, _, _, _, msg => msg
  | m + 1, j, tree, leaf, sig, msg =>
    let x : Adrs := { layer := j, tree := tree }
    let w := p.n * (2 * p.n + 3)
    let key := p.wotsFromSig seed x leaf (p.digits msg) (sig.take w)
    let root := climb p.n (p.node seed x) p.hp 0 leaf (slice sig w (p.n * p.hp)) key
    Slh.ascend p seed m (j + 1) (tree / 2 ^ p.hp) (tree % 2 ^ p.hp) (sig.drop (w + p.n * p.hp)) root

/-! ### FORS -/

/-- A secret value of the FORS trees of a key pair. -/
def Slh.forsSecret (p : Slh) (sk seed : Bytes) (tree kp i : Nat) : Bytes :=
  p.f seed { tree := tree, kind := 6, w1 := kp, w3 := i } sk

/-- A leaf of the FORS trees from its secret value. -/
def Slh.forsLeaf (p : Slh) (seed : Bytes) (tree kp i : Nat) (v : Bytes) : Bytes :=
  p.f seed { tree := tree, kind := 3, w1 := kp, w3 := i } v

/-- The node hash of FORS tree `t`: its nodes of height z are numbered from t · 2^(a − z) on. -/
def Slh.forsNode (p : Slh) (seed : Bytes) (tree kp t z i : Nat) (m : Bytes) : Bytes :=
  p.h seed { tree := tree, kind := 3, w1 := kp, w2 := z, w3 := t * 2 ^ (p.a - z) + i } m

/-- The public key that the roots of the FORS trees compress to. -/
def Slh.forsKey (p : Slh) (seed : Bytes) (tree kp : Nat) (roots : Bytes) : Bytes :=
  p.h seed { tree := tree, kind := 4, w1 := kp } roots

/-- The FORS signature of a digest. -/
def Slh.forsSign (p : Slh) (sk seed : Bytes) (tree kp : Nat) (md : Bytes) : Bytes :=
  (bitGroups md p.a p.k).zipIdx.flatMap fun q =>
    let secret (i : Nat) : Bytes := p.forsSecret sk seed tree kp (q.2 * 2 ^ p.a + i)
    let leaf (i : Nat) : Bytes := p.forsLeaf seed tree kp (q.2 * 2 ^ p.a + i) (secret i)
    secret q.1 ++ authPath leaf (p.forsNode seed tree kp q.2) p.a q.1

/-- The FORS public key from a signature. -/
def Slh.forsFromSig (p : Slh) (seed : Bytes) (tree kp : Nat) (md sig : Bytes) : Bytes :=
  p.forsKey seed tree kp ((bitGroups md p.a p.k).zipIdx.flatMap fun q =>
    let one := slice sig (p.n * (p.a + 1) * q.2) (p.n * (p.a + 1))
    climb p.n (p.forsNode seed tree kp q.2) p.a 0 q.1 (one.drop p.n)
      (p.forsLeaf seed tree kp (q.2 * 2 ^ p.a + q.1) (one.take p.n)))

/-! ### Keys, signing, verification -/

/-- The bytes that pure signing with an empty context string signs. -/
def pureMessage (m : Bytes) : Bytes := [0x00, 0x00] ++ m

/-- The root of the top layer. -/
def Slh.publicRoot (p : Slh) (sk seed : Bytes) : Bytes := p.root sk seed { layer := p.d - 1 }

/-- The public key of SLH-DSA-SHA2-128f from SK.seed and PK.seed: PK.seed and PK.root. -/
def slhPublic128f (sk seed : Bytes) : Bytes := seed ++ slh128f.publicRoot sk seed

/-- A signature with SK.seed, SK.prf and PK.seed over a message, hedged by opt_rand. -/
def Slh.sign (p : Slh) (sk prf seed m opt : Bytes) : Bytes :=
  let m := pureMessage m
  let r := p.prfMsg prf opt m
  let (md, tree, leaf) := p.digest r seed (p.publicRoot sk seed) m
  let fors := p.forsSign sk seed tree leaf md
  r ++ fors ++ p.layers sk seed p.d 0 tree leaf (p.forsFromSig seed tree leaf md fors)

/-- Whether a signature over a message verifies under a public key. -/
def Slh.verify (p : Slh) (key m sig : Bytes) : Bool :=
  let seed := key.take p.n
  let root := key.drop p.n
  let fl := p.n * p.k * (p.a + 1)
  let r := sig.take p.n
  let (md, tree, leaf) := p.digest r seed root (pureMessage m)
  let pk := p.forsFromSig seed tree leaf md (slice sig p.n fl)
  key.length = 2 * p.n && sig.length = p.n * (1 + p.k * (p.a + 1) + p.d * (2 * p.n + 3 + p.hp)) &&
    p.ascend seed p.d 0 tree leaf (sig.drop (p.n + fl)) pk = root

/-- SLH-DSA-SHA2-192s verification: public key, message, signature. -/
def slhVerify192s (key m sig : Bytes) : Bool := slh192s.verify key m sig

end Sys2Proof.Machine
end

