-- ==== Sys2Proof/Machine/ImageCheck.lean ====
section
/-!
DEFINITION. Sys2Proof/Machine/ImageCheck.lean: the sixteen ordered checks of a staged image (R41), each of which
answers the result code, the section table index and the detail of its first failure (R48).
-/
namespace Sys2Proof.Machine
open Sys2Proof

/-- A failure: result code, section table index (0x3FF none), detail. -/
abbrev Fail := Nat × Nat × Nat

/-- No failure where the condition holds. -/
def need (ok : Bool) (code sec detail : Nat) : Option Fail := if ok then none else some (code, sec, detail)

/-- The first failure of a list of checks. -/
def firstFail : List (Option Fail) → Option Fail
  | [] => none
  | none :: l => firstFail l
  | some f :: _ => some f

/-- The first failure among numbered items. -/
def eachFail {α : Type} (f : Nat → α → Option Fail) : Nat → List α → Option Fail
  | _, [] => none
  | i, x :: l => match f i x with
    | some e => some e
    | none => eachFail f (i + 1) l

/-- Entry size, least and greatest ENTRY_COUNT and greatest INSTANCE of a section type (R24); a partial image's
BANK_OWNERSHIP has 384 entries (R46). -/
def secRule (part : Bool) (typ : Nat) : Option (Nat × Nat × Nat × Nat) :=
  match typ with
  | 1 => some (32, 1, 16384, 0)
  | 2 => some (32, 0, 16384, 47)
  | 3 => some (32, 0, 16384, 7)
  | 4 => if part then some (2, 384, 384, 0) else some (2, 3072, 3072, 0)
  | 5 => some (32, 1, 1, 0)
  | 6 => some (128, 1, 4, 0)
  | 7 => some (16, 1, 4096, 0)
  | 8 => some (16, 1, 16384, 0)
  | 9 => some (64, 1, 1, 0)
  | 10 => some (32, 1, 1, 0)
  | 11 => some (32, 1, 4096, 0)
  | 12 => some (16, 1, 256, 32)
  | 13 => some (128, 1, 1, 32)
  | 14 => some (96, 1, 1, 0)
  | _ => none

/-- Check 7: R21, R22, R23 and the ranges of R24. Only GATE_LIST uses a parameter; every other section has zero in PARAM0 and PARAM1
(R23). A section of a reserved TYPE (0x0000, and 0x000F upward) fails with 0x08: R24 reserves these types and says nothing of an image
that carries one (DESIGN CHOICE, log entry 127). -/
def checkTable (b : Bytes) : Option Fail :=
  let sigAt := imgLength b - 16224
  let ents := secTable b
  let endOf (l : List SecEnt) : Nat := match l.getLast? with | some e => e.off + e.len | none => 128 + 16 * ents.length
  let entry (i : Nat) (e : SecEnt) : Option Fail :=
    let before := ents.take i
    let s := secBytes b e
    let ordered := match before.getLast? with
      | none => true
      | some p => p.typ < e.typ || (p.typ = e.typ && p.inst < e.inst)
    let from_ := endOf before
    let fits := e.off % 64 = 0 && from_ ≤ e.off && e.len ≥ 32 && e.off + e.len ≤ sigAt
    let gap := (slice b from_ (e.off - from_)).all (· = 0)
    match secRule (imgPartial b) e.typ with
    | none => some (8, i, e.typ)
    | some (size, lo, hi, imax) =>
      firstFail [need ordered 8 i 0, need fits 8 i 0, need gap 8 i 0, need (e.inst ≤ imax) 8 i e.inst,
        need (size ≤ secSize s && lo ≤ secCount s && secCount s ≤ hi) 8 i 0,
        need (e.len = 32 + secCount s * secSize s) 8 i 0, need (e.typ = 12 || leAt s 8 16 = 0) 8 i 0]
  firstFail [need (1 ≤ ents.length && ents.length ≤ 512) 8 0x3FF 0, need (sigAt % 64 = 0) 8 0x3FF 0,
    eachFail entry 0 ents, need ((slice b (endOf ents) (sigAt - endOf ents)).all (· = 0)) 8 0x3FF 0]

/-- The place of a section in the table; 0x3FF where it is absent. -/
def secPos (b : Bytes) (typ inst : Nat) : Nat :=
  (((secTable b).find? fun e => e.typ = typ && e.inst = inst).map (·.pos)).getD 0x3FF

/-- USE of a BANK_OWNERSHIP entry (R29). -/
def bankUse (e : Nat) : Nat := field e 9 3

/-- Check 9, full image: required sections (R24). -/
def checkPresent (b : Bytes) : Option Fail :=
  let has (typ inst : Nat) : Bool := (secTable b).any fun e => e.typ = typ && e.inst = inst
  firstFail ((([1, 4, 5, 6, 7, 8, 9, 10, 14] : List Nat).map fun t => need (has t 0) 0x0A 0x3FF t) ++
    (List.range 48).map fun t => need (has 2 t) 0x0A 0x3FF t)

/-- What R46 takes a bank to be used for now: a lent bank for what it was lent from. -/
def Bank.useNow (b : Bank) : Nat := if b.lent then b.home else b.use

/-- Check 9, partial image (R46): only one region's banks and link shaping; every bank whose entry changes has USE 0,
3 or 4 now. A reserve bank that is lent counts as USE 4: R46 has it emptied by spill first; one that a fallback has claimed has USE 1.
A partial image without a BANK_OWNERSHIP section passes: R46 lists the sections it may hold and says of none that it must (DESIGN
CHOICE, log entry 128). -/
def checkPartial (s : State) (b : Bytes) : Option Fail :=
  let r := leAt b 20 1
  let link (i : Nat) : Bool := 4 * r + 1 ≤ i && i ≤ 4 * r + 4
  let bankFail (i : Nat) (e : Bytes) : Option Fail :=
    let k := 384 * r + i
    let cur := findD k s.mem.banks {}
    let v := leAt e 0 2 % 4096
    let same := field v 0 7 = cur.owner && field v 7 2 = cur.homeCtx && bankUse v = cur.home
    need (same || cur.useNow = 0 || cur.useNow = 3 || cur.useNow = 4) 0x15 (secPos b 4 0) i
  firstFail ([need (s.img.active.isSome) 0x15 0x3FF 0, need (r < 8) 0x15 0x3FF r] ++
    (secTable b).map (fun e => need (e.typ = 4 || ((e.typ = 12 || e.typ = 13) && link e.inst)) 0x15 e.pos e.inst) ++
    [eachFail bankFail 0 (secList b 4 0)])

/-- Check 10, full image: CONTEXTS entries, then digest and revision (R32, R39). -/
def checkContexts (s : State) (b : Bytes) : Option Fail :=
  let p := secPos b 6 0
  let cs := (secList b 6 0).map readCtx
  let entry (i : Nat) (c : CtxCfg) : Option Fail :=
    let asc := match (cs.take i).getLast? with | none => true | some x => x.id < c.id
    need (asc && c.id ≤ 3 && 1 ≤ c.kvFormat && c.kvFormat ≤ 6 && c.stFormat = 1 && 1 ≤ c.layers &&
      c.maxPos % 128 = 0 && 128 ≤ c.maxPos && c.maxPos ≤ 1048576) 0x18 p i
  let num := slice b 48 32
  let r39 := match s.img.active with
    | none => true
    | some a => (a.revision = leAt b 12 4) == (a.numeric = num)
  firstFail [eachFail entry 0 cs, need (sha256 ((findSec b 6 0).getD []) = num) 0x0B p 0, need r39 0x0B p 0]

/-- Check 10, partial image (R46). -/
def checkSameRevision (s : State) (b : Bytes) : Option Fail :=
  match s.img.active with
  | none => some (0x0B, 0x3FF, 0)
  | some a => need (a.revision = leAt b 12 4 && a.numeric = slice b 48 32) 0x0B 0x3FF 0

/-- Whether expert groups cover experts 0 to E − 1 once each. -/
def expertsCover (n : Nat) (gs : List PlEntry) : Bool :=
  (List.range n).all (fun x => (gs.filter fun g => g.firstExpert ≤ x && x < g.firstExpert + g.experts).length = 1) &&
  gs.all fun g => 1 ≤ g.experts && g.firstExpert + g.experts ≤ n

/-- Check 11: R26 on the primary placement, R27 on every fallback. -/
def checkPlacement (b : Bytes) : Option Fail :=
  let img := readImage b
  let p := secPos b 1 0
  let keyed (e : PlEntry) : Bool :=
    match img.ctxs.find? (·.id = e.ctx) with
    | none => false
    | some c =>
      match e.part with
      | 0 | 1 | 2 => e.layer < c.layers && e.firstExpert = 0 && e.experts = 0
      | 3 => e.layer < c.layers && 1 ≤ e.experts
      | 4 | 5 => e.layer = 0 && e.firstExpert = 0 && e.experts = 0
      | _ => false
  let ctx (_ : Nat) (c : CtxCfg) : Option Fail :=
    let es := img.primary.filter (·.ctx = c.id)
    let count (q l : Nat) : Nat := (es.filter fun e => e.part = q && e.layer = l).length
    let layer (l : Nat) : Bool :=
      let gs := es.filter fun e => e.part = 3 && e.layer = l
      count 0 l + count 1 l = 1 && count 2 l = 1 && (gs.isEmpty || expertsCover c.experts gs)
    need (count 4 0 = 1 && count 5 0 = 1 && (List.range c.layers).all layer) 0x0C p c.id
  let loss (typ inst : Nat) (bad : Nat) (repl : List PlEntry) : Option Fail :=
    let q := secPos b typ inst
    let known (i : Nat) (e : PlEntry) : Option Fail :=
      need (img.primary.any fun x => x.ctx = e.ctx && x.part = e.part && x.layer = e.layer && x.firstExpert = e.firstExpert) 0x0D q i
    firstFail [eachFail known 0 repl, need ((fallback img.primary repl).all fun e => e.mask &&& bad = 0) 0x0D q inst]
  firstFail ([eachFail (fun i e => need (keyed e) 0x0C p i) 0 img.primary, eachFail ctx 0 img.ctxs] ++
    img.tileLoss.map (fun t => loss 2 t.1 (2 ^ t.1) t.2) ++
    img.regionLoss.map (fun r => loss 3 r.1 (63 * 2 ^ (6 * r.1)) r.2))

/-- R29 on one BANK_OWNERSHIP entry. -/
def bankEntryOk (ctxs : List CtxCfg) (e : Nat) : Bool :=
  let u := bankUse e
  let owner := field e 0 7
  u ≤ 5 && (if u = 0 || u = 4 || u = 5 then owner = 0x7F else owner ≤ 73) &&
  (if u = 1 || u = 2 || u = 4 then ctxs.any (·.id = field e 7 2) else true)

/-- R30 for a bank map, contexts and placements. -/
def checkCapacity (img : Image) (banks : List Nat) (sec : Nat) : Option Fail :=
  let useIn (t u : Nat) (c : Option Nat) : Nat :=
    ((slice' banks (64 * t) 64).filter fun e => bankUse e = u && (match c with | some c => field e 7 2 = c | none => true)).length
  let total := sumN (img.primary.map fun e => e.kib * popcount e.mask 48)
  let fb (pl : List PlEntry) (t : Nat) : Option Fail :=
    let added (c : Nat) : Nat := tileKib (pl.filter (·.ctx = c)) t - tileKib (img.primary.filter (·.ctx = c)) t
    need (img.ctxs.all fun c => added c.id ≤ 32768 * useIn t 4 (some c.id)) 0x0E sec t
  firstFail ((List.range 48).map (fun t => need (tileKib img.primary t ≤ 32768 * useIn t 1 none) 0x0E sec t) ++
    [need (total ≤ 64 * 2 ^ 20) 0x0E sec 0] ++
    (img.tileLoss.map fun l => firstFail ((List.range 48).map (fb (fallback img.primary l.2)))) ++
    (img.regionLoss.map fun l => firstFail ((List.range 48).map (fb (fallback img.primary l.2)))))
where
  /-- A run of a list. -/
  slice' (l : List Nat) (o k : Nat) : List Nat := (l.drop o).take k

/-- The bank map in force, as BANK_OWNERSHIP entries; a lent bank stands as what it returns to. -/
def bankMap (s : State) : List Nat :=
  (List.range 3072).map fun k => let b := findD k s.mem.banks {}; b.owner + b.homeCtx * 128 + b.home * 512

/-- Check 12: R29, then R30. -/
def checkBanks (s : State) (b : Bytes) : Option Fail :=
  let img := readImage b
  let p := secPos b 4 0
  match img.part with
  | none =>
    let fives := (List.range 3072).filter fun i => bankUse (img.banks.getD i 0) = 5
    let two := match fives with
      | [x, y] => x / 384 ≠ y / 384
      | _ => false
    firstFail [eachFail (fun i e => need (bankEntryOk img.ctxs e) 0x0F p i) 0 img.banks, need two 0x0F p 0,
      checkCapacity img img.banks p]
  | some r =>
    match s.img.active with
    | none => none
    | some a =>
      if img.banks.isEmpty then none
      else
        let cur := bankMap s
        let merged := cur.take (384 * r) ++ img.banks ++ cur.drop (384 * r + 384)
        firstFail [eachFail (fun i e => need (bankEntryOk a.ctxs e) 0x0F p i) 0 img.banks, checkCapacity a merged p]

/-- Check 13: R35, R33 and R34. -/
def checkBindings (b : Bytes) : Option Fail :=
  let img := readImage b
  let tp := secPos b 7 0
  let qp := secPos b 8 0
  let ten (i : Nat) (t : Tenant) : Option Fail :=
    need (t.eventQp = 0xFFFF || img.qps.any fun q => q.idx = t.eventQp && q.tenant = t.id) 0x11 tp i
  let pair (i : Nat) (q : QpCfg) : Option Fail :=
    need (q.idx ≤ 16383 && !((img.qps.take i).any (·.idx = q.idx)) && img.tenants.any (·.id = q.tenant) &&
      q.topClass ≤ 3 && q.egress ≤ 63 && (q.meter = 0xFFFF || q.meter < img.meters.length)) 0x11 qp i
  firstFail [need (sumN img.quotas ≤ 65536) 0x10 (secPos b 9 0) 0, eachFail ten 0 img.tenants, eachFail pair 0 img.qps]

/-- Check 14: R37. -/
def checkShaping (b : Bytes) : Option Fail :=
  let img := readImage b
  let gate (g : Nat × GateList) : Option Fail :=
    let ok := 1000 ≤ g.2.cycle && g.2.cycle ≤ 1000000000 && g.2.entries.all (fun e => 1 ≤ e.1) &&
      sumN (g.2.entries.map (·.1)) = g.2.cycle
    need ok 0x12 (secPos b 12 g.1) g.1
  firstFail (([eachFail (fun i (m : MeterCfg) => need (m.cir ≤ m.pir) 0x12 (secPos b 11 0) i) 0 img.meters] ++
    img.gates.map gate) ++ img.weights.map fun w => need (w.2.all fun x => 1 ≤ x) 0x12 (secPos b 13 w.1) w.1)

/-- Check 15: R38. A link's direction lies in a dimension that KIND uses, and each coordinate is below its DIMS: R38 states neither bound
(log entry 31). -/
def checkTopology (b : Bytes) : Option Fail :=
  let t := (readImage b).topo
  let d (i : Nat) : Nat := t.dims.getD i 0
  let used (i : Nat) : Bool :=
    match t.kind with
    | 0 => d i = 1
    | 1 => if i = 0 then 2 ≤ d 0 && d 0 ≤ 64 else d i = 1
    | k => if i < k then 2 ≤ d i && d i ≤ 8 else d i = 1
  let ok := t.kind ≤ 4 && (List.range 4).all (fun i => used i && t.coords.getD i 0 < d i)
  let link (i l : Nat) : Option Fail := need (l % 16 ≤ 2 * t.kind) 0x13 (secPos b 14 0) (i + 1)
  firstFail [need ok 0x13 (secPos b 14 0) 0, eachFail link 0 t.links]

/-- The entries a table of an image's size holds (R31, R69). -/
def tableSize (log2 : Nat) : Nat := if log2 = 0 then 4096 else 2 ^ log2

/-- Check 16: R31 and the occupancy of R43. -/
def checkTableSize (s : State) (b : Bytes) : Option Fail :=
  let l := (readImage b).log2
  let ok := (l = 0 || (16 ≤ l && l ≤ 21)) &&
    s.ses.table.all fun p => p.1 < tableSize l || p.2.e.state = .free || p.2.e.state = .ash
  need ok 0x14 (secPos b 5 0) l

/-- The digest the image must have: SEC_IMG_EXPECT, or the store's for an image from NOR (R41, R44). -/
def expectDigest (s : State) : Bytes :=
  if s.img.fromNor then s.img.expectNor
  else le s.regs.imgExpect0.toNat 8 ++ le s.regs.imgExpect1.toNat 8 ++ le s.regs.imgExpect2.toNat 8 ++ le s.regs.imgExpect3.toNat 8

/-- The owner keys that count as enrolled: none without an identity (R403). -/
def enrolledKeys (s : State) : List (Nat × Bytes) := if s.sec.identity then s.rom.keys else []

/-- The enrolled owner key whose digest begins with the given eight bytes. -/
def ownerKey? (s : State) (id : Bytes) : Option Bytes := ((enrolledKeys s).find? fun k => (sha256 k.2).take 8 = id).map (·.2)

/-- The sixteen checks in order (R41, R42): none where all pass. -/
def checkImage (s : State) (b : Bytes) : Option Fail :=
  let n := imgLength b
  let head := firstFail [
    need (leAt b 0 8 = 0x474D495453414C59) 0x02 0x3FF 0,
    need (versionOk (leAt b 8 1)) 0x03 0x3FF 0,
    need (n = s.img.staged && n ≤ 16777216 && 128 + 16 * imgSections b + 16224 ≤ n) 0x04 0x3FF 0]
  match head with
  | some f => some f
  | none =>
    let msg := b.take (n - 16224)
    if sha256 msg ≠ expectDigest s then some (0x06, 0x3FF, 0)
    else
      match ownerKey? s (slice b 80 8) with
      | none => some (0x05, 0x3FF, 0)
      | some key =>
        if slhVerify192s key msg (slice b (n - 16224) 16224) = false then some (0x07, 0x3FF, 0)
        else
          match checkTable b with
          | some f => some f
          | none =>
            let ver := firstFail ((secTable b).map fun e => need (versionOk e.ver) 0x09 e.pos e.ver)
            if imgPartial b then firstFail [ver, checkPartial s b, checkSameRevision s b, checkBanks s b, checkShaping b]
            else firstFail [ver, checkPresent b, checkContexts s b, checkPlacement b, checkBanks s b, checkBindings b,
              checkShaping b, checkTopology b, checkTableSize s b]

end Sys2Proof.Machine
end

