-- ==== Sys2Proof/Machine/Cipher.lean ====
section
/-!
DEFINITION. Sys2Proof/Machine/Cipher.lean: the modes of AES-256 that the spec names by their standards: XTS of IEEE 1619 (R189),
GCM of NIST SP 800-38D (R302, R306) and key wrap of NIST SP 800-38F (R402).
-/
namespace Sys2Proof.Machine
open Sys2Proof

/-! ### The AES inverse cipher -/

/-- The inverse S-box. -/
def sboxInv (b : Byte) : Byte := ginv (b.rotateLeft 1 ^^^ b.rotateLeft 3 ^^^ b.rotateLeft 6 ^^^ 0x05)

/-- The inverse of ShiftRows. -/
def shiftRowsInv (s : Bytes) : Bytes := (List.range 16).map fun i => s.getD ((i + 12 * (i % 4)) % 16) 0

/-- The inverse of MixColumns on one column: byte `i` is the sum of each byte `j` by the coefficient that their distance gives. -/
def mixColInv (c : Bytes) : Bytes :=
  (List.range 4).map fun i => (List.range 4).foldl (fun x j =>
    x ^^^ gmul (c.getD j 0) (([0x0E, 0x0B, 0x0D, 0x09] : Bytes).getD ((j + 4 - i) % 4) 0)) 0

/-- The inverse of MixColumns. -/
def mixColsInv (s : Bytes) : Bytes := (List.range 4).flatMap fun i => mixColInv (slice s (4 * i) 4)

/-- The inverse rounds, one for each key; the last has no MixColumns. -/
def aesUnround : List Bytes → Bytes → Bytes
  | [], s => s
  | k :: ks, s =>
    let s := xorB ((shiftRowsInv s).map sboxInv) k
    aesUnround ks (if ks.isEmpty then s else mixColsInv s)

/-- The inverse cipher of one block under a key schedule. -/
def aesInvWith (ks : List Bytes) (blk : Bytes) : Bytes :=
  match ks.reverse with
  | [] => blk
  | k :: ks => aesUnround ks (xorB (fit blk 16) k)

/-! ### XTS -/

/-- The next block's tweak: a multiplication by x of the 128 bits, least significant byte first. -/
def xtsNext (t : Nat) : Nat := (2 * t) % 2 ^ 128 ^^^ (if t ≥ 2 ^ 127 then 0x87 else 0)

/-- Run a block cipher over `n` blocks, each between two additions of its tweak. -/
def xtsBlocks (f : Bytes → Bytes) : Nat → Nat → Bytes → Bytes
  | 0, _, _ => []
  | n + 1, t, b => xorB (f (xorB (fit (b.take 16) 16) (le t 16))) (le t 16) ++ xtsBlocks f n (xtsNext t) (b.drop 16)

/-- The first tweak of a data unit: its number, encrypted under the second half of the key. -/
def xtsTweak (key : Bytes) (unit : Nat) : Nat := leNat (aes256 (slice key 32 32) (le unit 16))

/-- AES-256-XTS encryption of a data unit of whole blocks under Key1 ‖ Key2. -/
def xtsEncrypt (key : Bytes) (unit : Nat) (b : Bytes) : Bytes :=
  xtsBlocks (aesWith (aesKeys (fit key 32))) (ceilDiv b.length 16) (xtsTweak key unit) b

/-- Its inverse. -/
def xtsDecrypt (key : Bytes) (unit : Nat) (b : Bytes) : Bytes :=
  xtsBlocks (aesInvWith (aesKeys (fit key 32))) (ceilDiv b.length 16) (xtsTweak key unit) b

/-! ### GCM -/

/-- Multiplication in GF(2^128) with the first bit highest: `n` bits of `x` from bit n − 1 down. -/
def gf128 (x : Nat) : Nat → Nat → Nat → Nat
  | 0, _, z => z
  | n + 1, v, z =>
    gf128 x n (v / 2 ^^^ (if v % 2 = 1 then 0xE1 * 2 ^ 120 else 0)) (if bit x n then z ^^^ v else z)

/-- GHASH under the hash subkey `h`. -/
def ghash (h : Nat) (b : Bytes) : Nat :=
  (List.range (ceilDiv b.length 16)).foldl (fun y i => gf128 (y ^^^ beNat (fit (slice b (16 * i) 16) 16)) 128 h 0) 0

/-- The key stream from counter `c` on, for `n` blocks. -/
def gcmStream (ks : List Bytes) (nonce : Bytes) (c n : Nat) : Bytes :=
  (List.range n).flatMap fun i => aesWith ks (nonce ++ be (c + i) 4)

/-- The 16-byte tag of a ciphertext and its additional data. -/
def gcmTag (ks : List Bytes) (nonce aad ct : Bytes) : Bytes :=
  let h := beNat (aesWith ks (zeros 16))
  let g := ghash h (padTo aad 16 ++ padTo ct 16 ++ be (8 * aad.length) 8 ++ be (8 * ct.length) 8)
  xorB (be g 16) (gcmStream ks nonce 1 1)

/-- AES-256-GCM with a 96-bit nonce: ciphertext and tag. -/
def gcmSeal (key nonce aad pt : Bytes) : Bytes :=
  let ks := aesKeys (fit key 32)
  let ct := xorB pt (gcmStream ks nonce 2 (ceilDiv pt.length 16))
  ct ++ gcmTag ks nonce aad ct

/-- Opening: the plaintext where the tag, the last 16 bytes, holds. -/
def gcmOpen (key nonce aad b : Bytes) : Option Bytes :=
  let ks := aesKeys (fit key 32)
  let ct := b.take (b.length - 16)
  if gcmTag ks nonce aad ct = b.drop (b.length - 16) then some (xorB ct (gcmStream ks nonce 2 (ceilDiv ct.length 16)))
  else none

/-! ### Key wrap -/

/-- The steps of wrapping from step `t` on, `m` of them: the integrity word, and the semiblocks. -/
def wrapSteps (ks : List Bytes) : Nat → Nat → Bytes × List Bytes → Bytes × List Bytes
  | 0, _, x => x
  | m + 1, t, (a, r) =>
    let i := (t - 1) % max r.length 1
    let b := aesWith ks (a ++ r.getD i [])
    wrapSteps ks m (t + 1) (xorB (b.take 8) (be t 8), r.set i (b.drop 8))

/-- The steps of unwrapping, from step `m` down to step 1. -/
def unwrapSteps (ks : List Bytes) : Nat → Bytes × List Bytes → Bytes × List Bytes
  | 0, x => x
  | m + 1, (a, r) =>
    let i := m % max r.length 1
    let b := aesInvWith ks (xorB a (be (m + 1) 8) ++ r.getD i [])
    unwrapSteps ks m (b.take 8, r.set i (b.drop 8))

/-- The semiblocks of a byte string. -/
def semiblocks (b : Bytes) : List Bytes := (List.range (b.length / 8)).map fun i => slice b (8 * i) 8

/-- AES-256 key wrap (KW). -/
def keyWrap (key p : Bytes) : Bytes :=
  let r := semiblocks p
  let x := wrapSteps (aesKeys (fit key 32)) (6 * r.length) 1 (List.replicate 8 0xA6, r)
  x.1 ++ x.2.flatten

/-- Its inverse; none where the integrity check fails. -/
def keyUnwrap (key c : Bytes) : Option Bytes :=
  let r := semiblocks (c.drop 8)
  let x := unwrapSteps (aesKeys (fit key 32)) (6 * r.length) (c.take 8, r)
  if x.1 = List.replicate 8 0xA6 then some x.2.flatten else none

end Sys2Proof.Machine
end

