-- ==== Sys2Proof/Machine/Keys.lean ====
section
/-!
DEFINITION. Sys2Proof/Machine/Keys.lean: the module's identity and the keys derived from its secrets (R402, R407).
-/
namespace Sys2Proof.Machine
open Sys2Proof

/-- K_PUF: 256 bits. -/
def kPuf : Bytes := (List.range 32).map Config.kPuf

/-- K_WRAP (R402). -/
def kWrap : Bytes := kdf kPuf (ascii "YWRAP") 32

/-- K_LOCAL (R402). -/
def kLocal : Bytes := kdf kPuf (ascii "YLOCAL") 32

/-- SK.seed, SK.prf and PK.seed of the identity (R402). -/
def idSeeds : Bytes × Bytes × Bytes :=
  (kdf kPuf (ascii "YID-SK-SEED") 16, kdf kPuf (ascii "YID-SK-PRF") 16, kdf kPuf (ascii "YID-PK-SEED") 16)

/-- The identity public key: 32 bytes. -/
def idPublic : Bytes := slhPublic128f idSeeds.1 idSeeds.2.2

/-- IDENTITY_ID. -/
def identityId (s : State) : Bytes := (sha256 s.sec.pubkey).take 8

/-- A signature of 17,088 bytes under the identity key, hedged with fresh random bytes (R411). -/
def idSign (msg : Bytes) (s : State) : Bytes × State :=
  let (r, s) := freshBytes 16 s
  (slh128f.sign idSeeds.1 idSeeds.2.1 idSeeds.2.2 msg r, s)

/-- The deployment secret, where one is enrolled. -/
def dsk? (s : State) : Option Bytes := if s.sec.identity then s.rom.secret.bind (keyUnwrap kWrap) else none

/-- The input key of the storage keys (R407). -/
def storeIkm (s : State) : Bytes := (dsk? s).getD kLocal

/-- The key of a context by its WEIGHTS_DIGEST. -/
def digestKey (s : State) (d : Bytes) : Bytes := kdf (storeIkm s) (ascii "YCTX" ++ fit d 32) 64

/-- The key of a context of the active image. -/
def contextKey (s : State) (c : Nat) : Bytes := digestKey s (((ctxCfg? s c).map (·.digest)).getD [])

/-- A tenant's storage key. -/
def tenantKey (s : State) (t : Nat) : Bytes := kdf (storeIkm s) (ascii "YTEN" ++ le t 2) 64

/-- The local key. -/
def localKey : Bytes := kdf kLocal (ascii "YMOD") 64

/-- A tenant's checkpoint key. -/
def ckpKey (s : State) (t : Nat) : Bytes := kdf (storeIkm s) (ascii "YCKP" ++ le t 2) 64

/-- The link base key, where a deployment secret is enrolled. -/
def linkBase? (s : State) : Option Bytes := (dsk? s).map fun k => kdf k (ascii "YLINK") 32

/-- Encrypt a byte string under AES-256-XTS with data units of 64 KiB from an address on (R189). -/
def xtsUnits (enc : Bytes → Nat → Bytes → Bytes) (key : Bytes) (addr : Nat) (b : Bytes) : Bytes :=
  (List.range (ceilDiv b.length 65536)).flatMap fun i => enc key (addr / 65536 + i) (slice b (65536 * i) 65536)

end Sys2Proof.Machine
end

