-- ==== Sys2Proof/Machine/LimCore.lean ====
section
/-!
DEFINITION. Sys2Proof/Machine/LimCore.lean: the histograms of R292 and the measurement of turns (R477, R478).
-/
namespace Sys2Proof.Machine
open Sys2Proof

/-- The bin of a value (R292): 0 for 0, k for 2^(k−1) ≤ v < 2^k, 15 from 2^14 on. -/
def binOf (v : Nat) : Nat := if v = 0 then 0 else min 15 (Nat.log2 v + 1)

/-- Sixteen empty bins. -/
def emptyBins : List Nat := List.replicate 16 0

/-- Count a value in a histogram of saturating 32-bit bins. -/
def countBin (v : Nat) (h : List Nat) : List Nat := h.modify (binOf v) fun n => sat (n + 1) 32

/-- LIM_CFG.ENABLE (R480). -/
def limOn (s : State) : Bool := bit s.regs.limCfg.toNat 9

/-- Whether turns of a class are measured (R478). -/
def classMeasured (s : State) (c : Nat) : Bool := limOn s && bit (wfield s.regs.limCfg 0 4) c

/-- Add a value to a term's histogram. -/
def addTerm (i ns : Nat) (s : State) : State :=
  let v := ns / 2 ^ wfield s.regs.limCfg 4 5
  { s with lim := { s.lim with hist := putN i (countBin v (findD i s.lim.hist emptyBins)) s.lim.hist } }

/-- A turn with no token record written, or forwarded here, counts as unmeasured (R478). -/
def unmeasured (c : Nat) (s : State) : State :=
  if classMeasured s c then { s with lim := { s.lim with unmeasured := sat (s.lim.unmeasured + 1) 32 } } else s

/-- A turn whose last token record has left is measured (R477, R478). -/
def measureTurn (t : Turn) (s : State) : State :=
  match t.tFirst with
  | none => unmeasured t.cls s
  | some first =>
    if t.forwarder.isSome then unmeasured t.cls s
    else if classMeasured s t.cls then
      let ready := t.tReady.getD t.tAdm
      let grant := t.tGrant.getD ready
      let s := addTerm 0 (t.tParse - t.tArr) s
      let s := addTerm 1 (t.tAdm - t.tParse) s
      let s := addTerm 2 (ready - t.tAdm) s
      let s := addTerm 3 (grant - ready) s
      let s := addTerm 4 (first - grant) s
      let s := addTerm 5 (t.tLast - first) s
      let s := addTerm 6 (t.tTx - t.tLast) s
      let s := addTerm 7 (t.tTx - t.tArr) s
      { s with lim := { s.lim with measured := sat (s.lim.measured + 1) 32 } }
    else s

/-- Whether a token record of a turn is still on its way: waiting for records before it, held at its ring, or waiting at the host port. -/
def tokenOut (s : State) (t : Turn) : Bool :=
  let mine (m : Option (Nat × Nat)) : Bool := match m with | some x => x.1 = t.admSeq | none => false
  ((portOf s 0).queues.any fun q => q.2.frames.any fun f => mine f.measure) ||
  (match (qpOf s t.qp).result with | some r => r.held.any fun h => mine h.2 | none => false) ||
  s.hst.batch.any fun x => mine x.measure

/-- The ended turns with no token record on its way are measured. -/
def settleTurns (s : State) : State :=
  s.lim.ended.foldl (fun s t =>
    if tokenOut s t then s
    else measureTurn t { s with lim := { s.lim with ended := s.lim.ended.filter (·.admSeq ≠ t.admSeq) } }) s

/-- A turn has ended. -/
def turnOver (t : Turn) (s : State) : State := settleTurns { s with lim := { s.lim with ended := s.lim.ended ++ [t] } }

/-- The last byte of a token record of a turn has left, delivered at t_b. -/
def Turn.sent (tb t : Nat) (x : Turn) : Turn := { x with tFirst := some (x.tFirst.getD tb), tLast := tb, tTx := t }

/-- A frame that carries a token record has left the host port. -/
def tokenSent (m : Nat × Nat) (s : State) : State :=
  let f (x : Turn) : Turn := if x.admSeq = m.1 then x.sent m.2 (now s) else x
  settleTurns { s with
    lim := { s.lim with ended := s.lim.ended.map f },
    stp := { s.stp with queue := s.stp.queue.map f,
                        lanes := s.stp.lanes.map fun l => (l.1, { l.2 with turn := f l.2.turn }) } }

end Sys2Proof.Machine
end

