-- ==== Sys2Proof/Machine/WeltCore.lean ====
section
/-!
DEFINITION. Sys2Proof/Machine/WeltCore.lean: the Welt fabric below its messages: frame layouts (R307, R310, R320,
R408), routing (R313), links going down (R317), transactions at their requester (R320 to R324) and the home's line
units (R321, R325).
-/
namespace Sys2Proof.Machine
open Sys2Proof

/-! ### The module's place in the fabric -/

/-- TOPOLOGY of the active image (R38). -/
def topo (s : State) : Topology := match s.img.active with | some i => i.topo | none => {}

/-- This module's node number. -/
def selfNode (s : State) : Nat := (topo s).node

/-- A hashing seed of R36: 0 LOCAL_DRAM, 1 FABRIC_HOME, 2 PATH, 3 SLOT. -/
def seed (s : State) (i : Nat) : Word := match s.img.active with | some a => a.seeds.getD i 0 | none => 0

/-- A link. -/
def linkOf (s : State) (l : Nat) : Link := findD l s.wlt.links {}

/-- Change a link. -/
def modLink (l : Nat) (f : Link → Link) (s : State) : State :=
  { s with wlt := { s.wlt with links := putN l (f (linkOf s l)) s.wlt.links } }

/-- Whether a link is UP (R308). -/
def linkUp (s : State) (l : Nat) : Bool := (linkOf s l).st = 5

/-- The links that are UP, ascending. -/
def upLinks (s : State) : List Nat := (List.range 32).filter (linkUp s)

/-- The direction entry of a link (R38): 0 unused, 1 + 2d for +d, 2 + 2d for −d. -/
def linkDir (s : State) (l : Nat) : Nat := (topo s).links.getD l 0 % 16

/-- Node state (R316): 0 INACTIVE, 1 SERVING, 2 FORWARD_ONLY. -/
def nodeState (s : State) : Nat :=
  if s.img.active.isNone || (upLinks s).isEmpty then 0 else if s.err.chipOut then 2 else 1

/-! ### Layouts -/

/-- The frame header of R310. -/
def hdrBytes (kind len : Nat) (h : FrameHdr) : Bytes :=
  le kind 1 ++ le h.cls 1 ++ le len 2 ++ le h.dest 2 ++ le h.src 2 ++ le h.job 2 ++ le h.hops 1 ++ le h.route 1 ++
  le h.path 2 ++ zeros 2

/-- Whether an OP of R320 is an atomic. -/
def atomicOp (op : Nat) : Bool := 0x10 ≤ op && op ≤ 0x15

/-- LENGTH of a frame (R310, R320; NODE_STATE by log entry 12). -/
def frameLen : Frame → Nat
  | .req r => if r.op = 1 then 48 else if r.op = 2 then 192 else if r.op = 3 then 48 + r.data.length
              else if atomicOp r.op then 64 else 48
  | .rsp r => if r.op = 1 && r.status = 0 then 160 else if atomicOp r.op && r.status = 0 then 48 else 32
  | .train _ _ => 64
  | .key _ _ => 80
  | .nodeState _ _ _ => 24

/-- The bytes of a frame. -/
def frameBytes (f : Frame) : Bytes :=
  let n := frameLen f
  let body := match f with
    | .req r =>
      hdrBytes 1 n r.hdr ++ le r.op 1 ++ le r.stream 1 ++ le r.tag 2 ++ le r.seq 4 ++ le r.addr 8 ++ le r.ackThrough 4 ++
      le r.incarnation 4 ++ le r.msgKind 2 ++ le (if r.op = 3 then r.data.length else 0) 2 ++ zeros 4 ++
      (if r.op = 2 then le r.mask 16 ++ fit r.data 128 else if r.op = 3 then r.data
       else if atomicOp r.op then le r.a.toNat 8 ++ le r.b.toNat 8 else [])
    | .rsp r =>
      hdrBytes 2 n r.hdr ++ le r.op 1 ++ le r.stream 1 ++ le r.tag 2 ++ le r.seq 4 ++ le r.status 1 ++ zeros 3 ++
      le r.nextSeq 4 ++ r.data
    | .train h t =>
      hdrBytes 0x10 n h ++ le t.versions.length 1 ++ le t.laneMask 1 ++ le t.node 2 ++
      fit (t.versions.map (BitVec.ofNat 8)) 4 ++ fit (t.coords.map (BitVec.ofNat 8)) 4 ++ le t.link 1 ++ le t.direction 1 ++
      le t.flags 1 ++ le t.kind 1 ++ le t.seedCheck 4 ++ fit (t.dims.map (BitVec.ofNat 8)) 4 ++ le t.incarnation 4
    | .key h k => hdrBytes 0x11 n h ++ le k.step 1 ++ zeros 3 ++ le k.keySeq 4 ++ fit k.nonce 32 ++ zeros 8 ++ fit k.tag 16
    | .nodeState h node sq => hdrBytes 0x12 n h ++ le node 2 ++ zeros 2 ++ le sq 4
  fit body n

/-- Read the header of R310. -/
def readHdr (b : Bytes) : FrameHdr :=
  { cls := leAt b 1 1, dest := leAt b 4 2 % 4096, src := leAt b 6 2 % 4096, job := leAt b 8 2, hops := leAt b 10 1,
    route := leAt b 11 1 % 16, path := leAt b 12 2 }

/-- Read a whole frame; none for a reserved KIND. -/
def readFrame (b : Bytes) : Option Frame :=
  let h := readHdr b
  let nums (o k : Nat) : List Nat := (List.range k).map fun i => leAt b (o + i) 1
  match leAt b 0 1 with
  | 1 =>
    let op := leAt b 16 1
    some (.req { hdr := h, op := op, stream := leAt b 17 1, tag := leAt b 18 2, seq := leAt b 20 4, addr := leAt b 24 8,
                 ackThrough := leAt b 32 4, incarnation := leAt b 36 4, msgKind := leAt b 40 2,
                 mask := if op = 2 then leAt b 48 16 else 0,
                 data := if op = 2 then slice b 64 128 else if op = 3 then slice b 48 (leAt b 42 2) else [],
                 a := if atomicOp op then BitVec.ofNat 64 (leAt b 48 8) else 0,
                 b := if atomicOp op then BitVec.ofNat 64 (leAt b 56 8) else 0 })
  | 2 =>
    some (.rsp { hdr := h, op := leAt b 16 1, stream := leAt b 17 1, tag := leAt b 18 2, seq := leAt b 20 4,
                 status := leAt b 24 1, nextSeq := leAt b 28 4, data := b.drop 32 })
  | 0x10 =>
    some (.train h { versions := (nums 20 4).take (leAt b 16 1), laneMask := leAt b 17 1 % 16, node := leAt b 18 2 % 4096,
                     coords := nums 24 4, link := leAt b 28 1, direction := leAt b 29 1, flags := leAt b 30 1,
                     kind := leAt b 31 1, seedCheck := leAt b 32 4, dims := nums 36 4, incarnation := leAt b 40 4 })
  | 0x11 => some (.key h { step := leAt b 16 1, keySeq := leAt b 20 4, nonce := slice b 24 32, tag := slice b 64 16 })
  | 0x12 => some (.nodeState h (leAt b 16 2 % 4096) (leAt b 20 4))
  | _ => none

/-- The frame header of a frame. -/
def frameHdr : Frame → FrameHdr
  | .req r => r.hdr
  | .rsp r => r.hdr
  | .train h _ | .key h _ | .nodeState h _ _ => h

/-- A frame with another header. -/
def setHdr (h : FrameHdr) : Frame → Frame
  | .req r => .req { r with hdr := h }
  | .rsp r => .rsp { r with hdr := h }
  | .train _ t => .train h t
  | .key _ k => .key h k
  | .nodeState _ n q => .nodeState h n q

/-- Whether a frame is a link control frame (R311). -/
def isControl : Frame → Bool
  | .req _ | .rsp _ => false
  | .train _ _ | .key _ _ | .nodeState _ _ _ => true

/-- The virtual channel of a frame: CLASS[6] × 2 + CLASS[7] (R312). -/
def vcOf (cls : Nat) : Nat := field cls 6 1 * 2 + field cls 7 1

/-! ### Routing (R313) -/

/-- The member entries of every map this module holds. -/
def mapMembers (s : State) (job : Nat) : List Member :=
  let of (j : Nat × Job) : List Member := j.2.map.members ++ (match j.2.prev with | some m => m.members | none => []) ++
    j.2.older.flatMap (·.1.members)
  (s.map.jobs.filter fun j => j.1 = job).flatMap of ++ (s.map.jobs.filter fun j => j.1 ≠ job).flatMap of

/-- The coordinates of a node (R343): from the frame's job, else from any map, else as the fabric's builder set them. -/
def coordsOf (s : State) (job node : Nat) : List Nat :=
  if node = selfNode s then (topo s).coords
  else match (mapMembers s job).find? (·.node = node) with
    | some m => m.coords
    | none => Config.coordsOf node

/-- Where NEXT_LINK sends a frame. -/
inductive Hop where
  | here
  | via (link : Nat) (h : FrameHdr)
  | nowhere
deriving DecidableEq, Repr

/-- NEXT_LINK of R313, without the link `ex` where one is excluded (R317). -/
def nextLink (s : State) (h : FrameHdr) (ex : Option Nat) : Hop :=
  let t := topo s
  let n (d : Nat) : Nat := max 1 (t.dims.getD d 1)
  let c (d : Nat) : Nat := t.coords.getD d 0
  let dst := coordsOf s h.job h.dest
  let td (d : Nat) : Nat := dst.getD d 0 % n d
  if h.dest = t.node then .here
  else
    match (List.range 4).find? fun d => c d ≠ td d with
    | none => .here
    | some d =>
      let locked := bit h.route 0 && field h.route 2 2 = d
      let cls := if locked then h.cls else h.cls % 128
      let f := (td d + n d - c d) % n d
      let b := n d - f
      let minus := if locked then bit h.route 1 else if f < b then false else if b < f then true else bit h.path d
      let group (m : Bool) : List Nat :=
        (List.range 32).filter fun l => linkUp s l && some l ≠ ex && linkDir s l = 1 + 2 * d + (if m then 1 else 0)
      let g := group minus
      let turn := g.isEmpty && !locked
      let minus' := if turn then !minus else minus
      let g' := if turn then group minus' else g
      let route := if turn then 1 + (if minus' then 2 else 0) + 4 * d else if locked then h.route else 0
      if g'.isEmpty then .nowhere
      else
        let wraps := if minus' then c d = 0 else c d + 1 = n d
        let cls := if wraps then cls % 128 + 128 else cls
        .via (g'.getD (h.path / 16 % g'.length) 0) { h with cls := cls, route := route, hops := h.hops + 1 }

/-! ### Frames on a link -/

/-- A frame as it waits in an egress queue; `held` is the receive buffer it takes up. -/
def weltFrame (s : State) (f : Frame) (held : Option (Nat × Nat × Nat) := none) : EFrame :=
  { len := frameLen f, at_ := now s, frame := some f, held := held }

/-- Count a discarded frame on a link (R310, R314). -/
def countDiscard (l : Option Nat) (s : State) : State :=
  match l with
  | some l => if l < 32 then modLink l (fun k => { k with discarded := sat (k.discarded + 1) 16 }) s else s
  | none => s

/-- The receive buffer that a frame takes up on a link: virtual channel and 64-byte units (R312). -/
def bufferOf (l : Nat) (f : Frame) : Nat × Nat × Nat := (l, vcOf (frameHdr f).cls, ceilDiv (frameLen f) 64)

/-- Receive buffer is free again: its credits are owed to the sender of the link (R312). -/
def oweHeld (h : Option (Nat × Nat × Nat)) (s : State) : State :=
  match h with
  | some (l, v, n) => modLink l (fun k => { k with owed := putN v (findD v k.owed 0 + n) k.owed }) s
  | none => s

/-- A response to a request, on the request's path and egress queue (R322, R338). -/
def responseTo (s : State) (r : Request) (status nextSeq : Nat) (data : Bytes) : Response :=
  { hdr := { cls := r.hdr.cls % 64 + 64, dest := r.hdr.src, src := selfNode s, job := r.hdr.job, path := r.hdr.path },
    op := r.op, stream := r.stream, tag := r.tag, seq := r.seq, status := status, nextSeq := nextSeq, data := data }

/-- A frame that this module delivers to itself: it waits for its line unit, or for its requester (R313, R325). -/
def deliver (f : Frame) (s : State) : State := { s with wlt := { s.wlt with here := s.wlt.here ++ [f] } }

/-- Where a frame to be routed comes from: the link it came in on, a link that has gone down and is excluded (R317), the link whose count
takes a discard where neither says it, and the receive buffer that the frame takes up. -/
structure Origin where
  inl  : Option Nat := none
  ex   : Option Nat := none
  cnt  : Option Nat := none
  held : Option (Nat × Nat × Nat) := none
deriving DecidableEq, Repr

/-- The link that counts a discard of R310 and R314: the one the frame came in on, else the one that has gone down, else the one whose
request is answered (log entry 140). -/
def Origin.counts (o : Origin) : Option Nat := (o.inl.or o.ex).or o.cnt

/-- A frame goes no further: its receive buffer is free, and the discard is counted. -/
def discardFrame (o : Origin) (s : State) : State := countDiscard o.counts (oweHeld o.held s)

/-- Route a request or response frame and queue it (R313 to R315); `front` puts it ahead of later frames (R317). A frame that has taken 32
hops is discarded (R310). A request without a route is answered UNREACHABLE, a response without one is discarded (R314). -/
def routeFrame (o : Origin) (front : Bool) (f : Frame) (s : State) : State :=
  let put (l : Nat) (f : Frame) (held : Option (Nat × Nat × Nat)) (s : State) : State :=
    let e := weltFrame s f held
    let q := (frameHdr f).cls % 64
    if front then modPort (l + 1) (·.pushFront q e) s else pushFrame (l + 1) q e s
  if (frameHdr f).hops ≥ 32 then
    logAll 1 7 (match o.counts with | some l => if l < 32 then unitLink l else unitChip 0 | none => unitChip 0) 0x0506 (frameHdr f).src
      (discardFrame o s)
  else
    match nextLink s (frameHdr f) o.ex with
    | .here => deliver f (oweHeld o.held s)
    | .via l h =>
      put l (setHdr h f) o.held (if o.inl.isSome then modLink l (fun k => { k with forwarded := sat (k.forwarded + 1) 48 }) s else s)
    | .nowhere =>
      match f with
      | .req r =>
        let a := responseTo s r 4 0 []
        let s := oweHeld o.held s
        match nextLink s a.hdr o.ex with
        | .via l h => put l (.rsp { a with hdr := h }) none s
        | .here => deliver (.rsp a) s
        | .nowhere => countDiscard o.counts s
      | _ => discardFrame o s

/-- A control frame on a link (R311). -/
def sendControl (l : Nat) (f : Frame) (s : State) : State :=
  modPort (l + 1) (fun p => { p with ctl := p.ctl ++ [weltFrame s f] }) s

/-- The header of a control frame. -/
def ctlHdr (s : State) (l : Nat) : FrameHdr := { dest := (linkOf s l).peerNode, src := selfNode s }

/-! ### A link going down (R308, R317) -/

/-- Fields that start afresh when a link leaves UP or begins training. -/
def Link.fresh (k : Link) : Link :=
  { k with txSeq := 0, rxNext := 0, ackedTo := 0, nak := false, replayBuf := [], rxPart := [], txPart := [], txFrames := [], tagFails := 0, credits := [],
           owed := [], keySeq := 0, keyStart := 0, myNonce := none, peerNonce := none, confirmSent := false,
           confirmGot := false, newKey := none, txKey := none, rxKey := none, prevKey := none }

/-- A frame no longer takes up receive buffer of a link that has left UP. -/
def EFrame.dropHeld (l : Nat) (e : EFrame) : EFrame :=
  if (match e.held with | some h => decide (h.1 = l) | none => false) then { e with held := none } else e

/-- The frames that wait at every port take up no receive buffer of a link that has left UP. -/
def dropHeld (l : Nat) (s : State) : State :=
  let f (p : EPort) : EPort :=
    { p with queues := p.queues.map fun q => (q.1, { q.2 with frames := q.2.frames.map (·.dropHeld l) }),
             stalled := p.stalled.map fun x => (x.1, x.2.dropHeld l) }
  { s with shp := { s.shp with ports := s.shp.ports.map fun p => (p.1, f p.2) } }

/-- Take a link to a state with the frames it holds routed again, ahead of later frames, the link excluded. -/
def leaveLink (l st : Nat) (s : State) : State :=
  let k := linkOf s l
  let p := portOf s (l + 1)
  let sent := (k.replayBuf.flatMap (·.frames) ++ k.txFrames).map fun f => (f, (none : Option (Nat × Nat × Nat)))
  let waiting := (p.queues.flatMap fun q => q.2.frames) ++ p.stalled.map (·.2)
  let all := (sent ++ waiting.filterMap fun e => e.frame.map fun f => (f, e.held)).filter fun f => !isControl f.1
  let s := modLink l (fun k => { k.fresh with st := st, since := now s }) (dropHeld l s)
  let s := modPort (l + 1) (fun p =>
    { p with ctl := [], stalled := [], queues := p.queues.map fun q => (q.1, { q.2 with frames := [], tag := none, woke := true }) }) s
  all.reverse.foldl (fun s f => routeFrame { ex := some l, held := f.2 } true f.1 s) s

/-- A link goes DOWN (R308). A `reason` is recorded; `ev` says whether an event is logged. -/
def linkDown (l : Nat) (reason : Option Nat) (ev : Bool) (s : State) : State :=
  let s := leaveLink l 6 s
  let s := modLink l (fun k => { k with reason := reason.getD k.reason }) s
  if ev then logAll 1 4 (unitLink l) 0x0501 (linkOf s l).reason s else s

/-- Whether a link can train: its region is not fenced (R436), and the module's fabric block is powered and sound (R438, R463). -/
def linkMay (s : State) (l : Nat) : Bool :=
  !s.err.regions.contains (l / 4) && powered s && !(s.err.chipOut && s.err.unsound)

/-- WLT_ENABLE takes effect (R308, R329): a link with its bit set, a used direction and an image active leaves
DISABLED; one with its bit clear becomes DISABLED. -/
def applyEnable (s : State) : State :=
  (List.range 32).foldl (fun s l =>
    let k := linkOf s l
    if bit s.regs.wltEnable.toNat l && s.img.active.isSome && linkDir s l ≠ 0 then
      if k.st = 0 && linkMay s l then modLink l (fun k => { k.fresh with st := 1, since := now s }) s else s
    else if k.st ≠ 0 then leaveLink l 0 s else s) s

/-- A link becomes UP: its port's virtual times start at 0 (R286), its credits are whole (R312). -/
def bringUp (l : Nat) (s : State) : State :=
  let s := modLink l (fun k => { k with st := 5, since := now s }) s
  modPort (l + 1) (fun p => { p with v := 0, maxF := 0, queues := p.queues.map fun q => (q.1, { q.2 with fLast := 0 }) }) s

/-! ### Transactions at their requester (R320 to R324) -/

/-- The requester stream's state. -/
def reqStream (s : State) (stream dest : Nat) : ReqStream := findD (stream, dest) s.wlt.streams {}

/-- Set a requester stream's state. -/
def setReqStream (stream dest : Nat) (x : ReqStream) (s : State) : State :=
  { s with wlt := { s.wlt with streams := put (stream, dest) x s.wlt.streams } }

/-- The least tag not in use. -/
def freeTag (s : State) : Option Nat := (List.range (s.wlt.outst.length + 1)).find? fun t =>
  t < 65536 && !(s.wlt.outst.any fun o => o.req.tag = t)

/-- The tag quota of an issuer group (R35). -/
def quotaOf (s : State) (g : Nat) : Nat := match s.img.active with | some i => i.quotas.getD g 0 | none => 0

/-- Whether a transaction may be issued now: a credit of the destination, a tag under the group's quota (R324); none while the module is
not SERVING (R316), nor while it quiesces for STANDBY (R463). -/
def mayIssue (s : State) (r : Request) : Bool :=
  nodeState s = 1 && s.pwr.goto ≠ some 1 &&
  (s.wlt.outst.filter fun o => o.req.hdr.dest = r.hdr.dest).length < 8 &&
  (s.wlt.outst.filter fun o => o.group = r.stream / 16).length < quotaOf s (r.stream / 16)

/-- A request frame leaves for its home. -/
def sendRequest (r : Request) (s : State) : State := routeFrame {} false (.req r) s

/-- Give a request its tag, SEQ, ACK_THROUGH, incarnation and path, and send it. -/
def launch (r : Request) (p : Purpose) (s : State) : State :=
  match freeTag s with
  | none => s
  | some tag =>
    let x := reqStream s r.stream r.hdr.dest
    let path := mixN (r.hdr.src * 2 ^ 32 ^^^ r.hdr.dest * 2 ^ 16 ^^^ r.stream ^^^ (seed s 2).toNat) % 65536
    let r := { r with tag := tag, seq := x.next, incarnation := s.rom.incarnation,
                      ackThrough := x.ackThrough.getD (2 ^ 32 - 1), hdr := { r.hdr with path := path } }
    let s := setReqStream r.stream r.hdr.dest { x with next := (x.next + 1) % 2 ^ 32 } s
    let o : Outst := { req := r, first := now s, last := now s, purpose := p, group := r.stream / 16 }
    sendRequest r { s with wlt := { s.wlt with outst := s.wlt.outst ++ [o] } }

/-- Issue a transaction of a group and engine instance: launched at once, or stalled behind its engine's earlier ones
(R324). A module that is not SERVING issues none (R316), and none but lace messages is issued for a job that was stopped
(R327). -/
def issue (group inst dest job : Nat) (r : Request) (p : Purpose) (s : State) : State :=
  if nodeState s ≠ 1 || (s.wlt.stopped.contains job && !(r.op = 3 && r.msgKind = 2)) then s
  else
    let r := { r with stream := group * 16 + inst,
                      hdr := { cls := wfield s.regs.wltQmap (6 * group) 6, dest := dest, src := selfNode s, job := job } }
    let blocked := s.wlt.stalled.any fun x => x.1.stream = r.stream
    if !blocked && mayIssue s r then launch r p s
    else
      let s := hit (if (s.wlt.outst.filter fun o => o.req.hdr.dest = dest).length < 8 then 0 else 1) s
      { s with wlt := { s.wlt with stalled := s.wlt.stalled ++ [(r, p)] } }

/-- Launch what no longer stalls, in order; a transaction behind a stalled one of its engine waits. -/
def unstall (s : State) : State :=
  let go (acc : State × List Nat) (x : Request × Purpose) : State × List Nat :=
    if !acc.2.contains x.1.stream && mayIssue acc.1 x.1 then
      (launch x.1 x.2 { acc.1 with wlt := { acc.1.wlt with stalled := acc.1.wlt.stalled.erase x } }, acc.2)
    else (acc.1, x.1.stream :: acc.2)
  (s.wlt.stalled.foldl go (s, [])).1

/-- The highest SEQ up to which every one is answered, given the last such and those answered beyond it. -/
def ackUp : Nat → Option Nat → List Nat → Option Nat × List Nat
  | 0, a, l => (a, l)
  | n + 1, a, l =>
    let nx := match a with | none => 0 | some x => (x + 1) % 2 ^ 32
    if l.contains nx then ackUp n (some nx) (l.filter (· ≠ nx)) else (a, l)

/-- A transaction ends: its tag and credit are freed, its SEQ counts as answered. -/
def endTx (o : Outst) (s : State) : State :=
  let x := reqStream s o.req.stream o.req.hdr.dest
  let (a, l) := ackUp (x.answered.length + 1) x.ackThrough (x.answered ++ [o.req.seq])
  let s := setReqStream o.req.stream o.req.hdr.dest { x with ackThrough := a, answered := l } s
  { s with wlt := { s.wlt with outst := s.wlt.outst.filter fun y => y.req.tag ≠ o.req.tag } }

/-- Re-send outstanding requests, in order (R322, R323); none while the module is not SERVING (R316). -/
def resend (os : List Outst) (s : State) : State :=
  if nodeState s ≠ 1 then s else os.foldl (fun s o =>
    let mark (y : Outst) : Outst := if y.req.tag = o.req.tag then { y with last := now s } else y
    sendRequest o.req { s with wlt := { s.wlt with outst := s.wlt.outst.map mark, resends := sat (s.wlt.resends + 1) 32 } }) s

/-- RESP_TIMEOUT_US as taken (R330), in ns. -/
def respTimeout (s : State) : Nat := max 100 (min 10000 (wfield s.regs.wltCfg 0 14)) * 1000

/-- REPLAY_LIMIT as taken (R330). -/
def replayLimit (s : State) : Nat := max 1 (wfield s.regs.wltCfg 14 4)

/-! ### Homes (R318 to R321, R325) -/

/-- T1_MAP of R172: region, region channel, channel address. -/
def t1Map (s : State) (a : Nat) : Nat × Nat × Nat :=
  let r := a / 0x3000000000
  let o := a % 0x3000000000
  let st := o / 3072
  let u := o % 3072 / 256
  (r, (u + mixN (st ^^^ (seed s 0).toNat) % 12) % 12, st * 256 + o % 256)

/-- Where a channel address lies in its channel of two ranks of 16 banks in four bank groups with a 2 KiB row: rank, bank, row and column byte
(R171, R172). -/
def chanPlace (y : Nat) : Nat × Nat × Nat × Nat := (field y 15 1, field y 11 4 ^^^ field y 16 4, field y 16 18, field y 0 11)

/-- The maps whose windows a home serves for a job: the committed map, and those before it whose drain windows run (R351, R355). -/
def servedMaps (s : State) (job : Nat) : List LaceMap :=
  match find? job s.map.jobs with
  | none => []
  | some j => j.map :: ((match j.prev with | some p => if j.drainOn then [p] else [] | none => []) ++
      (j.older.filter fun m => now s < m.2).map (·.1))

/-- The windows this module exports to a job: pool number, base, units, member number in the pool, members. -/
def windows (s : State) (job : Nat) : List (Nat × Nat × Nat × Nat × Nat) :=
  (servedMaps s job).flatMap fun m =>
    (m.pools.filter (·.kind = 0)).flatMap fun p =>
      (List.range p.members.length).filterMap fun i =>
        let e := p.members.getD i default
        if (m.members.getD e.1 default).node = selfNode s then some (p.id, e.2.2.2, p.units, i, p.members.length) else none

/-- FLAT_HOME of R319 at a home that is member `i` of `m`: the T1 address, where the address maps to that member. -/
def flatLocal (s : State) (a base units i m : Nat) : Option Nat :=
  let u := a / 4096 % 2 ^ 36
  let g := u / m
  let h := (u % m + mixN (g ^^^ (seed s 1).toNat ^^^ field a 48 12) % m) % m
  if g < units && h = i then some (base + g * 4096 + a % 4096) else none

/-- Whether a T1 address lies in a staging window that waits for a job's member to store a result (R358). -/
def stagingAt (s : State) (job off : Nat) : Bool :=
  s.vec.wins.any fun w => w.job = job && w.addr ≤ off && off < w.addr + 128 * ceilDiv w.buf.len 128

/-- The T1 address of a request, or the refusal of R318 and R319. -/
def homeAddr (s : State) (r : Request) : Nat ⊕ Nat :=
  let ws := windows s r.hdr.job
  let align := if atomicOp r.op then 8 else 128
  if r.addr % align ≠ 0 then .inr 2
  else match r.addr / 2 ^ 60 with
    | 0 =>
      let off := r.addr % 2 ^ 48
      if off ≥ 0x18000000000 then .inr 2
      else if stagingAt s r.hdr.job off || ws.any (fun w => w.2.1 ≤ off && off < w.2.1 + w.2.2.1 * 4096) then .inl off else .inr 1
    | 1 =>
      match ws.find? fun w => w.1 = field r.addr 48 12 with
      | none => .inr 1
      | some w => match flatLocal s r.addr w.2.1 w.2.2.1 w.2.2.2.1 w.2.2.2.2 with
        | some t => .inl t
        | none => .inr 2
    | _ => .inr 2

/-- The new value of an atomic (R320). -/
def atomicNew (op : Nat) (old a b : Word) : Word :=
  match op with
  | 0x10 => old + a
  | 0x11 => a
  | 0x12 => if old = a then b else old
  | 0x13 => old &&& a
  | 0x14 => old ||| a
  | _ => old ^^^ a

/-- A STORE's bytes merged into a line by BYTE_MASK (R320, R325). -/
def mergeLine (old new : Bytes) (mask : Nat) : Bytes :=
  (List.range 128).map fun i => if bit mask i then new.getD i 0 else old.getD i 0

/-- Whether JOB is one this module serves: held, and not torn down or closed (R326, R361). -/
def jobServed (s : State) (job : Nat) : Bool :=
  match find? job s.map.jobs with
  | none => false
  | some j => j.map.state = 1 || j.map.state = 2

/-- Whether a request must pass the JOB check: lace messages do not, for they carry the job's own maps (R346). -/
def jobChecked (r : Request) : Bool := !(r.op = 3 && r.msgKind = 2)

/-- Apply an in-order request and make its status and data (R320, R321, R325). -/
def applyRequest (r : Request) (s : State) : Nat × Bytes × State :=
  if !(r.op = 1 || r.op = 2 || r.op = 3 || atomicOp r.op) then (7, [], s)
  else if jobChecked r && !jobServed s r.hdr.job then (5, [], s)
  else if r.op = 3 then (0, [], s)
  else match homeAddr s r with
    | .inr st => (st, [], s)
    | .inl t =>
      if s.err.regions.contains (t1Map s t).1 then (3, [], s)
      else
        let d := Config.ramDefault
        if r.op = 1 then (0, readBytes d t 128 s.mem.t1, s)
        else if r.op = 2 then
          let line := mergeLine (readBytes d t 128 s.mem.t1) r.data r.mask
          (0, [], { s with mem := { s.mem with t1 := writeBytes d t line s.mem.t1 } })
        else
          let old := BitVec.ofNat 64 (leNat (readBytes d t 8 s.mem.t1))
          let new := atomicNew r.op old r.a r.b
          let s := { s with mem := { s.mem with t1 := writeBytes d t (le new.toNat 8) s.mem.t1 } }
          let res : OnceRes := { node := r.hdr.src, stream := r.stream, seq := r.seq, val := old, at_ := now s }
          (0, le old.toNat 8 ++ zeros 8, { s with wlt := { s.wlt with once := s.wlt.once ++ [res] } })

/-- Respond to a request that came in on link `inl`, 32 where it is the module's own. -/
def respond (inl : Nat) (r : Request) (status nextSeq : Nat) (data : Bytes) (s : State) : State :=
  routeFrame { cnt := some inl } false (.rsp (responseTo s r status nextSeq data)) s

/-- A home's stream entry. -/
def homeStream (s : State) (node stream : Nat) : HomeStream := findD (node, stream) s.wlt.homes {}

/-- Set a home's stream entry. -/
def setHome (node stream : Nat) (x : HomeStream) (s : State) : State :=
  { s with wlt := { s.wlt with homes := put (node, stream) x s.wlt.homes } }

/-- The stored results that ACK_THROUGH covers are freed (R321). -/
def freeOnce (r : Request) (s : State) : State :=
  let kept (x : OnceRes) : Bool := x.node ≠ r.hdr.src || x.stream ≠ r.stream || (r.ackThrough + 2 ^ 32 - x.seq) % 2 ^ 32 ≥ 2 ^ 31
  { s with wlt := { s.wlt with once := s.wlt.once.filter kept } }

/-- The exactly-once table's size (R321). -/
def onceMax : Nat := 1048576

/-- Apply the request whose turn it is and respond; NEXT_SEQ advances (R321). One that the home refuses, as a location
record for which its pool has no room (R353), is answered ACCESS_DENIED (log entry 25). The answer says whether the request
was applied. -/
def takeRequest (inl : Nat) (refuse : Bool) (r : Request) (s : State) : Bool × State :=
  let x := homeStream s r.hdr.src r.stream
  let s := setHome r.hdr.src r.stream { x with next := (x.next + 1) % 2 ^ 32 } s
  if x.lost then (false, respond inl r 5 0 [] s)
  else if refuse then (false, respond inl r 1 0 [] s)
  else
    let (status, data, s) := applyRequest r s
    (status = 0, respond inl r status 0 data s)

/-- The requests of a stream that wait in the home's buffer. -/
def waitingOf (s : State) (r : Request) : List (Nat × Nat × Request) :=
  s.wlt.buffer.filter fun b => b.2.2.hdr.src = r.hdr.src && b.2.2.stream = r.stream

/-- A request joins the home's request buffer, under its line unit's region. -/
def bufferRequest (inl : Nat) (r : Request) (s : State) : State :=
  let u := match homeAddr s r with | .inl t => (t1Map s t).1 | .inr _ => 0
  { s with wlt := { s.wlt with buffer := s.wlt.buffer ++ [(u, inl, r)] } }

/-- A duplicate is answered again, applied to nothing; an atomic whose original waits at its line unit waits with it (R321, R326). -/
def answerAgain (inl : Nat) (r : Request) (s : State) : State :=
  if atomicOp r.op then
    match s.wlt.once.find? fun x => x.node = r.hdr.src && x.stream = r.stream && x.seq = r.seq with
    | some x => respond inl r 0 0 (le x.val.toNat 8 ++ zeros 8) s
    | none => if (waitingOf s r).any fun b => b.2.2.seq = r.seq then bufferRequest inl r s else s
  else if r.op = 1 then
    match homeAddr s r with
    | .inl t => respond inl r 0 0 (readBytes Config.ramDefault t 128 s.mem.t1) s
    | .inr st => respond inl r st 0 [] s
  else respond inl r 0 0 [] s

/-- A duplicate arrives: counted, and answered again. -/
def answerDuplicate (inl : Nat) (r : Request) (s : State) : State :=
  answerAgain inl r { s with wlt := { s.wlt with duplicates := sat (s.wlt.duplicates + 1) 32 } }

/-- Modular order of SEQ (R320): `a` is before `b`. -/
def seqBefore (a b : Nat) : Bool := a % 2 ^ 32 ≠ b % 2 ^ 32 && (b % 2 ^ 32 + 2 ^ 32 - a % 2 ^ 32) % 2 ^ 32 < 2 ^ 31

/-- Whether a request has to wait in the home's request buffer: an atomic while the exactly-once table is full, or a
request behind a waiting one of its stream (R321). -/
def mustWait (s : State) (r : Request) : Bool :=
  (atomicOp r.op && s.wlt.once.length ≥ onceMax) || !(waitingOf s r).isEmpty

/-- A request reaches its home (R316, R321). `inl` is the link it came in on. The answer says whether it was applied
now. -/
def homeRequest (inl : Nat) (r : Request) (s : State) (refuse : Bool := false) : Bool × State :=
  if s.err.chipOut then (false, respond inl r 3 0 [] s)
  else
    let x := homeStream s r.hdr.src r.stream
    if r.incarnation < x.incarnation then
      (false, { s with wlt := { s.wlt with stale := sat (s.wlt.stale + 1) 32 } })
    else
      let s := if r.incarnation > x.incarnation then
          let s := setHome r.hdr.src r.stream { incarnation := r.incarnation, next := 0 } s
          { s with wlt := { s.wlt with once := s.wlt.once.filter fun y => y.node ≠ r.hdr.src || y.stream ≠ r.stream } }
        else s
      let s := freeOnce r s
      let waitingN := ((waitingOf s r).map (·.2.2.seq)).eraseDups.length
      let nx : Nat := ((homeStream s r.hdr.src r.stream).next + waitingN) % 2 ^ 32
      if r.seq = nx then
        if mustWait s r then (false, bufferRequest inl r (if atomicOp r.op then hit 2 s else s))
        else takeRequest inl refuse r s
      else if seqBefore nx r.seq then
        (false, respond inl r 6 nx [] { s with wlt := { s.wlt with gaps := sat (s.wlt.gaps + 1) 32 } })
      else (false, answerDuplicate inl r s)

/-- A line unit takes the first request of its region that need wait no longer (R325); the answer names it where it was
applied. A duplicate that waited with its original takes the stored result (R326). -/
def lineAccept (region : Nat) (s : State) : Option Request × State :=
  let next (b : Nat × Nat × Request) : Nat := (homeStream s b.2.2.hdr.src b.2.2.stream).next
  let again (b : Nat × Nat × Request) : Bool := seqBefore b.2.2.seq (next b)
  let free (b : Nat × Nat × Request) : Bool :=
    b.1 = region && (again b || (!(atomicOp b.2.2.op && s.wlt.once.length ≥ onceMax) && b.2.2.seq = next b))
  match s.wlt.buffer.find? free with
  | none => (none, s)
  | some b =>
    if again b then (none, answerAgain b.2.1 b.2.2 { s with wlt := { s.wlt with buffer := s.wlt.buffer.erase b } })
    else match takeRequest b.2.1 false b.2.2 { s with wlt := { s.wlt with buffer := s.wlt.buffer.erase b } } with
    | (true, s) => (some b.2.2, s)
    | (false, s) => (none, s)

/-- Buffer space of a received frame is returned to the sender in 64-byte units (R312). -/
def owe (l : Nat) (f : Frame) (s : State) : State :=
  if isControl f || l ≥ 32 then s else oweHeld (some (bufferOf l f)) s

end Sys2Proof.Machine
end

