-- ==== Sys2Proof/Machine/MapCore.lean ====
section
/-!
DEFINITION. Sys2Proof/Machine/MapCore.lean: the lace map's layout (R342 to R345), lace and session messages
(R346), location records (R352, R353) and the routing of session tacks (R354, R355).
-/
namespace Sys2Proof.Machine
open Sys2Proof

/-! ### Layout -/

/-- A member entry (R343). -/
def memberBytes (m : Member) : Bytes :=
  le m.node 2 ++ le m.roles 1 ++ le m.mstate 1 ++ fit (m.coords.map (BitVec.ofNat 8)) 4 ++ le m.qpFirst 2 ++ le m.qpCount 2 ++ zeros 4

/-- Read a member entry. -/
def readMember (b : Bytes) : Member :=
  { node := leAt b 0 2 % 4096, roles := leAt b 2 1 % 16, mstate := leAt b 3 1,
    coords := (List.range 4).map fun d => leAt b (4 + d) 1, qpFirst := leAt b 8 2, qpCount := leAt b 10 2 }

/-- A pool (R344). -/
def poolBytes (p : Pool) : Bytes :=
  le p.id 2 ++ le p.kind 1 ++ le (if p.park then 1 else 0) 1 ++ le p.members.length 2 ++ zeros 2 ++ le p.units 4 ++ zeros 4 ++
  p.members.flatMap fun m => le m.1 2 ++ le m.2.1 2 ++ le m.2.2.1 2 ++ zeros 2 ++ le m.2.2.2 8

/-- Read `n` pools; the pools and what follows them. -/
def readPools : Nat → Bytes → List Pool × Bytes
  | 0, b => ([], b)
  | n + 1, b =>
    let c := leAt b 4 2
    let p : Pool :=
      { id := leAt b 0 2 % 4096, kind := leAt b 2 1, park := bit (leAt b 3 1) 0, units := leAt b 8 4,
        members := (List.range c).map fun i =>
          let e := slice b (16 + 16 * i) 16
          (leAt e 0 2, leAt e 2 2, leAt e 4 2, leAt e 8 8) }
    let (ps, rest) := readPools n (b.drop (16 + 16 * c))
    (p :: ps, rest)

/-- The map header (R342). -/
def mapHeader (m : LaceMap) : Bytes :=
  le 0x48 1 ++ le m.state 1 ++ le m.job 2 ++ le m.members.length 2 ++ le m.pools.length 1 ++ le (m.flags % 2) 1 ++ le m.epoch 8 ++
  le m.term 4 ++ le m.cobbler 2 ++ le m.tenant 2 ++ le m.drainUs 4 ++ le m.seedCheck 4 ++ le m.hbMs 1 ++ zeros 1 ++
  le m.leaseMs 2 ++ le m.memberMs 2 ++ le m.formMs 2 ++ zeros 24

/-- The bytes of a map (R342). -/
def mapBytes (m : LaceMap) : Bytes :=
  mapHeader m ++ m.members.flatMap memberBytes ++ m.pools.flatMap poolBytes ++ m.slots.flatMap fun x => le x 2

/-- Read the map header; its tables stay empty. -/
def readMapHeader (b : Bytes) : LaceMap :=
  { state := leAt b 1 1, job := leAt b 2 2, flags := leAt b 7 1 % 2, epoch := leAt b 8 8, term := leAt b 16 4,
    cobbler := leAt b 20 2 % 4096, tenant := leAt b 22 2, drainUs := leAt b 24 4, seedCheck := leAt b 28 4,
    hbMs := leAt b 32 1, leaseMs := leAt b 34 2, memberMs := leAt b 36 2, formMs := leAt b 38 2 }

/-- Read a map. -/
def readMap (b : Bytes) : LaceMap :=
  let n := leAt b 4 2
  let ms := (List.range n).map fun i => readMember (slice b (64 + 16 * i) 16)
  let (ps, rest) := readPools (leAt b 6 1) (b.drop (64 + 16 * n))
  { readMapHeader b with members := ms, pools := ps, slots := (List.range (rest.length / 2)).map fun i => leAt rest (2 * i) 2 }

/-- Bytes 0 to 7 of the SHA-256 of a map (R346). -/
def mapIdOf (m : LaceMap) : Bytes := (sha256 (mapBytes m)).take 8

/-! ### Hashes of R345 -/

/-- SLOT_OF. -/
def slotOf (s : State) (h : Word) : Nat := (mix64 (h ^^^ seed s 3)).toNat % 65536

/-- HOME(s): the member index of greatest rendezvous value; equal values, the lower node. -/
def rendezvous (sd : Word) (ms : List Member) (slot : Nat) : Nat :=
  let val (m : Member) : Nat := mixN (slot * 2 ^ 16 ^^^ m.node ^^^ sd.toNat)
  let cand := (List.range ms.length).filter fun i =>
    let m := ms.getD i default
    bit m.roles 0 && m.mstate = 0
  (cand.foldl (fun (b : Option Nat) i =>
    match b with
    | none => some i
    | some j => if val (ms.getD j default) < val (ms.getD i default) then some i else some j) none).getD 0

/-- The slot table of a member list. -/
def slotTable (sd : Word) (ms : List Member) : List Nat := (List.range 65536).map (rendezvous sd ms)

/-- SEED_CHECK of R342. -/
def slotSeedCheck (s : State) : Nat := leAt (sha256 (le (seed s 3).toNat 8)) 0 4

/-! ### Jobs -/

/-- A job this module is a member of. -/
def job? (s : State) (j : Nat) : Option Job := find? j s.map.jobs

/-- Change a job. -/
def modJob (j : Nat) (f : Job → Job) (s : State) : State :=
  match job? s j with
  | none => s
  | some x => { s with map := { s.map with jobs := putN j (f x) s.map.jobs } }

/-- This module's member entry of a map. -/
def ownMember (s : State) (m : LaceMap) : Option Member := m.members.find? (·.node = selfNode s)

/-- The job that a queue pair is bound to (R340); a CLOSED job binds none. -/
def jobOfQp (s : State) (qp : Nat) : Option Nat :=
  (s.map.jobs.find? fun j =>
    j.2.map.state ≠ 4 && match ownMember s (if j.2.removed then j.2.prev.getD j.2.map else j.2.map) with
    | some m => m.qpFirst ≤ qp && qp < m.qpFirst + m.qpCount
    | none => false).map (·.1)

/-- The node that is slot home of a handle under a map. -/
def homeNode (s : State) (m : LaceMap) (h : Word) : Nat := (m.members.getD (m.slots.getD (slotOf s h) 0) default).node

/-- The committed map epoch a queue pair's tacks are checked against; 0 outside any job. -/
def epochOfQp (s : State) (qp : Nat) : Nat := ((jobOfQp s qp).bind fun j => (job? s j).map (·.map.epoch)).getD 0

/-- Whether the drain window of a job's last commit still runs (R355). -/
def inDrain (s : State) (j : Job) : Bool := j.drainOn && now s < j.commitAt + j.map.drainUs * 1000

/-! ### Messages -/

/-- The 32-byte lace header (R346). -/
def laceHdrBytes (ltype : Nat) (h : LaceHdr) : Bytes :=
  le 0x48 1 ++ le ltype 1 ++ le h.job 2 ++ le h.term 4 ++ le h.epoch 8 ++ le h.sender 2 ++ le h.part 2 ++ le h.parts 2 ++ zeros 2 ++
  fit h.mapId 8

/-- Read a lace header. -/
def readLaceHdr (b : Bytes) : LaceHdr :=
  { job := leAt b 2 2, term := leAt b 4 4, epoch := leAt b 8 8, sender := leAt b 16 2 % 4096, part := leAt b 18 2,
    parts := leAt b 20 2, mapId := slice b 24 8 }

/-- Send a lace message to another node: a MESSAGE of issuer group 5 (R346). -/
def sendLace (dest ltype : Nat) (h : LaceHdr) (payload : Bytes) (s : State) (p : Purpose := .lace ltype) : State :=
  let h := { h with sender := selfNode s }
  let body := padTo (laceHdrBytes ltype h ++ payload) 8
  issue 5 0 dest h.job { op := 3, msgKind := 2, data := body } p (emit (.lace dest ltype h payload) s)

/-- Send a session-unit message to another node (R320); the bytes of its body are not the spec's (log entry 9). -/
def sendSession (dest job : Nat) (m : SesMsg) (s : State) : State :=
  let n := 8 * (1 + Config.sesMsgLength s.free % 512)
  let body := (List.range n).map fun i => Config.sesMsgByte (s.free + i)
  let s := { s with free := s.free + n }
  issue 5 1 dest job { op := 3, msgKind := 1, data := body } (.session m) (emit (.session dest job m) s)

/-- The lace header of this module for a job at its committed epoch. -/
def ownHdr (j : Job) : LaceHdr := { job := j.map.job, term := j.term, epoch := j.map.epoch }

/-! ### Location records -/

/-- The 32 bytes of a location record (R353). -/
def locBytes (r : LocRec) : Bytes := le r.handle.toNat 8 ++ le r.owner 2 ++ zeros 6 ++ le r.epoch 8 ++ zeros 8

/-- Read a location record. -/
def readLoc (b : Bytes) : LocRec := { handle := BitVec.ofNat 64 (leAt b 0 8), owner := leAt b 8 2 % 4096, epoch := leAt b 16 8 }

/-- The owner tells the slot home where a session is (R352). The owner that is its own slot home keeps no record.
Epoch 0 says that the record is to be deleted (log entry 13). -/
def locate (h : Word) (epoch : Nat) (p : Purpose) (job : Option Nat) (s : State) : State :=
  match job.bind (job? s) with
  | none => s
  | some j =>
    let home := homeNode s j.map h
    if home = selfNode s then modJob j.map.job (fun j => { j with locRecs := j.locRecs.filter (·.handle ≠ h) }) s
    else sendLace home 13 (ownHdr j) (locBytes { handle := h, owner := selfNode s, epoch := epoch }) s p

/-- A session's location record is deleted (R352). -/
def unlocate (x : Sess) (s : State) : State := locate x.e.handle 0 (.lace 13) x.job s

/-! ### Routing (R354 to R356) -/

/-- What ROUTE answers. -/
inductive Route where
  | here
  | catchUp (job : Nat)
  | redirect (node epoch : Nat)
  | forward (node job : Nat)
  | claim (job : Nat)
  | refuse (status : Nat)
deriving DecidableEq, Repr

/-- ROUTE of R354 for a session tack on a job or outside any. Within the drain window a slot that this module has gained is forwarded to its
former home, and opens no claim query (R355). While the job is torn down there is no forward and no REDIRECT (R361). -/
def routeIn (s : State) (job : Option Nat) (mapEpoch : Nat) (h : Word) (forwarded : Bool) : Route :=
  let held := s.ses.table.find? fun p => p.2.e.handle = h && p.2.e.state ≠ .free && p.2.e.state ≠ .ash
  let moved := s.ses.table.find? fun p => p.2.e.handle = h && p.2.e.state = .ash && p.2.e.moved
  match job.bind (job? s) with
  | none =>
    if held.isSome then .here
    else if s.ses.unavailable.contains h then .refuse 0x14
    else match moved with
      | some p => .redirect p.2.e.forwardNode 0
      | none => .here
  | some j =>
    if mapEpoch > j.map.epoch then .catchUp j.map.job
    else if held.isSome then .here
    else if s.ses.unavailable.contains h then .refuse 0x14
    else if j.map.state ≠ 2 then .refuse 0x14
    else match moved with
      | some p => .redirect p.2.e.forwardNode j.map.epoch
      | none =>
        let r := selfNode s
        let home := homeNode s j.map h
        let former := if inDrain s j then (j.prev.map fun p => homeNode s p h).filter (· ≠ r) else none
        let owner := ((j.locRecs.find? (·.handle = h)).map (·.owner)).filter (· ≠ r)
        let target := match owner with
          | some o => some o
          | none => if r = home then former else none
        match target with
        | some n => if forwarded then .redirect n j.map.epoch else .forward n j.map.job
        | none => if r = home then .claim j.map.job else .redirect home j.map.epoch

end Sys2Proof.Machine
end

