-- ==== Sys2Proof/Machine/Records.lean ====
section
/-!
DEFINITION. Sys2Proof/Machine/Records.lean: completions (R262 to R264), token and end records (R91), and audit
records with their chains, delivery and log (R412 to R416).
-/
namespace Sys2Proof.Machine
open Sys2Proof

/-! ### The order of the records -/

/-- Write one record of a batch: to the node that forwarded the turn, or to the ring of the queue pair that submitted it; a connection
that has ended since gets none (R91, R248, R354). -/
def postStep (x : StepRec) (s : State) : State :=
  match x.fwd with
  | some (node, job) => sendSession node job (.record x.qp x.record) s
  | none => if (qpOf s x.qp).gen ≠ x.gen then countLost x.qp 1 s else postRecord x.qp x.record s x.measure

/-- Write the records of the batches in their order, up to the first that has to wait. -/
def drainList : List StepRec → State → State
  | [], s => { s with hst := { s.hst with batch := [] } }
  | x :: l, s => if x.ready s then drainList l (postStep x s) else { s with hst := { s.hst with batch := x :: l } }

/-- The records of the batches that may be written now are written. -/
def drainBatch (s : State) : State := if s.hst.batch = [] then s else settleTurns (drainList s.hst.batch s)

/-- A record joins the batches. -/
def enterBatch (x : StepRec) (s : State) : State := drainBatch { s with hst := { s.hst with batch := s.hst.batch ++ [x] } }

/-! ### Completions -/

/-- Complete a tack (R262 to R264): at once, or in tack order for the opcodes of the first rule of R264. A tack that
was forwarded is answered to the node that forwarded it (R354). -/
def completeOp (h : TackHdr) (op status : Nat) (s : State) (w : Words := {}) (ring : Option RingBody := none) : State :=
  let r : ResultRec :=
    { kind := 1, status := status, opcode := op, tag := h.tag,
      handle := w.handle.getD (if sessionOp op then h.handle else 0),
      wordA := w.a, wordB := w.b, wordC := w.c, time := now s }
  match h.fwd with
  | some (node, job) => sendSession node job (.record h.qp r) s
  | none =>
    let s := countTack status s
    if orderedOp op then
      drainBatch (flushQp h.qp (modQp h.qp (fun q => { q with order := fillOrder h.tag op r ring q.order }) s))
    else postRecord h.qp r s

/-- A TURN that completes with a status other than OK is refused, and counts as unmeasured by the class it asked for (R478); the
session's default class is known where the session is held (log entry 35). -/
def refusedTurn (h : TackHdr) (b : TackBody) (s : State) : State :=
  match b with
  | .turn t =>
    match (if bit t.cls 2 then (byHandle? s h.handle).map (·.2.e.cls) else some (t.cls % 4)) with
    | some c => unmeasured c s
    | none => s
  | _ => s

/-- Complete a tack by its body. -/
def complete (h : TackHdr) (b : TackBody) (status : Nat) (s : State) (w : Words := {}) : State :=
  completeOp h (opcodeOf b) status (if status = 0 then s else refusedTurn h b s) w

/-! ### Token and end records -/

/-- A record of a turn takes its place in the order of the batches (R91). -/
def postTurn (t : Turn) (r : ResultRec) (m : Option (Nat × Nat)) (s : State) : State :=
  enterBatch { qp := t.qp, gen := t.qpGen, fwd := t.forwarder, record := r, measure := m } s

/-- The handle of the session a turn belongs to. -/
def turnHandle (s : State) (t : Turn) : Word := ((sess? s t.idx).map (·.e.handle)).getD 0

/-- TURN_SEQ of the session a turn belongs to. -/
def turnSeqOf (s : State) (t : Turn) : Nat := ((sess? s t.idx).map (·.e.turnSeq)).getD 0

/-- A token record (R91, R263). -/
def tokenRecord (s : State) (t : Turn) (tb token ordinal status flags : Nat) : ResultRec :=
  { kind := 2, status := status, opcode := 2, flags := flags, tag := t.tag, handle := turnHandle s t, wordA := s.stp.seq,
    wordB := turnSeqOf s t, wordC := token % 2 ^ 32 + ordinal % 2 ^ 16 * 2 ^ 32, time := tb }

/-- The end record of a turn (R89, R91, R263). -/
def endRecord (t : Turn) (tb status : Nat) (s : State) : State :=
  postTurn t
    { kind := 3, status := status, opcode := 2, tag := t.tag, handle := turnHandle s t, wordA := s.stp.seq,
      wordB := turnSeqOf s t, wordC := t.inputDone % 2 ^ 32 + t.delivered % 2 ^ 16 * 2 ^ 32, time := tb } none s

/-! ### Audit records (R412 to R416) -/

/-- The 128 bytes of an audit record (R412). -/
def auditBytes (r : AuditRec) : Bytes :=
  le 0x48 1 ++ le r.flags 1 ++ le r.endStatus 1 ++ le 1 1 ++ le r.node 2 ++ le r.topK 2 ++ le r.handle.toNat 8 ++ le r.index 8 ++
  le r.stepSeq 8 ++ le r.turnSeq 8 ++ le r.epoch 8 ++ le r.time 8 ++ le r.posFirst 4 ++ le r.posCount 4 ++ le r.token 4 ++
  le r.adapterVersion 4 ++ le r.invTemp.toNat 4 ++ le r.topP.toNat 4 ++ fit r.inputDigest 32 ++ fit r.numericTag 8 ++
  fit r.adapterTag 8

/-- A tenant's waiting audit records. -/
def audOf (s : State) (t : Nat) : AudTenant := findD t s.sec.aud {}

/-- Set a tenant's waiting audit records. -/
def setAud (t : Nat) (a : AudTenant) (s : State) : State := { s with sec := { s.sec with aud := putN t a s.sec.aud } }

/-- The queue pair and audit ring of a tenant, where one is set up and its queue pair is READY. -/
def auditRing? (s : State) (t : Nat) : Option (Nat × Ring) :=
  match tenant? s t with
  | none => none
  | some x => if (qpOf s x.eventQp).st = 2 then (qpOf s x.eventQp).audit.map fun r => (x.eventQp, r) else none

/-- The waiting records of a tenant go to its ring while the ring has room; then the count of records written goes to
PRODUCER_ADDR. A full ring's consumer count is read (R415, R416). -/
def deliverAudit (t : Nat) (s : State) : State :=
  match auditRing? s t with
  | none => s
  | some (qp, r) =>
    let a := audOf s t
    let n := min a.log.length (r.slots - (r.prod - r.cons))
    let s := (List.range n).foldl (fun s i =>
      rdmaWrite qp r.rkey (r.addr + 128 * ((r.prod + i) % r.slots)) (a.log.getD i []) s) s
    let r' := { r with prod := r.prod + n }
    let s := setAud t { a with log := a.log.drop n } s
    let s := if n = 0 then s else rdmaWrite qp r.rkey r.producerAddr (le r'.prod 8) s
    let full := decide (n < a.log.length)
    let s := modQp qp (fun q => { q with audit := some { r' with reading := r.reading || full } }) s
    if full && !r.reading then readConsumer qp r.rkey r.consumerAddr s else s

/-- A record of a tenant without a ring ever set up, or that the active image does not bind, is counted, and the first
of each second raises an event (R416). -/
def noRingRecord (t n : Nat) (s : State) : State :=
  let sec := now s / 1000000000 + 1
  let first := s.stp.noRingWarn ≠ sec
  let s := { s with sec := { s.sec with noRing := sat (s.sec.noRing + n) 32 }, stp := { s.stp with noRingWarn := sec } }
  if first then logAll 1 6 (unitChip 0x32) 0x0407 t s else s

/-- The leaf of a session takes its last count and head of an interval that ends at `e` (R418): commits on either side of `e` stay
apart. -/
def putLeaf (e t : Nat) (h : Word) (c : Nat) (head : Bytes) (tb : Nat) (l : List (Nat × Word × Nat × Bytes × Nat)) :
    List (Nat × Word × Nat × Bytes × Nat) :=
  l.filter (fun x => x.2.1 ≠ h || x.1 ≠ t || decide (x.2.2.2.2 < e) ≠ decide (tb < e)) ++ [(t, h, c, head, tb)]

/-- Append a record to the chain of a session and hand it to its tenant (R413 to R416). The record's INDEX is set
here. -/
def appendAudit (idx : Nat) (r : AuditRec) (s : State) : State :=
  match sess? s idx with
  | none => s
  | some x =>
    let n := x.e.auditCount + 1
    let b := auditBytes { r with index := n }
    let head := sha256 (x.e.auditHead ++ b)
    let t := x.e.tenant
    let s := modEntry idx (fun e => { e with auditHead := head, auditCount := n }) s
    let s := { s with sec := { s.sec with leaves := putLeaf s.sec.nextEnd t x.e.handle n head r.time s.sec.leaves } }
    let a := audOf s t
    if a.ever && (tenant? s t).isSome then setAud t { a with log := a.log ++ [b] } s else noRingRecord t 1 s

end Sys2Proof.Machine
end

