-- ==== Sys2Proof/Machine/SecCore.lean ====
section
/-!
DEFINITION. Sys2Proof/Machine/SecCore.lean: the Merkle roots of R418 and their records (R419), the body of a quote (R410).
-/
namespace Sys2Proof.Machine
open Sys2Proof

/-! ### What quotes and roots report -/

/-- IMAGE_LOG (R410): the digest of the full image, extended by each partial reload. -/
def imageLog (s : State) : Bytes :=
  match s.img.active with
  | none => zeros 32
  | some i => s.img.partials.foldl (fun l d => sha256 (l ++ fit d 32)) (fit i.measured 32)

/-- The key ID of an owner key slot; zero for an empty one. -/
def slotKeyId (s : State) (n : Nat) : Bytes :=
  match find? n (enrolledKeys s) with
  | some k => (sha256 k).take 8
  | none => zeros 8

/-- REPLAY_LEVEL (R131). -/
def replayLevel : Nat := 1

/-- A field that describes the image: zero while none is active. -/
def ofImage (s : State) (f : Image → Nat) : Nat := (s.img.active.map f).getD 0

/-- The body of a quote (R410). -/
def quoteBody (s : State) (nonce : Bytes) : Bytes :=
  let i := s.img
  let on := i.active.isSome
  let flags := placeB on 0 + placeB (on && i.isSealed) 1 + placeB (!s.clk.everLocked) 2 + placeB s.rom.endorsement.isSome 3 +
    placeB (dsk? s).isSome 4
  let last := i.partials.drop (i.partials.length - 8)
  le 0x544F555154544159 8 ++ le 0x48 1 ++ le flags 1 ++ le (ofImage s (·.topo.node)) 2 ++ le s.rom.incarnation 4 ++ fit nonce 32 ++
  le (now s) 8 ++ fit s.sec.fwDigest 32 ++ le s.sec.fwLength 4 ++ le (ofImage s (·.revision)) 4 ++ le (ofImage s (·.build)) 8 ++
  fit ((i.active.map (·.measured)).getD []) 32 ++ fit ((i.active.map (·.numeric)).getD []) 32 ++ le i.partials.length 4 ++
  le replayLevel 1 ++ le (if on then i.placeKind + i.placeIdx * 4 else 0) 1 ++ le (enrolledKeys s).length 1 ++ zeros 1 ++
  imageLog s ++ fit (last.flatMap fun d => fit d 32) 256 ++ ((List.range 4).flatMap (slotKeyId s)) ++ le s.sec.rootSeq 8 ++ identityId s

/-! ### Roots (R418, R419) -/

/-- One level of a Merkle tree: pairs joined, an odd last one carried up. -/
def merklePass : List Bytes → List Bytes
  | a :: b :: l => sha256 ([1] ++ a ++ b) :: merklePass l
  | l => l

/-- MTREE; `n` bounds the levels. -/
def mtree : Nat → List Bytes → Bytes
  | _, [] => zeros 32
  | _, [a] => a
  | 0, a :: _ => a
  | n + 1, l => mtree n (merklePass l)

/-- LEAF(s) of a session's handle, count and head. -/
def leafOf (x : Word × Nat × Bytes) : Bytes := sha256 ([0] ++ le x.1.toNat 8 ++ le x.2.1 8 ++ x.2.2)

/-- The leaves of an interval that ends at `e`, by ascending tenant, each tenant's by ascending handle. -/
def leavesBy (e : Nat) (l : List (Nat × Word × Nat × Bytes × Nat)) : List (Nat × List Bytes) :=
  let mine := l.filter fun x => x.2.2.2.2 < e
  let ts := sortBy (fun (a b : Nat) => a ≤ b) (mine.map (·.1)).eraseDups
  ts.map fun t =>
    let xs := sortBy (fun (a b : Word × Nat × Bytes) => a.1.toNat ≤ b.1.toNat)
      ((mine.filter (·.1 = t)).map fun x => (x.2.1, x.2.2.1, x.2.2.2.1))
    (t, xs.map leafOf)

/-- The root record of an interval that ends at `e` (R419), and its tenant entries. -/
def rootRecord (s : State) (e : Nat) (free : Bool) : PendRoot :=
  let ls := leavesBy e s.sec.leaves
  let subs := ls.map fun x => (x.1, mtree x.2.length x.2)
  let root := mtree subs.length (subs.map fun x => sha256 ([2] ++ le x.1 2 ++ x.2))
  let flags := placeB free 0 + placeB s.sec.revChanged 1
  let n := sumN (ls.map (·.2.length))
  { rcd := le 0x544F4F5244554159 8 ++ le 0x48 1 ++ le flags 1 ++ le (selfNode s) 2 ++ le s.rom.incarnation 4 ++ le (s.sec.rootMade + 1) 8 ++
      le e 8 ++ le n 4 ++ le subs.length 2 ++ zeros 2 ++ root ++ fit s.sec.prevRoot 32 ++ fit s.sec.fwDigest 32 ++ imageLog s ++
      le (ofImage s (·.revision)) 4 ++ le replayLevel 1 ++ zeros 3 ++ fit ((s.img.active.map (·.numeric)).getD []) 32 ++ zeros 48
    subs := subs }

/-- An interval closes at `e` and the next runs to `next`: its root is made, where an image is active and the module has an
identity (R403, R418). -/
def closeInterval (e next : Nat) (free : Bool) (s : State) : State :=
  let later := s.sec.leaves.filter fun x => e ≤ x.2.2.2.2
  let s := if s.img.active.isSome && s.sec.identity then
      let p := rootRecord s e free
      { s with sec := { s.sec with rootsPend := s.sec.rootsPend ++ [p], rootMade := s.sec.rootMade + 1, prevRoot := sha256 p.rcd } }
    else s
  { s with sec := { s.sec with leaves := later, revChanged := false, nextEnd := next } }

/-- The interval that is open at the first PTP lock closes at that instant (R418). -/
def lockInterval (s : State) : State :=
  let t := now s
  let all := s.sec.leaves.map fun (x : Nat × Word × Nat × Bytes × Nat) => (x.1, x.2.1, x.2.2.1, x.2.2.2.1, 0)
  closeInterval t ((t / 250000000 + 1) * 250000000) true { s with sec := { s.sec with leaves := all } }

end Sys2Proof.Machine
end

