-- ==== Sys2Proof/Machine/Fp.lean ====
section
/-!
DEFINITION. Sys2Proof/Machine/Fp.lean: FP32 and BF16 (R107), the microscaling formats (R108 to R110), the fixed sums
(R113, R114), the elementary functions (R115, R116) and DRAW (R126), each down to its roundings.
-/
namespace Sys2Proof.Machine
open Sys2Proof

/-! ### Values -/

/-- An FP32 operand as R107 reads it: a finite value is (−1)^neg × m × 2^e. -/
inductive Fp where
  | nan
  | inf (neg : Bool)
  | fin (neg : Bool) (m : Nat) (e : Int)
deriving DecidableEq, Repr

/-- The canonical NaN of FP32 (R107). -/
def f32NaN : F32 := 0x7FC00000

/-- An FP32 infinity. -/
def f32Inf (neg : Bool) : F32 := if neg then 0xFF800000 else 0x7F800000

/-- An FP32 zero. -/
def f32Zero (neg : Bool) : F32 := if neg then 0x80000000 else 0

/-- 1 in FP32. -/
def f32One : F32 := 0x3F800000

/-- Read an FP32 encoding; a subnormal is a zero of its sign (R107). -/
def fpOf (x : F32) : Fp :=
  let n := x.toNat
  let neg := bit n 31
  let ex := field n 23 8
  let m := field n 0 23
  if ex = 255 then (if m = 0 then .inf neg else .nan)
  else if ex = 0 then .fin neg 0 0
  else .fin neg (m + 2 ^ 23) ((ex : Int) - 150)

/-- `m × 2^e` cut to `p` significant bits, to nearest with ties to even: the significand and its exponent. -/
def roundTo (p m : Nat) (e : Int) : Nat × Int :=
  let l := Nat.log2 m + 1
  if l ≤ p then (m * 2 ^ (p - l), e - ((p - l : Nat) : Int))
  else
    let sh := l - p
    let q := m / 2 ^ sh
    let r := m % 2 ^ sh
    let h := 2 ^ (sh - 1)
    let q := if r > h || (r = h && q % 2 = 1) then q + 1 else q
    if q = 2 ^ p then (2 ^ (p - 1), e + (sh : Int) + 1) else (q, e + (sh : Int))

/-- RN of R107: one rounding of (−1)^neg × m × 2^e to FP32. -/
def rn (neg : Bool) (m : Nat) (e : Int) : F32 :=
  if m = 0 then f32Zero neg
  else
    let (q, x) := roundTo 24 m e
    let ex := x + 23
    if ex < -126 then f32Zero neg
    else if ex > 127 then f32Inf neg
    else BitVec.ofNat 32 ((if neg then 2 ^ 31 else 0) + (ex + 127).toNat * 2 ^ 23 + q % 2 ^ 23)

/-- RN of an integer times a power of two; an exact zero is +0. -/
def rnInt (n : Int) (e : Int) : F32 := rn (n < 0) n.natAbs e

/-- The signed significand of a finite value. -/
def signed (neg : Bool) (m : Nat) : Int := if neg then -(m : Int) else (m : Int)

/-- RN(a + b). -/
def fadd (x y : F32) : F32 :=
  match fpOf x, fpOf y with
  | .nan, _ | _, .nan => f32NaN
  | .inf a, .inf b => if a = b then f32Inf a else f32NaN
  | .inf a, _ => f32Inf a
  | _, .inf b => f32Inf b
  | .fin a m e, .fin b n g =>
    if m = 0 ∧ n = 0 then f32Zero (a && b)
    else if m = 0 then rn b n g
    else if n = 0 then rn a m e
    else
      let lo := min e g
      rnInt (signed a m * 2 ^ (e - lo).toNat + signed b n * 2 ^ (g - lo).toNat) lo

/-- The value with its sign changed. A NaN is canonical. -/
def fneg (x : F32) : F32 :=
  match fpOf x with
  | .nan => f32NaN
  | .inf a => f32Inf !a
  | .fin a m e => rn (!a) m e

/-- RN(a − b). -/
def fsub (x y : F32) : F32 := fadd x (fneg y)

/-- RN(a × b). -/
def fmul (x y : F32) : F32 :=
  match fpOf x, fpOf y with
  | .nan, _ | _, .nan => f32NaN
  | .inf a, .inf b => f32Inf (a ^^ b)
  | .inf a, .fin b n _ => if n = 0 then f32NaN else f32Inf (a ^^ b)
  | .fin a m _, .inf b => if m = 0 then f32NaN else f32Inf (a ^^ b)
  | .fin a m e, .fin b n g => rn (a ^^ b) (m * n) (e + g)

/-- The rank of a value that is no NaN in the order of the reals; −0 ranks with +0. -/
def frank (x : F32) : Int :=
  match fpOf x with
  | .nan => 0
  | .inf a => signed a (2 ^ 31)
  | .fin a m _ => if m = 0 then 0 else signed a (x.toNat % 2 ^ 31)

/-- Whether a value is NaN. -/
def isNaN (x : F32) : Bool := fpOf x == .nan

/-- a < b; false where one is NaN. -/
def flt (a b : F32) : Bool := !isNaN a && !isNaN b && frank a < frank b

/-- a ≤ b; false where one is NaN. -/
def fle (a b : F32) : Bool := !isNaN a && !isNaN b && frank a ≤ frank b

/-- a = b as values. -/
def feq (a b : F32) : Bool := !isNaN a && !isNaN b && frank a = frank b

/-- An operand as it is read: a subnormal one is a zero of its own sign (R107). -/
def fread (x : F32) : F32 :=
  match fpOf x with
  | .fin n m _ => if m = 0 then f32Zero n else x
  | _ => x

/-- max of R107. -/
def fmax (a b : F32) : F32 :=
  if isNaN a || isNaN b then f32NaN
  else if frank a = frank b then (if a.msb then fread b else fread a)
  else if frank a < frank b then fread b else fread a

/-- Round to BF16, to nearest with ties to even, read back as FP32 (R107). -/
def bf16 (x : F32) : F32 :=
  match fpOf x with
  | .nan => f32NaN
  | .inf a => f32Inf a
  | .fin a m e =>
    if m = 0 then f32Zero a
    else
      let (q, g) := roundTo 8 m e
      rn a q g

/-- A BF16 value read as FP32. -/
def ofBf16 (n : Nat) : F32 := BitVec.ofNat 32 (n % 65536 * 65536)

/-- An integer in FP32. -/
def f32OfNat (n : Nat) : F32 := rn false n 0

/-! ### Elementary functions -/

/-- Bisection: the greatest `k` in [lo, hi) with `p k`, where `p` holds at `lo` and fails from some point on. -/
def bisect (p : Nat → Bool) : Nat → Nat → Nat → Nat
  | 0, lo, _ => lo
  | n + 1, lo, hi =>
    if hi ≤ lo + 1 then lo
    else
      let mid := (lo + hi) / 2
      if p mid then bisect p n mid hi else bisect p n lo mid

/-- floor(√n). -/
def isqrt (n : Nat) : Nat :=
  let b := Nat.log2 n / 2 + 1
  bisect (fun k => k * k ≤ n) (b + 1) 0 (2 ^ b + 1)

/-- RECIP of R116. -/
def recip (x : F32) : F32 :=
  match fpOf x with
  | .nan => f32NaN
  | .inf a => f32Zero a
  | .fin a m e =>
    if m = 0 then f32Inf a
    else
      let k : Nat := 64
      let q := 2 ^ k / m
      rn a (2 * q + (if 2 ^ k % m = 0 then 0 else 1)) (-e - (k : Int) - 1)

/-- RSQRT of R116. -/
def rsqrt (x : F32) : F32 :=
  match fpOf x with
  | .nan => f32NaN
  | .inf a => if a then f32NaN else f32Zero false
  | .fin a m e =>
    if m = 0 then f32Inf a
    else if a then f32NaN
    else
      let odd := e % 2 = 1
      let m : Nat := if odd then 2 * m else m
      let e : Int := if odd then e - 1 else e
      let k : Nat := 48
      let q := isqrt (2 ^ (2 * k) / m)
      rn false (2 * q + (if q * q * m = 2 ^ (2 * k) then 0 else 1)) (-(e / 2) - (k : Int) - 1)

/-- T[j] = RN(2^(j/256)) of R115: the least upper half of floor(2^(24 + j/256)). -/
def expTable (j : Nat) : F32 :=
  let k := bisect (fun k => k ^ 256 ≤ 2 ^ (24 * 256 + j)) 26 (2 ^ 24) (2 ^ 25)
  rn false ((k + 1) / 2) (-23)

/-- EXP of R115. -/
def fexp (x : F32) : F32 :=
  match fpOf x with
  | .nan => f32NaN
  | .inf true => f32Zero false
  | .inf false => f32Inf false
  | .fin _ _ _ =>
    match fpOf (fmul x 0x3FB8AA3B) with
    | .nan => f32NaN
    | .inf a => if a then f32Zero false else f32Inf false
    | .fin a m e =>
      -- y = s × 2^-k with k ≥ 0: s is exact
      let k : Nat := (-e).toNat
      let s : Int := signed a m * 2 ^ e.toNat
      let n : Int := s / 2 ^ k
      if n ≥ 128 then f32Inf false
      else if n < -126 then f32Zero false
      else
        let f := (s - n * 2 ^ k).toNat
        let j := 256 * f / 2 ^ k
        let d := 256 * f - j * 2 ^ k
        -- d × LN2 with LN2 = 0xB17218 × 2^-24, rounded once
        let t := rn false (d * 0xB17218) (-(k : Int) - 32)
        let q := fmul (fmul 0x3F000000 t) t
        let r := fadd f32One (fadd t q)
        match fpOf (fmul (expTable j) r) with
        | .fin b m e => rn b m (e + n)
        | .inf b => f32Inf b
        | .nan => f32NaN

/-- SIGMOID of R116. -/
def sigmoid (x : F32) : F32 := recip (fadd f32One (fexp (fneg x)))

/-- SILU of R116. -/
def silu (x : F32) : F32 := fmul x (sigmoid x)

/-- GELU of R116; G1 = RN(2√(2/π)), G2 = RN(0.044715). -/
def gelu (x : F32) : F32 :=
  fmul x (sigmoid (fmul 0x3FCC422A (fadd x (fmul 0x3D372713 (fmul (fmul x x) x)))))

/-- RELU of R116. -/
def relu (x : F32) : F32 := fmax x 0

/-- ACT of R194: 0 SILU, 1 GELU, 2 RELU. -/
def act (kind : Nat) (x : F32) : F32 := match kind with | 0 => silu x | 1 => gelu x | _ => relu x

/-! ### Sums -/

/-- One pass of a fixed pairwise tree (R113). -/
def treePass {α : Type} (f : α → α → α) : List α → List α
  | a :: b :: l => f a b :: treePass f l
  | l => l

/-- A fixed pairwise tree (R113); `n` bounds the passes. -/
def treeFold {α : Type} (f : α → α → α) : Nat → List α → Option α
  | _, [] => none
  | _, [a] => some a
  | 0, a :: _ => some a
  | n + 1, l => treeFold f n (treePass f l)

/-- TREE_SUM of R113. -/
def treeSum (v : List F32) : F32 := (treeFold fadd v.length v).getD 0

/-- The state of an exact block sum (R114): a NaN seen, infinities of each sign seen, the sum as `n × 2^e`, and
whether every product so far is −0. -/
structure Acc where
  nan  : Bool := false
  pinf : Bool := false
  ninf : Bool := false
  n    : Int := 0
  e    : Int := 0
  mz   : Bool := true
deriving DecidableEq, Repr

/-- Add a finite `m × 2^e` to an exact sum. -/
def Acc.add (a : Acc) (m e : Int) : Acc :=
  let lo := min a.e e
  { a with n := a.n * 2 ^ (a.e - lo).toNat + m * 2 ^ (e - lo).toNat, e := lo }

/-- Take the product of two decoded operands into a block sum. -/
def Acc.mul (a : Acc) (x y : F32) : Acc :=
  match fpOf x, fpOf y with
  | .nan, _ | _, .nan => { a with nan := true }
  | .inf s, .inf t => if s ^^ t then { a with ninf := true, mz := false } else { a with pinf := true, mz := false }
  | .inf s, .fin t n _ =>
    if n = 0 then { a with nan := true } else if s ^^ t then { a with ninf := true, mz := false } else { a with pinf := true, mz := false }
  | .fin s m _, .inf t =>
    if m = 0 then { a with nan := true } else if s ^^ t then { a with ninf := true, mz := false } else { a with pinf := true, mz := false }
  | .fin s m e, .fin t n g =>
    if m = 0 ∨ n = 0 then { a with mz := a.mz && (s ^^ t) }
    else { a.add (signed (s ^^ t) (m * n)) (e + g) with mz := false }

/-- p[k] of R114 for the products of up to 32 pairs. -/
def blockSum (x y : List F32) : F32 :=
  let a := (x.zip y).foldl (fun a p => a.mul p.1 p.2) ({} : Acc)
  if a.nan || (a.pinf && a.ninf) then f32NaN
  else if a.pinf then f32Inf false
  else if a.ninf then f32Inf true
  else if a.n = 0 then f32Zero (a.mz && min x.length y.length = 32)
  else rnInt a.n a.e

/-- A list cut into blocks of `k`; `n` bounds the blocks. -/
def chunksOf {α : Type} (k : Nat) : Nat → List α → List (List α)
  | 0, _ => []
  | n + 1, l => if l.isEmpty then [] else l.take k :: chunksOf k n (l.drop k)

/-- A list cut into blocks of 32. -/
def blocks {α : Type} (l : List α) : List (List α) := chunksOf 32 (l.length / 32 + 1) l

/-- DOT of R114. -/
def dot (x y : List F32) : F32 := treeSum ((blocks x).zipWith blockSum (blocks y))

/-! ### Microscaling formats -/

/-- The constants of a format code of R32: 1 E4M3, 2 E5M2, 3 E3M2, 4 E2M3, 5 E2M1, 6 INT8. Exponent bits, mantissa
bits, bias, EMAX, MAXV as `m × 2^e`, the code of MAXV. -/
structure MxFmt where
  ebits : Nat
  mbits : Nat
  bias  : Int
  emax  : Int
  maxM  : Nat
  maxE  : Int
  maxC  : Nat
deriving DecidableEq, Repr

/-- The formats of R108. -/
def mxFmt (f : Nat) : MxFmt :=
  match f with
  | 1 => ⟨4, 3, 7, 8, 7, 6, 0x7E⟩
  | 2 => ⟨5, 2, 15, 15, 7, 13, 0x7B⟩
  | 3 => ⟨3, 2, 3, 4, 7, 2, 0x1F⟩
  | 4 => ⟨2, 3, 1, 2, 15, -1, 0x1F⟩
  | 5 => ⟨2, 1, 1, 2, 3, 1, 0x7⟩
  | _ => ⟨0, 6, 0, 0, 127, -6, 0x7F⟩

/-- Bits of an element of a format. -/
def mxBits (f : Nat) : Nat := match f with | 1 | 2 => 8 | 3 | 4 => 6 | 5 => 4 | _ => 8

/-- Element bytes of a block of 32 (R139). -/
def mxBytes (f : Nat) : Nat := 4 * mxBits f

/-- `m × 2^e` rounded to a multiple of 2^q, ties to even, in units of 2^q. -/
def roundUnits (m : Nat) (e q : Int) : Nat :=
  if e ≥ q then m * 2 ^ (e - q).toNat
  else
    let sh := (q - e).toNat
    let d := m / 2 ^ sh
    let r := m % 2 ^ sh
    let h := 2 ^ (sh - 1)
    if r > h || (r = h && d % 2 = 1) then d + 1 else d

/-- ROUND_F of R109 on (−1)^neg × m × 2^e: the element code. -/
def roundElem (f : Nat) (neg : Bool) (m : Nat) (e : Int) : Nat :=
  let c := mxFmt f
  if f = 6 then
    let k := min (roundUnits m e (-6)) 127
    if neg && k ≠ 0 then 256 - k else k
  else
    let ex : Int := max ((Nat.log2 m : Int) + e) (1 - c.bias)
    let q := if m = 0 then 0 else roundUnits m e (ex - (c.mbits : Int))
    let code := if m = 0 then 0 else min ((ex + c.bias - 1).toNat * 2 ^ c.mbits + q) c.maxC
    (if neg then 2 ^ (mxBits f - 1) else 0) + code

/-- Whether m × 2^e > n × 2^g. -/
def magGt (m : Nat) (e : Int) (n : Nat) (g : Int) : Bool :=
  let lo := min e g
  m * 2 ^ (e - lo).toNat > n * 2 ^ (g - lo).toNat

/-- MX_ENCODE of R109: the scale byte and the element codes. -/
def mxEncode (f : Nat) (v : List F32) : Nat × List Nat :=
  let xs := v.map fpOf
  let bad := xs.any fun x => match x with | .nan | .inf _ => true | _ => false
  let mag (x : Fp) : Nat × Int := match x with | .fin _ m e => (m, e) | _ => (0, 0)
  let a := xs.foldl (fun b x => let c := mag x; if magGt c.1 c.2 b.1 b.2 then c else b) ((0, 0) : Nat × Int)
  if bad then (255, v.map fun _ => 0)
  else if a.1 = 0 then (0, v.map fun _ => 0)
  else
    let c := mxFmt f
    let x : Int := (Nat.log2 a.1 : Int) + a.2 - c.emax
    let x := if magGt a.1 a.2 c.maxM (c.maxE + x) then x + 1 else x
    let x := min (max x (-127)) 127
    ((x + 127).toNat, xs.map fun e => match e with | .fin n m g => roundElem f n m (g - x) | _ => 0)

/-- Decode one element (R110). -/
def mxElem (f s code : Nat) : F32 :=
  if s = 255 then f32NaN
  else
    let sc : Int := (s : Int) - 127
    if f = 6 then
      let k : Int := if code ≥ 128 then (code : Int) - 256 else (code : Int)
      rnInt k (sc - 6)
    else
      let c := mxFmt f
      let neg := bit code (mxBits f - 1)
      let ex := field code c.mbits c.ebits
      let m := field code 0 c.mbits
      if f = 1 && ex = 15 && m = 7 then f32NaN
      else if f = 2 && ex = 31 then (if m = 0 then f32Inf neg else f32NaN)
      else if ex = 0 then rn neg m (1 - c.bias - (c.mbits : Int) + sc)
      else rn neg (m + 2 ^ c.mbits) ((ex : Int) - c.bias - (c.mbits : Int) + sc)

/-- Pack element codes, lowest first (R108). -/
def packElems (f : Nat) (codes : List Nat) : Bytes :=
  let w := mxBits f
  le (codes.foldr (fun c acc => c % 2 ^ w + acc * 2 ^ w) 0) (codes.length * w / 8)

/-- Unpack `n` element codes. -/
def unpackElems (f n : Nat) (b : Bytes) : List Nat :=
  let w := mxBits f
  let x := leNat b
  (List.range n).map fun i => field x (w * i) w

/-- A vector encoded block by block: its scale bytes, then its element bytes. -/
def mxVector (f : Nat) (v : List F32) : Bytes :=
  let es := (blocks v).map fun b => mxEncode f (b ++ List.replicate (32 - b.length) 0)
  es.map (fun e => BitVec.ofNat 8 e.1) ++ es.flatMap fun e => packElems f e.2

/-- Decode `n` values of a vector from its scale bytes and element bytes. -/
def mxValues (f n : Nat) (b : Bytes) : List F32 :=
  let nb := ceilDiv n 32
  let eb := mxBytes f
  ((List.range nb).flatMap fun k =>
    let s := leAt b k 1
    (unpackElems f 32 (slice b (nb + k * eb) eb)).map (mxElem f s)).take n

/-- A vector as MX_ENCODE to E4M3 leaves it, decoded (R112). -/
def e4m3 (v : List F32) : List F32 := mxValues 1 v.length (mxVector 1 v)

/-- How many blocks of an encoded vector carry S = 0xFF (R128). -/
def nanBlocks (n : Nat) (b : Bytes) : Nat := ((b.take (ceilDiv n 32)).filter (· = 0xFF)).length

/-! ### Sampling draws -/

/-- The AES output of DRAW's block, bytes 0 to 7 as a number (R126). -/
def drawRaw (key blk : Bytes) : Nat := leAt (aes128 key blk) 0 8

/-- DRAW of R126. -/
def draw (key : Bytes) (p d : Nat) : F32 := rn false (drawRaw key (le p 8 ++ le d 4 ++ le 0 4) / 2 ^ 40) (-24)

end Sys2Proof.Machine
end

