-- ==== Sys2Proof/Machine/Weights.lean ====
section
/-!
DEFINITION. Sys2Proof/Machine/Weights.lean: the weight set (R194 to R196), the adapter container (R94) and the
parameters that a context's image entry gives attention (R146 to R149).
-/
namespace Sys2Proof.Machine
open Sys2Proof

/-- An entry of the tensor table (R195). -/
structure Tensor where
  kind   : Nat
  fmt    : Nat
  layer  : Nat
  expert : Nat
  slot   : Nat
  rows   : Nat
  cols   : Nat
  off    : Nat
  bytes  : Nat
deriving DecidableEq, Repr, Inhabited

/-- A weight set read from its bytes (R194). -/
structure Wt where
  raw     : Bytes
  act     : Nat
  norm    : Nat
  topK    : Nat
  layers  : Nat
  experts : Nat
  width   : Nat
  vocab   : Nat
  qHeads  : Nat
  kvHeads : Nat
  headDim : Nat
  recHeads : Nat
  dk      : Nat
  dv      : Nat
  nexact  : Nat
  subBits : Nat
  nbuckets : Nat
  eps     : F32
  ff      : Nat
  shared  : Nat
  kinds   : List Nat
  tensors : List Tensor
deriving DecidableEq, Repr, Inhabited

/-- Read a tensor entry. -/
def readTensor (e : Bytes) : Tensor :=
  { kind := leAt e 0 1, fmt := leAt e 1 1, layer := leAt e 2 2, expert := leAt e 4 2, slot := leAt e 6 1, rows := leAt e 8 4,
    cols := leAt e 12 4, off := leAt e 16 8, bytes := leAt e 24 8 }

/-- Read a weight set. -/
def readWt (b : Bytes) : Wt :=
  { raw := b, act := leAt b 9 1, norm := leAt b 10 1, topK := leAt b 11 1, layers := leAt b 12 2, experts := leAt b 14 1,
    width := leAt b 16 4, vocab := leAt b 20 4, qHeads := leAt b 24 2, kvHeads := leAt b 26 2, headDim := leAt b 28 2,
    recHeads := leAt b 30 2, dk := leAt b 32 2, dv := leAt b 34 2, nexact := leAt b 36 2, subBits := leAt b 38 1,
    nbuckets := leAt b 40 2, eps := BitVec.ofNat 32 (leAt b 44 4), ff := leAt b 48 4, shared := leAt b 52 4,
    kinds := (List.range (leAt b 12 2)).map fun l => leAt b (256 + l) 1,
    tensors := (List.range (leAt b 56 4)).map fun i => readTensor (slice b (leAt b 60 4 + 32 * i) 32) }

/-- Whether a layer's mixer is a recurrence. -/
def Wt.isRec (w : Wt) (l : Nat) : Bool := bit (w.kinds.getD l 0) 0

/-- Whether a layer's MLP is a mixture of experts. -/
def Wt.isMoe (w : Wt) (l : Nat) : Bool := bit (w.kinds.getD l 0) 1

/-- The attention ordinal of a layer: the attention layers below it (R138). -/
def Wt.ordinal (w : Wt) (l : Nat) : Nat := ((List.range l).filter fun i => !w.isRec i).length

/-- The recurrence ordinal of a layer. -/
def Wt.recOrdinal (w : Wt) (l : Nat) : Nat := ((List.range l).filter w.isRec).length

/-- The byte length of a row of a format (R196). -/
def rowBytes (fmt cols : Nat) : Nat :=
  let n := if fmt = 7 then 2 * cols else if fmt = 8 then 4 * cols else ceilDiv cols 32 * (1 + mxBytes fmt)
  64 * ceilDiv n 64

/-- Decode a row of `cols` values. -/
def rowValues (fmt cols : Nat) (b : Bytes) : List F32 :=
  if fmt = 7 then (List.range cols).map fun i => ofBf16 (leAt b (2 * i) 2)
  else if fmt = 8 then (List.range cols).map fun i => BitVec.ofNat 32 (leAt b (4 * i) 4)
  else mxValues fmt cols b

/-- A row of values in a format, its bytes (R196). -/
def rowOf (fmt : Nat) (v : List F32) : Bytes :=
  fit (if fmt = 7 then v.flatMap fun c => le (c.toNat / 65536) 2
       else if fmt = 8 then v.flatMap fun c => le c.toNat 4
       else mxVector fmt v) (rowBytes fmt v.length)

/-- Row `r` of a tensor (R196). -/
def Wt.row (w : Wt) (t : Tensor) (r : Nat) : List F32 :=
  let n := rowBytes t.fmt t.cols
  rowValues t.fmt t.cols (slice w.raw (t.off + r * n) n)

/-- The tensor of a kind, layer, expert and slot; an absent one has no rows. -/
def Wt.tensor? (w : Wt) (kind layer expert slot : Nat) : Option Tensor :=
  w.tensors.find? fun t => t.kind = kind && t.layer = layer && t.expert = expert && t.slot = slot

/-- As `tensor?`; an absent tensor has no rows. -/
def Wt.tensor (w : Wt) (kind layer : Nat) (expert : Nat := 0xFFFF) (slot : Nat := 0) : Tensor :=
  (w.tensor? kind layer expert slot).getD default

/-- All values of a tensor, row after row. -/
def Wt.values (w : Wt) (t : Tensor) : List F32 := (List.range t.rows).flatMap (w.row t)

/-- Whether a tensor of a shape is present. -/
def Wt.has (w : Wt) (kind layer expert slot rows cols : Nat) : Bool :=
  match w.tensor? kind layer expert slot with
  | some t => t.rows = rows && t.cols = cols
  | none => false

/-- Whether a vector of `n` values is present in FP32. -/
def Wt.hasVec (w : Wt) (kind layer slot n : Nat) : Bool :=
  match w.tensor? kind layer 0xFFFF slot with
  | some t => t.rows * t.cols = n && t.fmt = 8
  | none => false

/-- The tensors that a layer's kinds require (R117, R195). -/
def Wt.layerComplete (w : Wt) (l : Nat) : Bool :=
  let n := 0xFFFF
  let norms := w.hasVec 1 l 0 w.width && w.hasVec 1 l 1 w.width &&
    (w.norm = 0 || (w.hasVec 2 l 0 w.width && w.hasVec 2 l 1 w.width))
  let mixer :=
    if w.isRec l then
      w.has 7 l n 0 (w.recHeads * w.dk) w.width && w.has 8 l n 0 (w.recHeads * w.dk) w.width &&
      w.has 9 l n 0 (w.recHeads * w.dk) w.width && w.has 10 l n 0 (w.recHeads * w.dv) w.width &&
      w.has 11 l n 0 (w.recHeads * w.dv) w.width && w.has 12 l n 0 w.width (w.recHeads * w.dv)
    else
      w.has 3 l n 0 (w.qHeads * w.headDim) w.width && w.has 4 l n 0 (w.kvHeads * w.headDim) w.width &&
      w.has 5 l n 0 (w.kvHeads * w.headDim) w.width && w.has 6 l n 0 w.width (w.qHeads * w.headDim) &&
      w.has 24 l n 0 w.qHeads w.nbuckets
  let mlp :=
    if w.isMoe l then
      w.has 13 l n 0 w.experts w.width &&
      (List.range w.experts).all (fun e =>
        w.has 14 l e 0 w.ff w.width && w.has 15 l e 0 w.ff w.width && w.has 16 l e 0 w.width w.ff) &&
      (w.shared = 0 || (w.has 17 l n 0 w.shared w.width && w.has 18 l n 0 w.shared w.width && w.has 19 l n 0 w.width w.shared))
    else w.has 20 l n 0 w.ff w.width && w.has 21 l n 0 w.ff w.width && w.has 22 l n 0 w.width w.ff
  norms && mixer && mlp

/-- Whether a number is a power of two. -/
def isPow2 (n : Nat) : Bool := n ≠ 0 && 2 ^ Nat.log2 n = n

/-- Whether the header of a weight set keeps R194 for a context. -/
def wtHeaderOk (b : Bytes) (c : CtxCfg) : Bool :=
  let w := readWt b
  slice b 0 8 = ascii "YWEIGHTS" && versionOk (leAt b 8 1) && w.act ≤ 2 && w.norm ≤ 1 && w.topK ≤ 8 &&
  ((w.experts = 0) == (w.topK = 0)) && w.layers = c.layers && w.experts = c.experts && w.width % 32 = 0 && 0 < w.width &&
  w.width ≤ 16384 && 0 < w.vocab && w.vocab ≤ 1048576 &&
  ((List.range w.layers).all w.isRec ||
    ((w.headDim = 64 || w.headDim = 128) && 0 < w.kvHeads && 0 < w.qHeads && w.qHeads % w.kvHeads = 0)) &&
  w.dk ≤ 128 && w.dv ≤ 128 && isPow2 w.nexact && w.nexact ≤ 256 && w.subBits ≤ 4 && 2 ^ w.subBits ≤ w.nexact &&
  1 ≤ w.nbuckets && w.nbuckets ≤ 1024 && leAt b 60 4 % 64 = 0

/-- Whether the tensor table keeps R195 and R196. -/
def wtTableOk (b : Bytes) : Bool :=
  let w := readWt b
  let key (t : Tensor) : List Nat := [t.kind, t.layer, t.expert, t.slot]
  leAt b 60 4 + 32 * w.tensors.length ≤ b.length &&
  w.tensors.all (fun t =>
    t.kind ≤ 24 && 1 ≤ t.fmt && t.fmt ≤ 8 && t.off % 64 = 0 && t.bytes = t.rows * rowBytes t.fmt t.cols &&
    t.off + t.bytes ≤ b.length && (t.kind ≠ 24 || t.fmt = 8)) &&
  (w.tensors.zip (w.tensors.drop 1)).all fun p => lexLt (key p.1) (key p.2)

/-- Whether the layer kind table matches a placement (R196). -/
def wtPlaced (w : Wt) (c : Nat) (pl : List PlEntry) : Bool :=
  let has (part l : Nat) : Bool := pl.any fun e => e.ctx = c && e.part = part && e.layer = l
  (List.range w.layers).all fun l => has (if w.isRec l then 1 else 0) l && (w.isMoe l == has 3 l)

/-- Whether the loader accepts a weight set for a context under a placement (R196). -/
def weightSetOk (b : Bytes) (c : CtxCfg) (pl : List PlEntry) : Bool :=
  let w := readWt b
  wtHeaderOk b c && wtTableOk b && w.has 0 0 0xFFFF 0 w.vocab w.width && w.has 23 0 0xFFFF 0 w.vocab w.width &&
  w.hasVec 1 w.layers 0 w.width && (w.norm = 0 || w.hasVec 2 w.layers 0 w.width) &&
  (List.range w.layers).all w.layerComplete && wtPlaced w c.id pl

/-! ### What the image gives attention (R148, R149) -/

/-- Round up to a multiple of 128. -/
def up128 (n : Nat) : Nat := 128 * ceilDiv n 128

/-- The sink window as taken. -/
def CtxCfg.sinkW (c : CtxCfg) : Nat := up128 c.sink

/-- The recent window as taken. -/
def CtxCfg.recentW (c : CtxCfg) : Nat := if c.recent = 0 then 128 else up128 c.recent

/-- The least budget. -/
def CtxCfg.minBudget (c : CtxCfg) : Nat := c.sinkW + c.recentW + 128

/-- MODE as taken, for a context with `a` attention layers. -/
def CtxCfg.modeT (c : CtxCfg) (a : Nat) : Nat :=
  if a = 0 ∨ c.minBudget > c.maxPos then 2 else if c.mode ≥ 3 then 0 else c.mode

/-- SCORE_LAYER as taken. -/
def CtxCfg.scoreT (c : CtxCfg) (a : Nat) : Nat := if c.scoreLayer ≥ a then a - 1 else c.scoreLayer

/-- DEFAULT_BUDGET as taken. -/
def CtxCfg.defaultBudget (c : CtxCfg) : Nat := min (max (up128 c.defBudget) c.minBudget) c.maxPos

/-- DECAY as taken. -/
def CtxCfg.decayT (c : CtxCfg) : F32 :=
  if isNaN c.decay || flt c.decay 0 || flt f32One c.decay then f32One else c.decay

/-- The budget an OPEN gets (R149); none where it is refused. -/
def CtxCfg.budgetFor (c : CtxCfg) (a b : Nat) : Option Nat :=
  if c.modeT a = 2 then some c.maxPos
  else if b = 0 then some c.defaultBudget
  else if up128 b < c.minBudget ∨ up128 b > c.maxPos then none
  else some (up128 b)

/-- How many attention layers a context has, by its PART 0 entries (R25, R196). -/
def attnLayers (i : Image) (c : Nat) : Nat := (i.primary.filter fun e => e.ctx = c && e.part = 0).length

/-! ### The adapter container (R94) -/

/-- A target of an adapter. -/
structure AdTarget where
  layer : Nat
  proj  : Nat
  rank  : Nat
  off   : Nat
  bytes : Nat
deriving DecidableEq, Repr, Inhabited

/-- The fields of an adapter's header. -/
structure AdHdr where
  ctx   : Nat
  id    : Nat
  ver   : Nat
  len   : Nat
  count : Nat
  base  : Bytes
  key   : Bytes
deriving DecidableEq, Repr, Inhabited

/-- Read an adapter's header. -/
def readAdHdr (b : Bytes) : AdHdr :=
  { ctx := leAt b 9 1 % 4, id := leAt b 10 2, ver := leAt b 12 4, len := leAt b 16 4, count := leAt b 20 2, base := slice b 24 32,
    key := slice b 56 8 }

/-- The targets of an adapter. -/
def adTargets (b : Bytes) : List AdTarget :=
  (List.range (leAt b 20 2)).map fun i =>
    let e := slice b (128 + 16 * i) 16
    { layer := leAt e 0 2, proj := leAt e 2 1, rank := leAt e 3 1, off := leAt e 4 4, bytes := leAt e 8 4 }

/-- The adapter digest: the SHA-256 of everything before the signature. -/
def adDigest (b : Bytes) : Bytes := sha256 (b.take ((readAdHdr b).len - 16224))

end Sys2Proof.Machine
end

