-- ==== Sys2Proof/Machine/Forward.lean ====
section
/-!
DEFINITION. Sys2Proof/Machine/Forward.lean: the token path (R117 to R129), attention over the retained rows (R119,
R120), their scores and evictions (R146 to R152), and the layout of KV pages (R138 to R141).
-/
namespace Sys2Proof.Machine
open Sys2Proof

/-! ### Products -/

/-- A product of a tensor with an encoded vector: one DOT a row (R112, R114). -/
def Wt.product (w : Wt) (t : Tensor) (xh : List F32) : List F32 := (List.range t.rows).map fun r => dot (w.row t r) xh

/-- Element-wise RN(a + b). -/
def addV (a b : List F32) : List F32 := a.zipWith fadd b

/-- The adapter product of R95 for a projection: B(A x), none where the adapter has no such target. -/
def adapterTerm (ad : Bytes) (layer proj outW : Nat) (xh : List F32) : Option (List F32) :=
  ((adTargets ad).find? fun t => t.layer = layer && t.proj = proj).map fun t =>
    let na := rowBytes 1 xh.length
    let nb := rowBytes 1 t.rank
    let a := (List.range t.rank).map fun r => dot (mxValues 1 xh.length (slice ad (t.off + r * na) na)) xh
    let ah := e4m3 a
    (List.range outW).map fun r => dot (mxValues 1 t.rank (slice ad (t.off + t.rank * na + r * nb) nb)) ah

/-- A projection: the tensor's product of the encoded input, and the adapter's term where one targets it (R95). -/
def Wt.project (w : Wt) (ad : Option Bytes) (kind layer proj : Nat) (x : List F32) : List F32 :=
  let xh := e4m3 x
  let y := w.product (w.tensor kind layer) xh
  match ad.bind fun b => adapterTerm b layer proj y.length xh with
  | some d => addV y d
  | none => y

/-! ### Normalisation (R118) -/

/-- The normalisation of a slot of a layer; LAYER = LAYERS names the final one. -/
def Wt.normalise (w : Wt) (layer slot : Nat) (x : List F32) : List F32 :=
  let invN := recip (f32OfNat x.length)
  let g := w.values (w.tensor 1 layer 0xFFFF slot)
  let rOf (v : List F32) : F32 := rsqrt (fadd (fmul (treeSum (v.map fun a => fmul a a)) invN) w.eps)
  if w.norm = 0 then
    let r := rOf x
    x.zipWith (fun a c => fmul (fmul a r) c) g
  else
    let b := w.values (w.tensor 2 layer 0xFFFF slot)
    let mu := fmul (treeSum x) invN
    let d := x.map fun a => fsub a mu
    let r := rOf d
    addV (d.zipWith (fun a c => fmul (fmul a r) c) g) b

/-! ### Distance bias (R146, R147) -/

/-- BUCKET of R146. -/
def Wt.bucket (w : Wt) (delta : Nat) : Nat :=
  let b :=
    if delta < w.nexact then delta
    else
      let e := Nat.log2 delta
      w.nexact + 2 ^ w.subBits * (e - Nat.log2 w.nexact) + (delta * 2 ^ w.subBits / 2 ^ e - 2 ^ w.subBits)
  min b (w.nbuckets - 1)

/-- BIAS[a][h] of an attention layer: the row of head `h`. -/
def Wt.biasRow (w : Wt) (layer h : Nat) : List F32 := w.row (w.tensor 24 layer) h

/-! ### Attention (R119, R120) -/

/-- The decoded keys and values of one retained position for one ordinal. -/
structure PosKV where
  i : Nat
  k : List F32
  v : List F32
deriving DecidableEq, Repr, Inhabited

/-- A chunk's partial for one head, with the block sums q of l (R119, R151). -/
structure Part where
  c : Nat
  m : F32
  l : F32
  o : List F32
  q : List F32
deriving DecidableEq, Repr, Inhabited

/-- CHUNK of R119 for one head, over the retained positions of the chunk and their scores. A block without retained
positions sums to +0. -/
def chunkPart (c d : Nat) (ps : List (PosKV × F32)) : Option Part :=
  match ps with
  | [] => none
  | p0 :: _ =>
    let m := ps.foldl (fun a p => fmax a p.2) p0.2
    if m = f32Inf true then none
    else
      let es := ps.map fun p => (p.1, bf16 (fexp (fsub p.2 m)))
      let blk (b : Nat) : List (PosKV × F32) := es.filter fun p => p.1.i % 4096 / 32 = b
      let sums (f : PosKV → F32) (b : Nat) : F32 :=
        let x := blk b
        if x.isEmpty then 0 else blockSum (x.map (·.2)) (x.map fun p => f p.1)
      let bs := List.range 128
      let q := bs.map (sums fun _ => f32One)
      some { c := c, m := m, l := treeSum q, o := (List.range d).map (fun j => treeSum (bs.map (sums fun p => p.v.getD j 0))),
             q := q }

/-- MERGE of R120. -/
def mergePart (x y : Part) : Part :=
  let m := fmax x.m y.m
  let a := fexp (fsub x.m m)
  let b := fexp (fsub y.m m)
  { c := x.c, m := m, l := fadd (fmul x.l a) (fmul y.l b), o := x.o.zipWith (fun p q => fadd (fmul p a) (fmul q b)) y.o, q := [] }

/-- A head's partials, the root of their MERGE tree, and its output. -/
structure HeadOut where
  parts : List Part
  root  : Option Part
  out   : List F32
deriving DecidableEq, Repr, Inhabited

/-- Attention of one query head at position `p` over the retained positions (R119, R120). -/
def headAttend (w : Wt) (layer h p : Nat) (q : List F32) (ps : List PosKV) : HeadOut :=
  let d := w.headDim
  let g := h * w.kvHeads / w.qHeads
  let scale := rsqrt (f32OfNat d)
  let bias := w.biasRow layer h
  let qh := e4m3 q
  let part (v : List F32) : List F32 := (v.drop (g * d)).take d
  let scored := ps.map fun x =>
    let x' : PosKV := { x with k := part x.k, v := part x.v }
    (x', fadd (fmul (dot qh x'.k) scale) (bias.getD (w.bucket (p - x.i)) 0))
  let parts := (List.range (p / 4096 + 1)).filterMap fun c => chunkPart c d (scored.filter fun x => x.1.i / 4096 = c)
  let root := treeFold mergePart parts.length parts
  { parts := parts, root := root,
    out := match root with
      | none => List.replicate d 0
      | some r => let i := recip r.l; r.o.map fun x => fmul x i }

/-- The decoded keys and values of a row's positions for an ordinal. -/
def rowKV (w : Wt) (fmt a : Nat) (r : Row) : List PosKV :=
  let n := w.kvHeads * w.headDim
  (List.range r.kv.length).map fun t =>
    let x := (r.kv.getD t []).getD a ([], [])
    { i := 128 * r.v + t, k := mxValues fmt n x.1, v := mxValues fmt n x.2 }

/-! ### Mixers and MLPs -/

/-- The gated recurrence of R121 for one layer: the state after the position, and the heads' outputs. -/
def recurrence (w : Wt) (layer : Nat) (x st : List F32) : List F32 × List F32 :=
  let p (kind : Nat) : List F32 := w.project none kind layer 0xFF x
  let q := p 7
  let k := p 8
  let al := p 9
  let v := p 10
  let g := p 11
  let heads := (List.range w.recHeads).map fun h =>
    let at_ (l : List F32) (n i : Nat) : F32 := l.getD (h * n + i) 0
    let s := (List.range w.dk).map fun i =>
      let a := sigmoid (at_ al w.dk i)
      (List.range w.dv).map fun j =>
        fadd (fmul a (st.getD ((h * w.dk + i) * w.dv + j) 0)) (fmul (at_ k w.dk i) (at_ v w.dv j))
    let y := (List.range w.dv).map fun j =>
      fmul (treeSum ((List.range w.dk).map fun i => fmul (at_ q w.dk i) ((s.getD i []).getD j 0))) (silu (at_ g w.dv j))
    (s.flatten, y)
  ((heads.map (·.1)).flatten, (heads.map (·.2)).flatten)

/-- A gated MLP of R122 from its three tensors; `pj` numbers the first adapter projection of a shared MLP. -/
def gatedMlp (w : Wt) (ad : Option Bytes) (kg layer expert pj : Nat) (x : List F32) : List F32 :=
  let xh := e4m3 x
  let term (p : Nat) (y xh : List F32) : List F32 :=
    match ad.bind fun b => adapterTerm b layer p y.length xh with
    | some d => addV y d
    | none => y
  let gate := term pj (w.product (w.tensor kg layer expert) xh) xh
  let up := term (pj + 1) (w.product (w.tensor (kg + 1) layer expert) xh) xh
  let h := e4m3 (gate.zipWith (fun a b => fmul (act w.act a) b) up)
  term (pj + 2) (w.product (w.tensor (kg + 2) layer expert) h) h

/-- The k experts of greatest router logit, equal values by ascending index; the indices ascend (R122). A NaN logit
stands below every number (log entry 15). -/
def topExperts (k : Nat) (r : List F32) : List Nat :=
  let x := (List.range r.length).map fun e => (e, r.getD e 0)
  let before (a b : Nat × F32) : Bool :=
    if isNaN b.2 then !isNaN a.2 || a.1 ≤ b.1 else !isNaN a.2 && (flt b.2 a.2 || (feq a.2 b.2 && a.1 ≤ b.1))
  sortBy (fun a b => decide (a ≤ b)) (((sortBy before x).take k).map (·.1))

/-- The MLP of a layer (R122). -/
def mlp (w : Wt) (ad : Option Bytes) (layer : Nat) (x : List F32) : List F32 :=
  if w.isMoe layer then
    let r := w.product (w.tensor 13 layer) (e4m3 x)
    let es := topExperts w.topK r
    let logits := es.map fun e => r.getD e 0
    let m := logits.foldl fmax (logits.headD 0)
    let ws := logits.map fun v => fexp (fsub v m)
    let inv := recip (treeSum ws)
    let gs := ws.map fun v => fmul v inv
    let ys := es.map fun e => gatedMlp w none 14 layer e 0xF0 x
    let y := (List.range w.width).map fun j =>
      treeSum ((gs.zip ys).map fun p => fmul p.1 (p.2.getD j 0))
    if w.shared = 0 then y else addV y (gatedMlp w ad 17 layer 0xFFFF 4 x)
  else gatedMlp w none 20 layer 0xFFFF 0xF0 x

/-! ### One position (R129, R150) -/

/-- What carries from layer to layer at one position. -/
structure PosRun where
  x     : List F32
  kv    : List (Bytes × Bytes) := []
  rec_  : List F32
  nans  : Nat := 0
  score : List HeadOut := []
deriving DecidableEq, Repr, Inhabited

/-- The embedding of an id (R123). -/
def Wt.embed (w : Wt) (id : Nat) : List F32 :=
  if id < w.vocab then w.row (w.tensor 0 0) id else List.replicate w.width 0

/-- One layer at position `p` over the retained rows (R117). -/
def layerAt (w : Wt) (c : CtxCfg) (ad : Option Bytes) (p : Nat) (rows : List Row) (r : PosRun) (l : Nat) : PosRun :=
  let n := w.normalise l 0 r.x
  let r :=
    if w.isRec l then
      let size := w.recHeads * w.dk * w.dv
      let o := w.recOrdinal l
      let (st, y) := recurrence w l n ((r.rec_.drop (o * size)).take size)
      let mix := w.project none 12 l 0xFF y
      { r with x := addV r.x mix, rec_ := r.rec_.take (o * size) ++ st ++ r.rec_.drop ((o + 1) * size) }
    else
      let a := w.ordinal l
      let q := w.project ad 3 l 0 n
      let kb := mxVector c.kvFormat (w.project ad 4 l 1 n)
      let vb := mxVector c.kvFormat (w.project ad 5 l 2 n)
      let m := w.kvHeads * w.headDim
      let own : PosKV := { i := p, k := mxValues c.kvFormat m kb, v := mxValues c.kvFormat m vb }
      let ps := (rows.flatMap fun row => rowKV w c.kvFormat a row) ++ [own]
      let hs := (List.range w.qHeads).map fun h =>
        headAttend w l h p ((q.drop (h * w.headDim)).take w.headDim) ps
      let mix := w.project ad 6 l 3 (hs.flatMap (·.out))
      { r with x := addV r.x mix, kv := r.kv ++ [(kb, vb)], nans := r.nans + nanBlocks m kb + nanBlocks m vb,
               score := if a = c.scoreT (w.ordinal w.layers) then hs else r.score }
  { r with x := addV r.x (mlp w ad l (w.normalise l 1 r.x)) }

/-- SCORE_UPDATE of R151 on the rows of R(p). -/
def scoreUpdate (c : CtxCfg) (hs : List HeadOut) (rows : List Row) : List Row :=
  rows.map fun r =>
    let cn := r.v / 32
    let k := r.v % 32
    let rho := hs.map fun h =>
      match h.parts.find? (·.c = cn), h.root with
      | some pt, some root =>
        let q (j : Nat) : F32 := pt.q.getD (4 * k + j) 0
        let rv := fadd (fadd (q 0) (q 1)) (fadd (q 2) (q 3))
        fmul (fmul rv (fexp (fsub pt.m root.m))) (recip root.l)
      | _, _ => 0
    { r with score := fadd (fmul r.score c.decayT) (treeSum rho) }

/-- A write to some units of a page: those of a copy in T0 that has a backing are dirty (R176). -/
def pageWrite (units : List Nat) (p : Page) : Page :=
  if p.tier = 0 && p.slot.isSome then { p with dirty := (p.dirty ++ units).eraseDups } else p

/-- A position's keys and values enter their row; the pages of a new row are allocated together (R138). -/
def addPos (p : Nat) (kv : List (Bytes × Bytes)) (units : List Nat) (rows : List Row) : List Row :=
  if rows.any (·.v = p / 128) then
    rows.map fun r =>
      if r.v = p / 128 then { r with written := r.written + 1, kv := r.kv ++ [kv], pages := r.pages.map (pageWrite units) } else r
  else rows ++ [{ v := p / 128, written := 1, kv := [kv], pages := List.replicate kv.length {} }]

/-- Retained positions: the positions written in the retained rows. -/
def retained (rows : List Row) : Nat := sumN (rows.map (·.written))

/-- The row that R150 evicts after position `p`, where one is. -/
def victim (c : CtxCfg) (a budget p : Nat) (rows : List Row) : Option Nat :=
  if c.modeT a ≠ 2 && retained rows > budget then
    let e := rows.filter fun r => c.sinkW ≤ 128 * r.v && 128 * r.v + 127 + c.recentW < p + 1
    let better (x y : Row) : Bool :=
      if isNaN x.score then !isNaN y.score || x.v < y.v
      else !isNaN y.score && (flt x.score y.score || (feq x.score y.score && x.v < y.v))
    (e.foldl (fun (b : Option Row) r =>
      match b with
      | none => some r
      | some y => if better r y then some r else b) none).map (·.v)
  else none

/-- The 4 KiB units of a page that position `p` writes (R139, R176). -/
def pageUnits (w : Wt) (fmt p : Nat) : List Nat :=
  let per := w.kvHeads * w.headDim / 32
  let nb := 128 * per
  let eb := mxBytes fmt
  let half := nb * (1 + eb)
  let t := p % 128
  let span (o n : Nat) : List Nat := (List.range ((o + n - 1) / 4096 - o / 4096 + 1)).map (· + o / 4096)
  (span (t * per) per ++ span (nb + t * per * eb) (per * eb) ++ span (half + t * per) per ++
    span (half + nb + t * per * eb) (per * eb)).eraseDups

/-- The outcome of one position. -/
structure PosOut where
  st      : Store
  x       : List F32
  nans    : Nat
  evicted : Option Nat
deriving DecidableEq, Repr, Inhabited

/-- Write token `id` at position `p` (R129, R150). -/
def writePos (w : Wt) (c : CtxCfg) (ad : Option Bytes) (budget p id : Nat) (st : Store) : PosOut :=
  let a := w.ordinal w.layers
  let size := (w.recHeads * w.dk * w.dv) * w.recOrdinal w.layers
  let rec0 := if st.recState.isEmpty then List.replicate size 0 else st.recState
  let r := (List.range w.layers).foldl (layerAt w c ad p st.rows) { x := w.embed id, rec_ := rec0 }
  let rows := if a = 0 then [] else addPos p r.kv (pageUnits w c.kvFormat p) st.rows
  let rows := if c.modeT a = 0 then scoreUpdate c r.score rows else rows
  let v := victim c a budget p rows
  { st := { st with rows := (match v with | some x => rows.filter (·.v ≠ x) | none => rows), recState := r.rec_,
                    recDirty := if st.recBacked then List.range (ceilDiv (4 * size) 4096) else [] },
    x := r.x, nans := r.nans, evicted := v }

/-- The logits of a sampled position (R123). -/
def Wt.logits (w : Wt) (x : List F32) : List F32 := w.product (w.tensor 23 0) (e4m3 (w.normalise w.layers 0 x))

/-! ### Sampling (R124 to R128) -/

/-- The parameters as taken (R124). -/
def takenSampling (v : Nat) (p : Sampling) : Sampling :=
  let posFinite (x : F32) : Bool := match fpOf x with | .fin neg m _ => !neg && m ≠ 0 | _ => false
  { invTemp := if posFinite p.invTemp then p.invTemp else 0
    topK := min p.topK v
    topP := if isNaN p.topP || fle p.topP 0 || flt f32One p.topP then f32One else p.topP }

/-- What SAMPLE answers: the token, whether a logit was NaN, whether it returned by the numeric-event line. -/
structure Sampled where
  token : Nat
  nan   : Bool
  event : Bool
deriving DecidableEq, Repr, Inhabited

/-- Cumulative sums, one addition after another, newest last. -/
def cumulate : F32 → List F32 → List F32
  | _, [] => []
  | a, x :: l => let s := fadd a x; s :: cumulate s l

/-- SAMPLE of R125. -/
def sample (logit : List F32) (par : Sampling) (key : Bytes) (p : Nat) : Sampled :=
  let par := takenSampling logit.length par
  let nan := logit.any isNaN
  let z := logit.map fun x => if isNaN x then f32Inf true else x
  let z := if par.invTemp = 0 then z else z.map fun x => fmul x par.invTemp
  let idx := (List.range z.length).map fun i => (i, z.getD i 0)
  let before (a b : Nat × F32) : Bool := flt b.2 a.2 || (feq a.2 b.2 && a.1 ≤ b.1)
  if par.invTemp = 0 then
    let best := idx.foldl (fun (b : Option (Nat × F32)) x =>
      match b with
      | none => some x
      | some y => if flt y.2 x.2 then some x else b) none
    { token := (best.map (·.1)).getD 0, nan := nan, event := false }
  else
    let order := sortBy before idx
    let o0 := order.headD (0, 0)
    let m := o0.2
    if m = f32Inf false ∨ m = f32Inf true then { token := o0.1, nan := nan, event := true }
    else
      let k := if par.topK = 0 then z.length else par.topK
      let ws := (order.take k).map fun x => fexp (fsub x.2 m)
      let cs := match ws with
        | [] => []
        | w0 :: l => w0 :: cumulate w0 l
      let last := cs.getLastD 0
      let lim := fmul par.topP last
      let n := 1 + (cs.findIdx? fun x => fle lim x).getD (cs.length - 1)
      let t := fmul (draw key p 0) (cs.getD (n - 1) 0)
      let j := ((cs.take n).findIdx? fun x => flt t x).getD (n - 1)
      { token := (order.getD j (0, 0)).1, nan := nan, event := false }

/-! ### Pages and stripes (R139, R153) -/

/-- 4 KiB units of a page. -/
def unitsPerPage (w : Wt) (fmt : Nat) : Nat := ceilDiv (2 * 128 * (w.kvHeads * w.headDim / 32) * (1 + mxBytes fmt)) 4096

/-- One half of a page: the scale bytes, then the elements. -/
def halfPage (w : Wt) (fmt : Nat) (vs : List Bytes) : Bytes :=
  let per := w.kvHeads * w.headDim / 32
  let eb := mxBytes fmt
  fit (vs.flatMap fun b => b.take per) (128 * per) ++ fit (vs.flatMap fun b => (b.drop per).take (per * eb)) (128 * per * eb)

/-- The bytes of a row's page for an ordinal, padded to its 4 KiB units. -/
def pageBytes (w : Wt) (fmt a : Nat) (r : Row) : Bytes :=
  let xs := r.kv.map fun p => p.getD a ([], [])
  fit (halfPage w fmt (xs.map (·.1)) ++ halfPage w fmt (xs.map (·.2))) (4096 * unitsPerPage w fmt)

/-- The bytes of a recurrent state. -/
def stateBytes (w : Wt) (st : Store) : Bytes :=
  fit (st.recState.flatMap fun x => le x.toNat 4) (4 * (w.recHeads * w.dk * w.dv) * w.recOrdinal w.layers)

/-- A session's stripe: its pages in ascending row and ordinal, then its recurrent state (R153). -/
def stripe (w : Wt) (fmt : Nat) (st : Store) : Bytes :=
  (st.rows.flatMap fun r => (List.range (w.ordinal w.layers)).flatMap fun a => pageBytes w fmt a r) ++ stateBytes w st

/-- The 64 KiB tiles of a stripe. -/
def stripeTiles (w : Wt) (fmt : Nat) (st : Store) : Nat :=
  ceilDiv (st.rows.length * w.ordinal w.layers * unitsPerPage w fmt * 4096 + 4 * (w.recHeads * w.dk * w.dv) * w.recOrdinal w.layers) 65536

end Sys2Proof.Machine
end

