-- ==== Sys2Proof/Machine/MemCore.lean ====
section
/-!
DEFINITION. Sys2Proof/Machine/MemCore.lean: where storage lies: the placement in force (R28), the tiles of pages and
states (R154), free KV space (R156), T1 allocation (R173, R174), the page table and its look-aside buffers (R141 to R145), T2 blocks (R188
to R190) and the metadata pool (R159).
-/
namespace Sys2Proof.Machine
open Sys2Proof

/-! ### Placement and tiles -/

/-- The placement in force (R28). -/
def placementNow (s : State) : List PlEntry :=
  match s.img.active with | some i => i.placement s.img.placeKind s.img.placeIdx | none => []

/-- A context's weight set. -/
def wtOf (s : State) (c : Nat) : Wt := readWt (ctxOf s c).weights

/-- A context's KV format. -/
def fmtOf (s : State) (c : Nat) : Nat := ((ctxCfg? s c).map (·.kvFormat)).getD 0

/-- The tiles of a mask, ascending. -/
def maskTiles (m : Nat) : List Nat := bitsOf m 48

/-- The tiles of a part of a layer of a context, in the placement in force. -/
def partTiles (s : State) (c part l : Nat) : List Nat :=
  match (placementNow s).find? fun e => e.ctx = c && e.part = part && e.layer = l with
  | some e => maskTiles e.mask
  | none => []

/-- Output rows of the `k`-th of `n` tiles of a part with `rows` rows: equal shares, the remainder to the lowest-numbered tiles (R26). -/
def rowShare (rows n k : Nat) : Nat := rows / n + (if k < rows % n then 1 else 0)

/-- The first output row of the `k`-th tile's share. -/
def rowFirst (rows n k : Nat) : Nat := k * (rows / n) + min k (rows % n)

/-- The output rows of a part that a tile of its mask computes in the placement in force: first row and count (R26). -/
def rowsOn (s : State) (c part l rows t : Nat) : Option (Nat × Nat) :=
  let ts := partTiles s c part l
  (ts.findIdx? (· = t)).map fun k => (rowFirst rows ts.length k, rowShare rows ts.length k)

/-- The tile that holds a layer's pages of a chunk for session index `i` (R154). -/
def pageTile (ts : List Nat) (chunk i : Nat) : Option Nat := ts[(chunk + i) % max 1 ts.length]?

/-- The attention layers of a context, ascending. -/
def attnLayersOf (w : Wt) : List Nat := (List.range w.layers).filter fun l => !w.isRec l

/-- The count A of a context's attention layers (R138). -/
def attnCount (s : State) (c : Nat) : Nat := (attnLayersOf (wtOf s c)).length

/-- The recurrence layers of a context, ascending. -/
def recLayersOf (w : Wt) : List Nat := (List.range w.layers).filter w.isRec

/-- A row's page for an ordinal. -/
def pageOf (r : Row) (a : Nat) : Page := r.pages.getD a {}

/-- Whether a page has a copy in T0 whose units its backing all holds (R176). -/
def pageClean (p : Page) : Bool := p.slot.isSome && p.dirty.isEmpty

/-- The matrix cell that computes a chunk on its tile, for `n` tiles in the mask (R154). -/
def chunkCell (n chunk i : Nat) : Nat := (chunk + i) / max 1 n % 4

/-- The tile whose merge cell runs the MERGE tree and whose vector cells run SCORE_UPDATE, for session index `i` (R154). -/
def mergeTile (ts : List Nat) (i : Nat) : Option Nat := pageTile ts 0 i

/-- The ordinals whose page of row `v` is assigned to a tile, in the placement in force (R154). -/
def ordsOn (s : State) (c idx t v : Nat) : List Nat :=
  let attn := attnLayersOf (wtOf s c)
  (List.range attn.length).filter fun a => pageTile (partTiles s c 0 (attn.getD a 0)) (v / 32) idx = some t

/-- Whether a page lies in T0 on a tile. -/
def pageOnTile (t : Nat) (p : Page) : Bool := p.tier = 0 && p.addr / 2 ^ 31 = t

/-- Whether a page lies in T0 in a bank. -/
def pageInBank (b : Nat) (p : Page) : Bool := p.tier = 0 && p.addr / 2 ^ 25 = b

/-- The pages of a row in T0 on a tile. -/
def rowPagesOn (t : Nat) (r : Row) : Nat := r.pages.countP (pageOnTile t)

/-- Bytes of recurrent state on a tile: a layer's state lies on tile s mod n of its mask (log entry 16). -/
def stateOn (s : State) (c idx t : Nat) : Nat :=
  let w := wtOf s c
  4 * (w.recHeads * w.dk * w.dv) * ((recLayersOf w).filter fun l => pageTile (partTiles s c 1 l) 0 idx = some t).length

/-- Whether a session's storage lies in T0. -/
def inT0 (x : Sess) : Bool := x.e.place = 0 && x.e.state ≠ .free

/-- Bytes of a page of a session. -/
def unitBytes (s : State) (x : Sess) : Nat := 4096 * unitsPerPage (wtOf s x.e.ctx) (fmtOf s x.e.ctx)

/-- Bytes on a tile of the evicted pages that a checkpoint's capture still has to read (R376). -/
def keptOn (s : State) (x : Sess) (t : Nat) : Nat := unitBytes s x * sumN (x.st.kept.map (rowPagesOn t))

/-- Bytes of KV and recurrent state of a session on a tile of T0. -/
def sessOn (s : State) (idx : Nat) (x : Sess) (t : Nat) : Nat :=
  if inT0 x then
    unitBytes s x * sumN (x.st.rows.map (rowPagesOn t)) + stateOn s x.e.ctx idx t + keptOn s x t
  else keptOn s x t

/-- Whether a checkpoint's capture still has to read a session's storage (R376). -/
def captureReads (s : State) (h : Word) : Bool := s.ckp.st = 2 && s.ckp.todo.any (·.h = h)

/-- A bank cell. -/
def bankOf (s : State) (b : Nat) : Bank := findD b s.mem.banks {}

/-- Change a bank cell. -/
def modBank (b : Nat) (f : Bank → Bank) (s : State) : State :=
  { s with mem := { s.mem with banks := putN b (f (bankOf s b)) s.mem.banks } }

/-- Whether a cell of a tile is fenced. -/
def cellFenced (s : State) (t c : Nat) : Bool := (find? (t, c) s.err.cells).isSome || s.err.tiles.contains t

/-- The unfenced one of `n` cells of a tile from cell `base` on that does the work of the `k`-th: itself, else the next in ascending index
order, wrapping after the last (R433). -/
def takesOver (s : State) (t base n k : Nat) : Option Nat :=
  ((List.range n).map fun i => (k + i) % n).find? fun c => !cellFenced s t (base + c)

/-- The matrix cell that computes a chunk on a tile of `n`, with what is fenced (R154, R433). -/
def chunkRuns (s : State) (t n chunk i : Nat) : Option Nat := takesOver s t 0 4 (chunkCell n chunk i)

/-- The vector cell that does the work of the `k`-th on a tile (R433). -/
def vectorRuns (s : State) (t k : Nat) : Option Nat := takesOver s t 4 2 (k % 2)

/-- The DMA cell that does the transfers of the `k`-th on a tile (R433). -/
def dmaRuns (s : State) (t k : Nat) : Option Nat := takesOver s t 72 2 (k % 2)

/-- Whether a bank cell is fenced (R433). -/
def bankFenced (s : State) (b : Nat) : Bool := cellFenced s (b / 64) (6 + b % 64)

/-- The KV banks of a context on a tile. -/
def kvBanksOf (s : State) (t c : Nat) : List Nat :=
  ((List.range 64).map (64 * t + ·)).filter fun b => (bankOf s b).use = 2 && (bankOf s b).ctx = c && !bankFenced s b

/-- The bank of a tile that holds a page or a recurrent state (log entry 3). -/
def storageBank (s : State) (t c idx v a : Nat) : Option Nat :=
  let l := kvBanksOf s t c
  l[Config.kvBank idx v a % max 1 l.length]?

/-- The banks of a tile that hold KV and recurrent state. -/
def kvBanks (s : State) (t : Nat) : Nat :=
  ((List.range 64).filter fun i => (bankOf s (64 * t + i)).use = 2 && !bankFenced s (64 * t + i)).length

/-- KV and recurrent-state bytes in use on a tile. -/
def kvUsed (s : State) (t : Nat) : Nat := sumN (s.ses.table.map fun p => sessOn s p.1 p.2 t)

/-- Free KV space of a tile in bytes (R156). -/
def kvFree (s : State) (t : Nat) : Nat := kvBanks s t * 2 ^ 25 - kvUsed s t

/-- SPILL_LOW_MIB of the ATN_CFG in force, in bytes (R161). -/
def spillLow (s : State) : Nat := wfield s.stp.atn 0 12 * 2 ^ 20

/-- SPILL_HIGH_MIB as taken, in bytes. -/
def spillHigh (s : State) : Nat :=
  let lo := wfield s.stp.atn 0 12
  let hi := wfield s.stp.atn 12 12
  (if hi ≤ lo then lo + 1 else hi) * 2 ^ 20

/-- SCRUB_PERIOD_S as taken, in ns (R197). -/
def scrubPeriod (s : State) : Nat := max 1 (wfield s.regs.memCfg 16 20) * 1000000000

/-! ### T1 (R173, R174) -/

/-- 64 KiB tiles of one region's T1: 192 GiB. -/
def regionTiles : Nat := 3145728

/-- Whether a region is fenced. -/
def regionOut (s : State) (r : Nat) : Bool := s.err.regions.contains r

/-- The region that stands for region `r` under the spread rule: the next unfenced one (R173). -/
def spreadRegion (s : State) (r : Nat) : Nat := ((List.range 8).find? fun i => !regionOut s ((r + i) % 8)).map (fun i => (r + i) % 8) |>.getD r

/-- How many of `n` tiles that start at region `k` lie in region `r` (R173). -/
def spreadShare (s : State) (k n r : Nat) : Nat :=
  sumN ((List.range 8).map fun q => if spreadRegion s q = r then (n + 7 - (q + 8 - k % 8) % 8) / 8 else 0)

/-- The region of tile `k` of a session's storage (R173). -/
def tileRegion (s : State) (idx k : Nat) : Nat := spreadRegion s ((k + idx) % 8)

/-- How many of a session's tiles lie in a region. -/
def tilesIn (s : State) (idx r : Nat) (ks : List Nat) : Nat := ks.countP fun k => tileRegion s idx k = r

/-- One copy of the mirrored areas, in tiles. -/
def mirrorTiles (s : State) : Nat :=
  let l := match s.img.active with | some i => i.log2 | none => 0
  if l = 0 then 0 else (2 ^ l * 256 + 2 ^ (l + 1) * 16 + 2 ^ l * 512) / 65536

/-- The spread system areas, in tiles: stage buffer, exactly-once tables, metadata pool, audit log. -/
def spreadAreas : Nat := (16 + 64 + 1024 + 256) * 16

/-- The system areas' tiles in a region. -/
def areaTiles (s : State) (r : Nat) : Nat :=
  spreadShare s 0 spreadAreas r + 4 * 64 * 16 + (if s.mem.mirrorA = r then mirrorTiles s else 0) +
  (if s.mem.mirrorB = r then mirrorTiles s else 0)

/-- The channels of an index, ascending (R211). -/
def VIndex.chans (x : VIndex) : List Nat := bitsOf x.mask 32

/-- MASKBIT(k mod n_ch) of R211. -/
def VIndex.chanOf (x : VIndex) (k : Nat) : Nat := x.chans.getD (k % max 1 x.chans.length) 0

/-- Bytes of a sketch. -/
def VIndex.skBytes (x : VIndex) : Nat := x.bits / 8

/-- Bytes of a stored vector. -/
def VIndex.vecBytes (x : VIndex) : Nat := rowBytes x.format x.dim

/-- Bytes of an index's descriptor, centroids, centre and centroid sketches. -/
def VIndex.headBytes (x : VIndex) : Nat :=
  256 + x.nlist * x.vecBytes + (if x.centre.isEmpty then 0 else rowBytes 8 x.dim) + x.nlist * x.skBytes

/-- The T1 tiles of an index that R173 spreads: its header with centroids and sketches, and its delete log of 64 MiB (R211, R225). They
start at the region of its number (log entry 158). -/
def VIndex.spreadTiles (x : VIndex) : Nat := ceilDiv x.headBytes 65536 + 1024

/-- Slots ever used on the `k`-th channel of a graph index. -/
def VIndex.slotsOn (x : VIndex) (k : Nat) : Nat := (x.gens.length + x.chans.length - 1 - k) / max 1 x.chans.length

/-- The T1 tiles of an index in a region: its share of the spread ones, and for a graph the directories of the region's channels, with 8
bytes for a slot ever used (R217). -/
def VIndex.t1Tiles (s : State) (x : VIndex) (r : Nat) : Nat :=
  spreadShare s x.id x.spreadTiles r +
  (if x.graph then sumN ((List.range x.chans.length).map fun k => if x.chans.getD k 0 / 4 = r then ceilDiv (8 * x.slotsOn k) 65536 else 0)
   else 0)

/-- Whether a tier holds a copy of an object, or room for the copy that a move makes there (R179). -/
def Obj.takes (o : Obj) (tier : Nat) : Bool :=
  o.tier = tier || (match o.busy with | some (_, _, t) => t = tier | none => false)

/-- Tiles in a region of an object that T1 holds. -/
def objTiles (s : State) (o : Obj) (r : Nat) : Nat :=
  if o.region = 0xF then spreadShare s o.id o.size r else if o.region = r then o.size else 0

/-- A placement-call object's tiles in a region of T1. -/
def objShare (s : State) (o : Obj) (r : Nat) : Nat := if o.takes 1 then objTiles s o r else 0

/-- Free T1 tiles of a region. -/
def t1FreeIn (s : State) (r : Nat) : Nat :=
  if regionOut s r then 0
  else regionTiles - areaTiles s r - sumN (s.mem.t1Tiles.map fun p => tilesIn s p.1 r p.2) - sumN (s.mem.objs.map fun o => objShare s o r) -
    sumN (s.vec.idxs.map fun x => x.t1Tiles s r)

/-- Free T1 tiles. -/
def t1Free (s : State) : Nat := sumN ((List.range 8).map (t1FreeIn s))

/-- Bytes of a context's recurrent state. -/
def stateSize (w : Wt) : Nat := 4 * (w.recHeads * w.dk * w.dv) * w.recOrdinal w.layers

/-- 4 KiB units of a context's recurrent state. -/
def stateUnits (w : Wt) : Nat := ceilDiv (stateSize w) 4096

/-- The first 4 KiB unit of a slot in a session's T1 space: the recurrent state comes first, then the slots (log entry 148). -/
def slotUnit (w : Wt) (fmt k : Nat) : Nat := stateUnits w + k * unitsPerPage w fmt

/-- The tiles of a session's T1 space that `n` units from unit `u` on lie in. -/
def tilesOf (u n : Nat) : List Nat := if n = 0 then [] else (List.range ((u + n - 1) / 16 - u / 16 + 1)).map (· + u / 16)

/-- The T1 address of a unit of a session's T1 space (R168, R173). -/
def t1Addr (s : State) (idx u : Nat) : Nat :=
  tileRegion s idx (u / 16) * 0x3000000000 + Config.t1Tile idx (u / 16) % regionTiles * 65536 + u % 16 * 4096

/-- The T1 slots of rows. -/
def rowSlots (rows : List Row) : List Nat := rows.flatMap fun r => r.pages.filterMap (·.slot)

/-- The T1 slots that a session's pages hold, the evicted ones that a capture still reads among them. -/
def slotsOf (st : Store) : List Nat := rowSlots (st.rows ++ st.kept)

/-- The lowest number from `n` on that a list leaves out; `k` bounds the search. -/
def leastOut (l : List Nat) : Nat → Nat → Nat
  | 0, n => n
  | k + 1, n => if l.contains n then leastOut l k (n + 1) else n

/-- Whether a page has, or is about to have, its bytes in T1. -/
def needsSlot (all : Bool) (p : Page) : Bool := p.tier = 1 || (p.tier = 0 && (p.dma || all))

/-- Give a page of `n` units that needs one the lowest free slot: nothing of a copy in T0 lies there yet (R176). -/
def allotPage (all : Bool) (n : Nat) (used : List Nat) (p : Page) : Page × List Nat :=
  if p.tier = 2 then ({ p with slot := none, dirty := [] }, used)
  else if p.slot.isSome || !needsSlot all p then (p, used)
  else
    let k := leastOut used used.length 0
    ({ p with slot := some k, dirty := if p.tier = 0 then List.range n else [] }, k :: used)

/-- Give the pages of a row their slots. -/
def allotRow (all : Bool) (n : Nat) (used : List Nat) (r : Row) : Row × List Nat :=
  let x := r.pages.foldl (fun (acc : List Page × List Nat) p =>
    let (q, u) := allotPage all n acc.2 p
    (acc.1 ++ [q], u)) ([], used)
  ({ r with pages := x.1 }, x.2)

/-- Give the pages of a session their slots, and its recurrent state its tiles where they are needed. -/
def allot (w : Wt) (fmt : Nat) (x : Sess) : Store :=
  let all := x.spillT1
  let rows := x.st.rows.foldl (fun (acc : List Row × List Nat) r =>
    let (q, u) := allotRow all (unitsPerPage w fmt) acc.2 r
    (acc.1 ++ [q], u)) ([], slotsOf x.st)
  let fresh := all && !x.st.recBacked
  { x.st with rows := rows.1, recBacked := x.st.recBacked || all || x.e.place = 1,
              recDirty := if fresh then List.range (stateUnits w) else x.st.recDirty }

/-- The tiles of T1 that a session's storage needs: those that its slots and its recurrent state lie in (R141, R176, R177). -/
def t1Need (s : State) (x : Sess) : List Nat :=
  let w := wtOf s x.e.ctx
  let f := fmtOf s x.e.ctx
  match x.e.state with
  | .free | .ash => []
  | _ =>
    ((if x.st.recBacked && x.e.place < 2 then tilesOf 0 (stateUnits w) else []) ++
      (if x.e.place < 2 then slotsOf x.st else rowSlots x.st.kept).flatMap fun k =>
        tilesOf (slotUnit w f k) (unitsPerPage w f)).eraseDups

/-- Tiles of T1 that a session holds. -/
def t1Held (s : State) (idx : Nat) : List Nat := findD idx s.mem.t1Tiles []

/-- Set the T1 tiles a session holds. -/
def setT1 (idx : Nat) (ks : List Nat) (s : State) : State :=
  { s with mem := { s.mem with t1Tiles := if ks.isEmpty then erase idx s.mem.t1Tiles else putN idx ks s.mem.t1Tiles } }

/-- Whether each region has room for its share of tiles of a session (R173). -/
def tilesFit (s : State) (idx : Nat) (ks : List Nat) : Bool := (List.range 8).all fun r => tilesIn s idx r ks ≤ t1FreeIn s r

/-- A session asks for tiles of T1: those it holds and needs no more are freed at once; the others it gets where each region has room for
its share, and else waits for in arrival order, as it does where others wait (R173). -/
def t1Ask (idx : Nat) (need : List Nat) (s : State) : State :=
  let s := { s with mem := { s.mem with queue := s.mem.queue.filter (·.idx ≠ idx) } }
  let kept := (t1Held s idx).filter need.contains
  let more := need.filter fun k => !kept.contains k
  let s := setT1 idx kept s
  if more.isEmpty then s
  else if s.mem.queue.isEmpty && tilesFit s idx more then setT1 idx (kept ++ more) s
  else hit 21 { s with mem := { s.mem with queue := s.mem.queue ++ [{ idx := idx, tiles := more, since := now s }] } }

/-- Whether an allocation of a session waits. -/
def allocWaits (s : State) (idx : Nat) : Bool := s.mem.queue.any (·.idx = idx)

/-- Whether a page of a fenced tile still waits there for salvage (R435). -/
def salvaging (s : State) (idx t : Nat) : Bool := s.err.salvage.any fun x => x.1 = t && x.2.2.contains idx

/-- Whether a copy in T0 stays where it is: on its tile of R154, in a KV bank of its context that is not fenced. -/
def staysPut (s : State) (c idx : Nat) (t : Option Nat) (p : Page) : Bool :=
  let b := p.addr / 2 ^ 25
  p.addr ≠ 0 && (salvaging s idx (b / 64) ||
    (t = some (b / 64) && (bankOf s b).use = 2 && (bankOf s b).ctx = c && !bankFenced s b))

/-- The address of a page in T0 on a tile, in a KV bank of its context (R141, log entry 3). -/
def t0Addr (s : State) (t c idx v a : Nat) : Nat :=
  (storageBank s t c idx v a).getD (64 * t) * 2 ^ 25 +
    Config.kvUnit idx v a % (8193 - unitsPerPage (wtOf s c) (fmtOf s c)) * 4096

/-- The T2 address of a page of a row whose blocks start at `b` (R141, R158). -/
def t2PageAddr (v b u a : Nat) : Nat := v % 32 * 2 ^ 48 + b * 65536 + a * u * 4096

/-- The address of a page in its tier, in the placement in force (R141, R154). -/
def pageAddr (s : State) (c idx a : Nat) (r : Row) (p : Page) : Nat :=
  let w := wtOf s c
  let f := fmtOf s c
  match p.tier with
  | 0 =>
    let t := pageTile (partTiles s c 0 ((attnLayersOf w).getD a 0)) (r.v / 32) idx
    if staysPut s c idx t p then p.addr else match t with
      | some t => t0Addr s t c idx r.v a
      | none => 0
  | 1 => t1Addr s idx (slotUnit w f (p.slot.getD 0))
  | _ => t2PageAddr r.v (r.block.getD 0) (unitsPerPage w f) a

/-- Give a row's pages their addresses. -/
def addrRow (s : State) (c idx : Nat) (r : Row) : Row :=
  { r with pages := (List.range r.pages.length).map fun a => { pageOf r a with addr := pageAddr s c idx a r (pageOf r a) } }

/-! ### The page table (R141 to R143) -/

/-- The header of a node (R141). -/
def nodeHead (level count idx base c : Nat) : Bytes :=
  [0x48] ++ le level 1 ++ le count 2 ++ le (idx % 2 ^ 21) 4 ++ le base 2 ++ le (c % 4) 1 ++ zeros 5

/-- A VALID entry of 8 bytes (R141). -/
def nodeEntry (tier addr : Nat) : Bytes := le (1 + tier * 2 + addr) 8

/-- Where the nodes of a session lie: T0 in PLACE 0, T1 in PLACE 1 (R141); the root where PT_ROOT says (R54). -/
def nodeAddr (e : Entry) (idx level base : Nat) : Nat :=
  if level = 3 then e.ptRoot
  else Config.nodeUnit idx level base % (if e.place = 0 then 48 * 2 ^ 25 else 0x18000000000 / 64) * 64

/-- A node's bytes from its entries, each with its number and width: padded to 64 bytes (R141). -/
def nodeBytes (level n width idx base c : Nat) (es : List (Nat × Bytes)) : Bytes :=
  let body := (List.range n).flatMap fun i => findD i es (zeros width)
  padTo (nodeHead level es.length idx base c ++ body) 64

/-- The nodes of a session's page table, as its rows and pages give them (R141). -/
def ptNodes (e : Entry) (idx : Nat) (rows : List Row) : List Node :=
  let tier := if e.place = 0 then 0 else 1
  let ad (level base : Nat) : Nat := nodeAddr e idx level base
  let mk (level base n width : Nat) (es : List (Nat × Bytes)) : Node :=
    { level := level, base := base, tier := tier, addr := ad level base, bytes := nodeBytes level n width idx base e.ctx es }
  let chunks := (rows.map fun r => r.v / 32).eraseDups
  let groups := (chunks.map (· / 16)).eraseDups
  let row (r : Row) : Node := mk 0 r.v r.pages.length 8 ((List.range r.pages.length).map fun a => (a, nodeEntry (pageOf r a).tier (pageOf r a).addr))
  let chunk (c : Nat) : Node := mk 1 (32 * c) 32 16 ((rows.filter fun r => r.v / 32 = c).map fun r =>
    (r.v % 32, nodeEntry tier (ad 0 r.v) ++ le r.score.toNat 4 ++ le r.written 1 ++ zeros 3))
  let group (g : Nat) : Node := mk 2 (512 * g) 16 8 ((chunks.filter fun c => c / 16 = g).map fun c => (c % 16, nodeEntry tier (ad 1 (32 * c))))
  mk 3 0 16 8 (groups.map fun g => (g % 16, nodeEntry tier (ad 2 (512 * g)))) :: groups.map group ++ chunks.map chunk ++ rows.map row

/-- Whether T1 does not hold a node as it is: it has changed since the session's storage was copied from T1, or is new (R176). -/
def nodeDirty (old : List Node) (n : Node) : Bool :=
  n.tier = 0 && (match old.find? fun o => o.level = n.level && o.base = n.base with
    | some o => o.dirty || o.bytes ≠ n.bytes
    | none => true)

/-- Bring a session's page table up to date with its rows; in PLACE 2 and 3 it has none (R153). -/
def mapSess (idx : Nat) (s : State) : State :=
  modSess idx (fun x =>
    if x.e.place ≥ 2 || x.e.state = .free || x.e.state = .ash then { x with st := { x.st with nodes := [] } }
    else { x with st := { x.st with
      nodes := (ptNodes x.e idx x.st.rows).map fun n => { n with dirty := nodeDirty x.st.nodes n } } }) s

/-- What a walk of the page table answers (R142). -/
inductive Walk where
  | at (tier addr : Nat)
  | notRetained
  | inconsistent (n : Node)
  | failed (n : Node)
deriving DecidableEq, Repr, Inhabited

/-- CHECK of R142. -/
def nodeOk (e : Entry) (idx level base : Nat) (n : Node) : Bool :=
  leAt n.bytes 0 1 = 0x48 && leAt n.bytes 1 1 = level && leAt n.bytes 4 4 % 2 ^ 21 = idx % 2 ^ 21 && leAt n.bytes 8 2 % 2 ^ 13 = base &&
  leAt n.bytes 10 1 % 4 = e.ctx % 4

/-- The entry of `width` bytes under a number: VALID, TIER and address. -/
def nodeAt (n : Node) (width i : Nat) : Option (Nat × Nat) :=
  let x := leAt n.bytes (16 + width * i) 8
  if bit x 0 then some (field x 1 2, x / 64 * 64) else none

/-- The node that lies at an address. -/
def node? (st : Store) (level base addr : Nat) : Option Node :=
  st.nodes.find? fun n => n.addr = addr && n.level = level && n.base = base

/-- Read a node and check it; a place without the node fails the check. -/
def walkNode (x : Sess) (idx level base tier addr : Nat) (k : Node → Walk) : Walk :=
  match node? x.st level base addr with
  | none => .failed { level := level, base := base, tier := tier, addr := addr, bytes := [] }
  | some n => if nodeOk x.e idx level base n then k n else .failed n

/-- TRANSLATE of R142. -/
def translate (x : Sess) (idx a v : Nat) : Walk :=
  let child (n : Node) (width i : Nat) (k : Nat → Nat → Walk) : Walk :=
    match nodeAt n width i with
    | none => .notRetained
    | some p => k p.1 p.2
  walkNode x idx 3 0 (if x.e.place = 0 then 0 else 1) x.e.ptRoot fun n =>
  child n 8 (v / 512) fun t p =>
  walkNode x idx 2 (v / 512 * 512) t p fun n =>
  child n 8 (v / 32 % 16) fun t p =>
  walkNode x idx 1 (v / 32 * 32) t p fun n =>
  child n 16 (v % 32) fun t p =>
  walkNode x idx 0 v t p fun n =>
  match nodeAt n 8 a with
  | none => .inconsistent n
  | some q => .at q.1 (q.2 / 4096 * 4096)

/-! ### Look-aside buffers (R144, R145) -/

/-- Invalidate the entries of every buffer that meet a test. Every tile acknowledges within the command that frees the storage. -/
def labDrop (p : LabEntry → Bool) (s : State) : State := { s with atn := { s.atn with lab := s.atn.lab.filter fun e => !p e } }

/-- Invalidate every tag of a session (R145). -/
def labDropSess (idx : Nat) (s : State) : State := labDrop (fun e => e.idx = idx) s

/-! ### A session's place in storage -/

/-- A session's storage takes its place: slots and addresses of its pages, tiles of T1, page table. The tags of pages whose place changes are
invalidated (R145). -/
def retile (idx : Nat) (s : State) : State :=
  match sess? s idx with
  | none => t1Ask idx [] s
  | some x =>
    let c := x.e.ctx
    if x.e.state = .ash && captureReads s x.e.handle then s
    else if x.e.place ≥ 2 || x.e.state = .free || x.e.state = .ash then mapSess idx (t1Ask idx (t1Need s x) s)
    else
      let st := allot (wtOf s c) (fmtOf s c) x
      let st := { st with rows := st.rows.map (addrRow s c idx) }
      let was (v a : Nat) : Option Page := (x.st.rows.find? (·.v = v)).map fun r => pageOf r a
      let now_ (v a : Nat) : Option Page := (st.rows.find? (·.v = v)).map fun r => pageOf r a
      let s := labDrop (fun e => e.idx = idx &&
        (was e.v e.ord).map (fun p => (p.tier, p.addr)) ≠ (now_ e.v e.ord).map (fun p => (p.tier, p.addr))) s
      let x : Sess := { x with st := st }
      mapSess idx (t1Ask idx (t1Need s x) (modSess idx (fun _ => x) s))

/-! ### T2 (R187 to R190) -/

/-- A NAND channel. -/
def chanOf (s : State) (c : Nat) : Chan := findD c s.mem.chans {}

/-- Change a NAND channel. -/
def modChan (c : Nat) (f : Chan → Chan) (s : State) : State :=
  { s with mem := { s.mem with chans := putN c (f (chanOf s c)) s.mem.chans } }

/-- 64 KiB blocks of a channel's usable 2.5 TB. -/
def chanBlocks : Nat := 38146972

/-- VECTOR_PCT as taken (R206). -/
def vectorPct (s : State) : Nat := min 90 (wfield s.regs.t2Part 0 7)

/-- Blocks of a channel outside the vector share. -/
def chanShare (s : State) : Nat := chanBlocks - chanBlocks * vectorPct s / 100

/-- Blocks of a channel's vector share. -/
def vecShare (s : State) : Nat := chanBlocks * vectorPct s / 100

/-- TILE_COUNT of channel `n` in a stripe of `t` tiles (R190). -/
def tileCount (t n : Nat) : Nat := if n ≥ t then 0 else (t - n + 31) / 32

/-- Whether T2 can take a stripe. -/
def t2Room (s : State) (t : Nat) : Bool :=
  (List.range 32).all fun n => tileCount t n = 0 || (!(chanOf s n).fenced && (chanOf s n).used + tileCount t n ≤ chanShare s)

/-- Blocks are written on a channel, outside the vector share. -/
def progBlocks (ch n : Nat) (s : State) : State := modChan ch (fun c => { c with used := c.used + n, wear := c.wear + n }) s

/-- Put a stripe of `t` tiles on the channels. -/
def takeT2 (t : Nat) (s : State) : State :=
  (List.range 32).foldl (fun s n => if tileCount t n = 0 then s else progBlocks n (tileCount t n) s) s

/-- Free a stripe of `t` tiles. -/
def freeT2 (t : Nat) (s : State) : State :=
  (List.range 32).foldl (fun s n => if tileCount t n = 0 then s else modChan n (fun c => { c with used := c.used - tileCount t n }) s) s

/-- Blocks that a spilled row's pages take on channel v mod 32 (R158). -/
def rowBlocks (s : State) (c : Nat) : Nat :=
  let w := wtOf s c
  ceilDiv ((attnLayersOf w).length * unitsPerPage w (fmtOf s c)) 16

/-- Blocks of an object on a channel of T2: spread over all channels, or over those of its region. -/
def objBlocks (o : Obj) (ch : Nat) : Nat :=
  if o.region = 0xF then tileCount o.size ch
  else if ch / 4 = o.region then (o.size + 3 - ch % 4) / 4 else 0

/-- The runs of logical blocks in use on a channel, first block and count: spilled rows, banked stripes, objects, tiles of vector indexes
(R188). -/
def runsOn (s : State) (ch : Nat) : List (Nat × Nat) :=
  (s.ses.table.flatMap fun p =>
    ((p.2.st.rows ++ p.2.st.kept).filterMap fun r => if r.v % 32 = ch then r.block.map fun b => (b, rowBlocks s p.2.e.ctx) else none) ++
    (match p.2.desc with
      | some d => if d.tier = 2 then [(d.first.getD ch 0, tileCount d.tiles ch)] else []
      | none => [])) ++
  (s.mem.objs.filterMap fun o => (find? ch o.blocks).map fun b => (b, objBlocks o ch)) ++
  (s.vec.idxs.flatMap fun x => ((x.tiles ++ x.stale.flatMap (·.tiles)).filter (·.ch = ch)).map fun t => (t.block, 1))

/-- A run of `n` free logical blocks of a channel: from the block that its engine tries first, from the start, or after a run in use
(R190). -/
def t2Run (s : State) (ch n : Nat) : Option Nat :=
  let used := runsOn s ch
  let fits (b : Nat) : Bool := decide (b + n ≤ chanBlocks) && used.all fun u => decide (u.1 + u.2 ≤ b) || decide (b + n ≤ u.1)
  (Config.firstBlock ch s.free % chanBlocks :: 0 :: used.map fun u => u.1 + u.2).find? fits

/-- The tweak of R189: a block's address in T2 divided by 65,536, and the key of its bytes in the state. -/
def t2Tile (ch b : Nat) : Nat := ch * 2 ^ 32 + b

/-- Write a tile to T2, encrypted (R189). -/
def writeT2 (key : Bytes) (ch b : Nat) (plain : Bytes) (s : State) : State :=
  { s with mem := { s.mem with t2 := putN (t2Tile ch b) (xtsEncrypt key (t2Tile ch b) (fit plain 65536)) s.mem.t2 } }

/-- Read a tile of T2: a block never written, or freed, reads as zeros (R188, R189). -/
def readT2 (s : State) (key : Bytes) (ch b : Nat) : Bytes :=
  match find? (t2Tile ch b) s.mem.t2 with
  | some x => xtsDecrypt key (t2Tile ch b) x
  | none => zeros 65536

/-- Free a tile of T2. -/
def eraseT2 (ch b : Nat) (s : State) : State := { s with mem := { s.mem with t2 := erase (t2Tile ch b) s.mem.t2 } }

/-- FIRST_BLOCK of each channel for a stripe of `t` tiles (R190), where every channel has a run. -/
def stripePlace (s : State) (t : Nat) : Option (List Nat) :=
  (List.range 32).mapM fun n => if tileCount t n = 0 then some 0 else t2Run s n (tileCount t n)

/-- Write a stripe's tiles: tile k on channel k mod 32, at FIRST_BLOCK + k / 32 (R190). -/
def writeStripe (key : Bytes) (first : List Nat) (b : Bytes) (s : State) : State :=
  (List.range (ceilDiv b.length 65536)).foldl (fun s k =>
    writeT2 key (k % 32) (first.getD (k % 32) 0 + k / 32) (slice b (65536 * k) 65536) s) s

/-- Read a stripe of `t` tiles back. -/
def readStripe (s : State) (key : Bytes) (first : List Nat) (t : Nat) : Bytes :=
  (List.range t).flatMap fun k => readT2 s key (k % 32) (first.getD (k % 32) 0 + k / 32)

/-- Free a stripe's tiles. -/
def eraseStripe (first : List Nat) (t : Nat) (s : State) : State :=
  (List.range t).foldl (fun s k => eraseT2 (k % 32) (first.getD (k % 32) 0 + k / 32) s) s

/-- A row's pages go to T2, encrypted under their context's key, on channel v mod 32 from block `b` on (R158). -/
def writeRow (c b : Nat) (r : Row) (s : State) : State :=
  let w := wtOf s c
  let f := fmtOf s c
  let bytes := (List.range r.pages.length).flatMap fun a => pageBytes w f a r
  let key := contextKey s c
  (List.range (rowBlocks s c)).foldl (fun s k => writeT2 key (r.v % 32) (b + k) (slice bytes (65536 * k) 65536) s)
    (progBlocks (r.v % 32) (rowBlocks s c) s)

/-- Free the T2 blocks of a row (R158). -/
def freeRow (c : Nat) (r : Row) (s : State) : State :=
  match r.block with
  | none => s
  | some b =>
    let n := rowBlocks s c
    (List.range n).foldl (fun s k => eraseT2 (r.v % 32) (b + k) s)
      (modChan (r.v % 32) (fun c => { c with used := c.used - n }) s)

/-! ### The metadata pool (R159) -/

/-- 64-byte units of a list of bytes. -/
def units64 (n : Nat) : Nat := ceilDiv n 64

/-- Pool bytes of a session's page table, or of its row list while BANKED (R141, R153). -/
def poolBytesOf (s : State) (x : Sess) : Nat :=
  match x.e.state with
  | .free | .ash => 0
  | _ =>
    if x.e.place ≥ 2 then 64 * units64 (16 + 8 * x.st.rows.length)
    else
      let a := (attnLayersOf (wtOf s x.e.ctx)).length
      let chunks := (x.st.rows.map fun r => r.v / 32).eraseDups
      let groups := (chunks.map (· / 16)).eraseDups
      192 + 192 * groups.length + 576 * chunks.length + 64 * units64 (16 + 8 * a) * x.st.rows.length

/-- Pool bytes in use: page tables, row lists, location records, and the request buffers of 2 MiB that the owner port and the control cores
fill (R159, R353, R369). -/
def poolUsedBytes (s : State) : Nat :=
  sumN (s.ses.table.map fun p => poolBytesOf s p.2) + sumN (s.map.jobs.map fun j => 32 * j.2.locRecs.length) +
  2 ^ 21 * s.accs.countP (·.2.reqOpen)

/-- The size of the metadata pool. -/
def poolSize : Nat := 1024 * 2 ^ 20

/-- Pool bytes that the rows which `n` positions from position `p` on open can take: their row nodes, and the nodes of chunks and groups of
chunks that the session holds none of (R159). -/
def poolForRows (s : State) (x : Sess) (p n : Nat) : Nat :=
  let a := (attnLayersOf (wtOf s x.e.ctx)).length
  let vs := (List.range (ceilDiv (p + n) 128 - ceilDiv p 128)).map (· + ceilDiv p 128)
  let held := x.st.rows.map (·.v)
  let chunks := ((vs.map (· / 32)).eraseDups).filter fun c => !held.any fun v => v / 32 = c
  let groups := ((vs.map (· / 512)).eraseDups).filter fun g => !held.any fun v => v / 512 = g
  if a = 0 then 0 else 64 * units64 (16 + 8 * a) * vs.length + 576 * chunks.length + 192 * groups.length

/-! ### Addresses (log entry 3) -/

/-- An allocator gives a session a page-table root and a state address in its place: in T0 or T1 a multiple of 64 bytes; in PLACE 2 the T1
address of its bank descriptor, in PLACE 3 the fabric address of it (R54). -/
def placeSess (idx : Nat) (s : State) : State :=
  let (a, s) := freshAddr s
  let (b, s) := freshAddr s
  let lines (e : Entry) : Nat := if e.place = 0 then 48 * 2 ^ 25 else 0x18000000000 / 64
  mapSess idx (modEntry idx (fun e =>
    if e.place < 2 then { e with ptRoot := a % lines e * 64, stateAddr := b % lines e * 64 }
    else { e with ptRoot := if e.place = 2 then a % lines e * 64 else 2 ^ 60 + a % 2 ^ 60, stateAddr := 0 }) s)

/-! ### Lookups (R144) -/

/-- A lookup in a tile's buffer: a hit counts, a miss walks and fills the lowest invalid way or the one at the pointer. Where the walk finds no
page, what it met (R142, R143). -/
def labLook (t a v idx : Nat) (x : Sess) (s : State) : Option Walk × State :=
  let c := x.e.ctx
  let same (e : LabEntry) : Bool := e.tile = t && e.ctx = c && e.idx = idx && e.ord = a && e.v = v
  let add (l : List (Nat × Nat)) : List (Nat × Nat) := putN t (sat (findD t l 0 + 1) 32) l
  if s.atn.lab.any same then (none, { s with atn := { s.atn with hits := add s.atn.hits } })
  else
    let s := { s with atn := { s.atn with misses := add s.atn.misses } }
    match translate x idx a v with
    | .at tier addr =>
      let set := (v % 64 ^^^ a % 64 ^^^ idx % 64)
      let used := (s.atn.lab.filter fun e => e.tile = t && e.set = set).map (·.way)
      let ptr := findD (t, set) s.atn.labPtr 0
      let free := (List.range 8).find? fun w => !used.contains w
      let way := free.getD ptr
      let lab := s.atn.lab.filter fun e => !(e.tile = t && e.set = set && e.way = way)
      let e : LabEntry := { tile := t, set := set, way := way, ctx := c, idx := idx, ord := a, v := v, tier := tier, addr := addr }
      (none, { s with atn := { s.atn with
        lab := lab ++ [e], labPtr := if free.isSome then s.atn.labPtr else put (t, set) ((way + 1) % 8) s.atn.labPtr } })
    | w => (some w, s)

/-- The placement in force has changed for some contexts: the pages of their sessions in T0 go to the tiles of R154, and every tag of
these sessions is invalidated (R145, R155). -/
def replacePages (cs : List Nat) (s : State) : State :=
  (s.ses.table.filter fun p => inT0 p.2 && cs.contains p.2.e.ctx).foldl (fun s p => retile p.1 (labDropSess p.1 s)) s

/-! ### Banks that lose their pages (R28, R182, R183) -/

/-- Change the pages of a session that meet a test. -/
def modPages (idx : Nat) (p : Row → Page → Bool) (f : Page → Page) (s : State) : State :=
  modSess idx (fun x => { x with st := { x.st with rows := x.st.rows.map fun r =>
    { r with pages := r.pages.map fun q => if p r q then f q else q } } }) s

/-- A page has landed in T1: the T0 copy is freed. -/
def pageLanded (p : Page) : Page := { p with tier := 1, dirty := [], dma := false }

/-- The sessions with pages in a bank. -/
def pagesIn (s : State) (k : Nat) : List Nat :=
  (s.ses.table.filter fun p => inT0 p.2 && p.2.st.rows.any fun r => r.pages.any (pageInBank k)).map (·.1)

/-- The pages of a bank leave it by lossless spill to T1. -/
def emptyBank (k : Nat) (s : State) : State :=
  (pagesIn s k).foldl (fun s idx =>
    let n := match sess? s idx with
      | some x => sumN (x.st.rows.map fun r => r.pages.countP (pageInBank k))
      | none => 0
    let s := modPages idx (fun _ p => pageInBank k p) pageLanded s
    retile idx { s with atn := { s.atn with spilled := sat (s.atn.spilled + n) 32 } }) s

end Sys2Proof.Machine
end

