-- ==== Sys2Proof/Machine/SesCore.lean ====
section
/-!
DEFINITION. Sys2Proof/Machine/SesCore.lean: the changes of state of R57 as shared operations: banking, waking, copies to
T0, closing, losing and suspecting a session, its turn's end, and disputes (R66 to R68).
-/
namespace Sys2Proof.Machine
open Sys2Proof

/-! ### The table -/

/-- How many entries the table holds (R54, R69). -/
def tableMax (s : State) : Nat :=
  match s.ses.tracker, s.img.active with
  | 2, _ | _, none => 0
  | 1, _ => 4096
  | _, some i => 2 ^ i.log2

/-- The lowest number that a rising list of keys leaves out, from `n` on. -/
def lowestFree (n : Nat) : List Nat → Nat
  | [] => n
  | k :: l => if k ≤ n then lowestFree (if k = n then n + 1 else n) l else n

/-- The lowest index whose entry is FREE, where the table has one (R56, R69). -/
def freeIndex? (s : State) : Option Nat :=
  let i := lowestFree 0 (s.ses.table.map (·.1))
  let top := if s.ses.tracker = 1 then max 4096 (match s.img.active with | some a => 2 ^ a.log2 | none => 0) else tableMax s
  if s.ses.table.length < tableMax s && i < top then some i else none

/-- Sessions pinned. -/
def pinnedCount (s : State) : Nat := countSess s (·.e.pinned)

/-- Kindles pending (R61). -/
def kindleCount (s : State) : Nat := countSess s (·.e.kindled)

/-- PINNED_MAX as it holds (R63, R69). -/
def pinLimit (s : State) : Nat :=
  let m := match s.img.active with | some i => i.pinnedMax | none => 0
  if s.ses.tracker = 1 then min m 1024 else m

/-- The bound on pending kindles (R61, R69). -/
def kindleLimit (s : State) : Nat := if s.ses.tracker = 1 then 4096 else 65536

/-- The status of an operation that a state does not take (R55, R57). -/
def stateStatus : SesState → Nat
  | .free | .ash => 0x10
  | .live | .waking | .banking => 0x11
  | .moving => 0x12
  | .suspect => 0x13
  | .ember | .banked => 0x04

/-- A session's entry without its kindle (R61). -/
def clearKindle (e : Entry) : Entry := { e with kindled := false, kindleAt := 0 }

/-! ### Rows -/

/-- A storage as a whole copy in one tier holds it: `a` pages a row, without backing in T0 (R176). -/
def placedIn (a tier : Nat) (st : Store) : Store :=
  { st with rows := st.rows.map (fun r => { r with pages := List.replicate a { tier := tier }, block := none }),
            nodes := [], rowList := [], recBacked := tier = 1, recDirty := [] }

/-- A storage whose pages lie in a stripe: the rows are described by a row list, which stands in for the page table (R153). -/
def bankedIn (list : Bytes) (st : Store) : Store :=
  { st with rows := st.rows.map (fun r => { r with pages := [], block := none }),
            nodes := [], rowList := list, recBacked := false, recDirty := [] }

/-- The row list of R153. -/
def rowListBytes (idx : Nat) (rs : List Row) : Bytes :=
  padTo ([0x48] ++ zeros 1 ++ le rs.length 2 ++ le (idx % 2 ^ 21) 4 ++ zeros 8 ++
    rs.flatMap fun r => le r.v 2 ++ le r.written 1 ++ zeros 1 ++ le r.score.toNat 4) 64

/-- The rows that a row list describes, with the bytes of each as they were stored: a wake rebuilds the page table from them (R153). -/
def listedRows (b : Bytes) (rs : List Row) : List Row :=
  (List.range (leAt b 2 2)).map fun i =>
    let v := leAt b (16 + 8 * i) 2 % 2 ^ 13
    { v := v, written := leAt b (18 + 8 * i) 1, score := BitVec.ofNat 32 (leAt b (20 + 8 * i) 4),
      kv := ((rs.find? (·.v = v)).map (·.kv)).getD [] }

/-- Where a row list lies in the metadata pool. -/
def rowListAddr (idx : Nat) : Nat := Config.nodeUnit idx 4 0 % (0x18000000000 / 64) * 64

/-- The 512 bytes of a bank descriptor (R190). -/
def descBytes (d : BankDesc) : Bytes :=
  let chans := if d.tier = 2 then (List.range 32).flatMap fun n => le (d.first.getD n 0) 4 ++ le (tileCount d.tiles n) 4
    else le d.addr 8 ++ le d.tiles 4
  fit ([0x48] ++ le d.tier 1 ++ le (d.ctx % 4) 1 ++ zeros 1 ++ le (d.idx % 2 ^ 21) 4 ++ le d.tiles 4 ++ le d.units 4 ++ le d.rowList 8 ++
    zeros 8 ++ fit d.digest 32 ++ fit chans 256) 512

/-- The descriptor of a session's stripe. -/
def descOf (w : Wt) (fmt tier c idx addr : Nat) (first : List Nat) (st : Store) : BankDesc :=
  { tier := tier, ctx := c, idx := idx, tiles := stripeTiles w fmt st, units := st.rows.length * w.ordinal w.layers * unitsPerPage w fmt,
    rowList := rowListAddr idx, digest := sha256 (stripe w fmt st), first := first, addr := addr }

/-- Free the T2 blocks of a session's spilled rows (R158). -/
def freeSpilled (x : Sess) (s : State) : State := x.st.rows.foldl (fun s r => freeRow x.e.ctx r s) s

/-- Free what a session keeps for a checkpoint's capture (R376). -/
def freeKept (x : Sess) (s : State) : State := x.st.kept.foldl (fun s r => freeRow x.e.ctx r s) s

/-- Free a session's banked stripe. -/
def freeDesc (x : Sess) (s : State) : State :=
  match x.desc with
  | some d => if d.tier = 2 then eraseStripe d.first d.tiles (freeT2 d.tiles s) else s
  | none => s

/-- Put a session's stripe in T2, where every channel has room for its share in one run (R190): the descriptor, or none. -/
def bankT2 (idx : Nat) (e : Entry) (st : Store) (s : State) : Option (BankDesc × State) :=
  let w := wtOf s e.ctx
  let f := fmtOf s e.ctx
  let b := stripe w f st
  let n := stripeTiles w f st
  if !t2Room s n then none
  else (stripePlace s n).map fun first =>
    (descOf w f 2 e.ctx idx 0 first st, writeStripe (contextKey s e.ctx) first b (takeT2 n s))

/-- The transfer descriptors that move ascending 4 KiB units: first unit and count, 1 to 16 consecutive units within one 64 KiB tile
(R169). -/
def descriptors : List Nat → List (Nat × Nat)
  | [] => []
  | u :: l =>
    match descriptors l with
    | [] => [(u, 1)]
    | (v, n) :: r => if v = u + 1 && u / 16 = v / 16 then (u, n + 1) :: r else (u, 1) :: (v, n) :: r

/-- The units of transfer descriptors in the order in which they arrive (R169). -/
def arrivals (ds : List (Nat × Nat)) : List Nat := ds.flatMap fun d => (List.range d.2).map (d.1 + ·)

/-- What `n` units of write-back leave dirty of a page whose slot starts at unit `u`, and how many units they leave for others: a unit is
wholly at its destination or not there at all (R169). -/
def writeBack (u n : Nat) (p : Page) : Page × Nat :=
  if p.tier = 0 && p.slot.isSome then
    let us := arrivals (descriptors (sortBy (fun a b => decide (a ≤ b)) (p.dirty.map (u + ·))))
    ({ p with dirty := (us.drop n).map (· - u) }, n - us.length)
  else (p, n)

/-- What `n` units of write-back leave dirty of a session: pages in ascending row and ordinal, then the recurrent state (R178). -/
def writtenBack (w : Wt) (fmt n : Nat) (st : Store) : Store :=
  let page (acc : List Page × Nat) (p : Page) : List Page × Nat :=
    let (q, m) := writeBack (slotUnit w fmt (p.slot.getD 0)) acc.2 p
    (acc.1 ++ [q], m)
  let row (acc : List Row × Nat) (r : Row) : List Row × Nat :=
    let (ps, m) := r.pages.foldl page ([], acc.2)
    (acc.1 ++ [{ r with pages := ps }], m)
  let (rs, m) := st.rows.foldl row ([], n)
  { st with rows := rs, recDirty := st.recDirty.drop m }

/-- A page's transfers end; without the tiles of its slot nothing of it has been written. -/
def settlePage (w : Wt) (fmt : Nat) (held : List Nat) (p : Page) : Page :=
  let there := match p.slot with
    | some k => (tilesOf (slotUnit w fmt k) (unitsPerPage w fmt)).all held.contains
    | none => false
  if p.tier = 0 && !there then { p with dma := false, slot := none, dirty := [] } else { p with dma := false }

/-- Cancel the transfers of a session's pages and storage (R160). Of a move to T1 the units written so far are clean (R178): how many is a
free value. -/
def stopTransfers (idx : Nat) (s : State) : State :=
  let s := { s with mem := { s.mem with queue := s.mem.queue.filter (·.idx ≠ idx) } }
  match sess? s idx with
  | none => s
  | some x =>
    let w := wtOf s x.e.ctx
    let f := fmtOf s x.e.ctx
    let held := t1Held s idx
    let n := if x.spillT1 then Config.moved s.free else 0
    let s := if x.spillT1 then { s with free := s.free + 1 } else s
    let rows := x.st.rows.map fun r => { r with pages := r.pages.map (settlePage w f held) }
    let backed := x.st.recBacked && (tilesOf 0 (stateUnits w)).all held.contains
    let st := writtenBack w f n { x.st with rows := rows, recBacked := backed, recDirty := if backed then x.st.recDirty else [] }
    modSess idx (fun x => { x with copyUp := false, spillT1 := false, st := st }) s

/-! ### T3 (R319, R357) -/

/-- The pool a session parks in: the first memory pool of its job with PARK set. -/
def parkPool? (s : State) (job : Option Nat) : Option (Job × Pool) :=
  (job.bind (job? s)).bind fun j => (j.map.pools.find? fun p => p.kind = 0 && p.park).map fun p => (j, p)

/-- The flat range of this module in a pool, in 4 KiB units: first unit and count. -/
def ownRange (s : State) (j : Job) (p : Pool) : Nat × Nat :=
  let cs := (j.map.members.filter fun m => bit m.roles 0).map (·.node)
  let n := p.members.length * p.units / max 1 cs.length
  ((cs.findIdx? (· = selfNode s)).getD cs.length * n, n)

/-- The fabric address of a unit of a pool. -/
def flatAddr (p unit : Nat) : Nat := 2 ^ 60 + p * 2 ^ 48 + unit * 4096

/-- The stripes in T3 of this module's sessions: first unit and units. -/
def t3Used (s : State) (p : Nat) : List (Nat × Nat) :=
  s.ses.table.filterMap fun x =>
    match x.2.desc with
    | some d => if d.tier = 3 && field d.addr 48 12 = p then some (d.addr % 2 ^ 48 / 4096, d.tiles * 16) else none
    | none => none

/-- A place for `tiles` tiles in this module's range of a pool: the lowest end of a stripe, or the range's start, from
which they fit. -/
def t3Place (s : State) (j : Job) (p : Pool) (tiles : Nat) : Option Nat :=
  let (b, n) := ownRange s j p
  let used := t3Used s p.id
  let start := 16 * ceilDiv b 16
  let fits (u : Nat) : Bool :=
    start ≤ u && u + 16 * tiles ≤ b + n && used.all fun x => u + 16 * tiles ≤ x.1 || x.1 + x.2 ≤ u
  ((start :: used.map fun x => x.1 + x.2).filter fits).min?

/-- FLAT_HOME of R319 at the requester: the member node and its T1 address. -/
def flatHome (s : State) (m : LaceMap) (p : Pool) (a : Nat) : Nat × Nat :=
  let n := max 1 p.members.length
  let u := a / 4096 % 2 ^ 36
  let g := u / n
  let h := (u % n + mixN (g ^^^ (seed s 1).toNat ^^^ p.id) % n) % n
  let e := p.members.getD h default
  ((m.members.getD e.1 default).node, e.2.2.2 + g * 4096 + a % 4096)

/-- Write a byte string at a flat address: 128-byte STOREs of the DMA cells, or at once where this module is the home. -/
def flatStore (j : Job) (p : Pool) (a : Nat) (b : Bytes) (s : State) : State :=
  (List.range (ceilDiv b.length 128)).foldl (fun s i =>
    let line := slice b (128 * i) 128
    let (node, t) := flatHome s j.map p (a + 128 * i)
    if node = selfNode s then { s with mem := { s.mem with t1 := writeBytes Config.ramDefault t line s.mem.t1 } }
    else issue 1 0 node j.map.job { op := 2, addr := a + 128 * i, mask := 2 ^ 128 - 1, data := line } .none s) s

/-- Read a stripe of a session from a flat space: LOADs of the DMA cells for the lines of other members. -/
def flatLoad (idx : Nat) (j : Job) (p : Pool) (a n : Nat) (s : State) : State :=
  (List.range (ceilDiv n 128)).foldl (fun s i =>
    let (node, _) := flatHome s j.map p (a + 128 * i)
    if node = selfNode s then s else issue 1 0 node j.map.job { op := 1, addr := a + 128 * i } (.wake idx i) s) s

/-- The bytes of a stripe in a flat space: the lines of other members as they were read, this module's own from its T1; none while a line is
missing. -/
def flatBytes (s : State) (j : Job) (p : Pool) (got : List (Nat × Bytes)) (a n : Nat) : Option Bytes :=
  ((List.range (ceilDiv n 128)).mapM fun i =>
    let (node, t) := flatHome s j.map p (a + 128 * i)
    if node = selfNode s then some (readBytes Config.ramDefault t 128 s.mem.t1) else (find? i got).map fun b => fit b 128).map List.flatten

/-! ### Banking (R57 to R60) -/

/-- Cancel a banking: the partial copy is discarded and the session is EMBER again. -/
def cancelBanking (idx : Nat) (s : State) : State :=
  modSess idx (fun x => { x with e := { x.e with state := .ember }, bankTier := none, bankPress := false, desc := none }) s

/-- Start banking an EMBER session to a tier. A stripe for T3 is sent as STOREs. -/
def startBanking (idx tier : Nat) (press : Bool) (s : State) : State :=
  let s := labDropSess idx (stopTransfers idx s)
  let s := modSess idx (fun x => { x with
    e := { clearKindle x.e with state := .banking, prior := .ember }, bankTier := some tier, bankPress := press }) s
  match sess? s idx with
  | none => s
  | some x =>
    if tier ≠ 3 then s
    else match parkPool? s x.job with
      | none => s
      | some (j, p) =>
        let b := padTo (stripe (wtOf s x.e.ctx) (fmtOf s x.e.ctx) x.st) 65536
        match t3Place s j p (b.length / 65536) with
        | none => s
        | some u =>
          let a := flatAddr p.id u
          let d := descOf (wtOf s x.e.ctx) (fmtOf s x.e.ctx) 3 x.e.ctx idx a [] x.st
          flatStore j p a (xtsUnits xtsEncrypt (contextKey s x.e.ctx) a b) (modSess idx (fun x => { x with desc := some d }) s)

/-- The stripe of a BANKING session is written: its descriptor commits, its T0 and T1 copies are freed (R57, R190).
Without room for the stripe in the target tier the banking cannot have completed. -/
def commitBanking (idx : Nat) (s : State) : State :=
  match sess? s idx with
  | none => s
  | some x =>
    let commit (d : BankDesc) (s : State) : State :=
      let s := modSess idx (fun x => { x with
        e := { x.e with state := .banked, place := d.tier }, desc := some d, bankTier := none, bankPress := false,
        st := bankedIn (rowListBytes idx x.st.rows) x.st }) (freeSpilled x s)
      placeSess idx (retile idx s)
    if x.e.state ≠ .banking then s
    else if x.bankTier = some 3 then
      match x.desc with
      | some d => commit d s
      | none => s
    else match bankT2 idx x.e x.st s with
      | some (d, s) => commit d s
      | none => s

/-- Free T1 and what every banking in flight will free, in bytes (R60). -/
def projectedFree (s : State) : Nat :=
  65536 * (t1Free s + sumN (s.ses.table.map fun p => if p.2.e.state = .banking then (t1Held s p.1).length else 0))

/-- The candidate of the pressure rule (R60). -/
def pressureVictim (s : State) : Option Nat :=
  (leastBy (fun (p : Nat × Sess) => [p.2.e.lastUse, p.1]) (s.ses.table.filter fun p =>
    p.2.e.state = .ember && p.2.e.place = 1 && !p.2.e.pinned && !p.2.e.turnAdmitted && p.2.e.kindleAt = 0 &&
    !p.2.copyUp)).map (·.1)

/-! ### Waking (R57, R62) -/

/-- The wake group of an admitted turn's class (R62). -/
def turnGroup (cls : Nat) : Nat := if cls = 0 then 0 else 2 + cls

/-- Put a BANKED session in the order of wakes. -/
def queueWake (idx group key : Nat) (s : State) : State :=
  let s := if (s.ses.table.filter fun p => (p.2.wake.map (·.running)).getD false).length ≥ 64 then hit 13 s else s
  let w : Wake := { group := group, key := key, arrival := s.ses.arrivals }
  let s := modSess idx (fun x => { x with e := { x.e with state := .waking, prior := .banked }, wake := some w }) s
  { s with ses := { s.ses with arrivals := s.ses.arrivals + 1 } }

/-- The wake of a WAKING session moves up to a group that precedes its own. -/
def raiseWake (idx group : Nat) (s : State) : State :=
  modSess idx (fun x => { x with wake := x.wake.map fun w => if group < w.group then { w with group := group, key := 0 } else w }) s

/-- How many wakes run. -/
def wakesRun (s : State) : Nat := (s.ses.table.filter fun p => (p.2.wake.map (·.running)).getD false).length

/-- The wake that starts next: the least by group, by key in the group and by arrival, of those that wait (R62). -/
def nextWake? (s : State) : Option (Nat × Sess) :=
  let key (p : Nat × Sess) : List Nat := match p.2.wake with | some w => [w.group, w.key, w.arrival] | none => []
  let waits (p : Nat × Sess) : Bool := match p.2.wake with | some w => !w.running && p.2.e.state = .waking | none => false
  leastBy key (s.ses.table.filter waits)

/-- Start a wake: its T1 tiles are asked for where it is to end in T1. -/
def beginWake (idx : Nat) (x : Sess) (s : State) : State :=
  let s := modSess idx (fun x => { x with wake := x.wake.map fun w => { w with running := true } }) s
  let s := match x.desc, parkPool? s x.job with
    | some d, some (j, p) => if d.tier = 3 then flatLoad idx j p d.addr (65536 * d.tiles) s else s
    | _, _ => s
  if x.e.turnAdmitted then s
  else t1Ask idx (List.range (stripeTiles (wtOf s x.e.ctx) (fmtOf s x.e.ctx) x.st)) s

/-- Start the next wake in order while fewer than 64 run. -/
def startNextWake (s : State) : State :=
  if wakesRun s ≥ 64 then s
  else match nextWake? s with
    | none => s
    | some (idx, x) => beginWake idx x s


/-! ### Copies to T0 -/

/-- Start the copy of an EMBER session from T1 to T0, where none is in flight (R57, R61). -/
def startCopy (idx : Nat) (s : State) : State :=
  modSess idx (fun x => if x.e.state = .ember && x.e.place = 1 then { x with copyUp := true } else x) s

/-- The copy to T0 is complete: the T1 copy stays as backing (R176). -/
def finishCopy (idx : Nat) (s : State) : State :=
  match sess? s idx with
  | none => s
  | some x =>
    if !x.copyUp then s
    else
      let s := modSess idx (fun x => { x with
        e := { x.e with place := 0 }, copyUp := false,
        st := { x.st with
          rows := x.st.rows.map (fun r => { r with pages := r.pages.map fun p => if p.tier = 1 then { p with tier := 0 } else p }),
          recBacked := true, recDirty := [] } }) s
      placeSess idx (retile idx s)

/-! ### A turn's end -/

/-- A session that no longer serves a turn returns to EMBER; one that is SUSPECT will (R57). -/
def toEmber (e : Entry) : Entry :=
  match e.state with
  | .live => { e with state := .ember, lane := 0xFFFF }
  | .suspect => { e with prior := if e.prior = .live then .ember else e.prior, lane := 0xFFFF }
  | _ => { e with lane := 0xFFFF }

/-- The entry of a session whose turn has ended (R57, R93). -/
def endedEntry (expired : Bool) (e : Entry) : Entry :=
  { toEmber e with turnAdmitted := false, adapterVersion := 0, deadline := 0, expired := expired }

/-- The admitted turn of a session, in a lane or in the prefill queue. -/
def turnOf (s : State) (idx : Nat) : Option Turn :=
  match s.stp.lanes.find? fun l => l.2.turn.idx = idx with
  | some l => some l.2.turn
  | none => s.stp.queue.find? (·.idx = idx)

/-- Take a session's turn out of its lane and the prefill queue. -/
def dropTurn (idx : Nat) (s : State) : State :=
  { s with stp := { s.stp with
    lanes := s.stp.lanes.filter (fun l => l.2.turn.idx ≠ idx), queue := s.stp.queue.filter (·.idx ≠ idx) } }

/-- End a session's admitted turn now, outside the boundary, with an end record (R88). A turn in CLOSING has already
delivered its last token and gets no record. -/
def endTurnNow (idx status : Nat) (s : State) : State :=
  match turnOf s idx with
  | none => s
  | some t =>
    let closing := s.stp.lanes.any fun l => l.2.turn.idx = idx && l.2.phase = .closing
    let s := if closing then s else endRecord t (now s) status s
    turnOver t (modEntry idx (endedEntry false) (dropTurn idx s))

/-! ### A wake's end (R57, R59) -/

/-- A wake meets an uncorrectable read, or a stripe whose digest differs (R57, R59): BANKED again, an admitted turn ends with
STATE_UNREADABLE. -/
def wakeFailed (idx : Nat) (s : State) : State :=
  match sess? s idx with
  | none => s
  | some x =>
    if x.e.state = .waking && (x.wake.map (·.running)).getD false then
      let s := t1Ask idx [] s
      let s := modSess idx (fun x => { x with e := { x.e with state := .banked }, wake := none, got := [] }) s
      logTo [x.e.tenant] 2 4 (unitChip 0x35) 0x0304 idx (endTurnNow idx 0x1C s)
    else s

/-- A session's stripe as it is read back and decrypted, without the padding of its last tile; none while lines of it are missing (R59,
R189). -/
def stripeBack (s : State) (x : Sess) (d : BankDesc) : Option Bytes :=
  let w := wtOf s x.e.ctx
  let key := contextKey s x.e.ctx
  let n := d.units * 4096 + stateSize w
  if d.tier = 2 then some ((readStripe s key d.first d.tiles).take n)
  else match parkPool? s x.job with
    | none => none
    | some (j, p) => (flatBytes s j p x.got d.addr (65536 * d.tiles)).map fun b => (xtsUnits xtsDecrypt key d.addr b).take n

/-- The last tile of a wake is in place: the revive is accepted where the digest of the decrypted stripe is the descriptor's (R57, R59). -/
def finishWake (idx : Nat) (s : State) : State :=
  match sess? s idx with
  | none => s
  | some x =>
    if x.e.state ≠ .waking || !(x.wake.map (·.running)).getD false || allocWaits s idx then s
    else match x.desc with
      | none => s
      | some d =>
        match stripeBack s x d with
        | none => s
        | some b =>
          if sha256 b ≠ d.digest then wakeFailed idx s
          else
            let p := if x.e.turnAdmitted then 0 else 1
            let a := attnCount s x.e.ctx
            let s := modSess idx (fun x => { x with
              e := { x.e with state := .ember, place := p }, wake := none, desc := none, got := [],
              st := placedIn a p { x.st with rows := listedRows x.st.rowList x.st.rows } }) (freeDesc x s)
            placeSess idx (retile idx s)

/-! ### The end of a session -/

/-- A session's entry is cleared to zero: FREE. -/
def freeEntry (idx : Nat) (s : State) : State :=
  let s := stopTransfers idx s
  { setT1 idx [] s with ses := { s.ses with table := erase idx s.ses.table } }

/-- A session goes to ASH: its storage is reclaimable (R57, R63). -/
def toAsh (idx : Nat) (s : State) : State :=
  let s := labDropSess idx (stopTransfers idx s)
  modSess idx (fun x => { x with
    e := { clearKindle x.e with state := .ash, prior := .free, pinned := false, lane := 0xFFFF },
    wake := none, mv := none, bankTier := none, bankPress := false, closeReq := false, ashAt := now s }) s

/-- CLOSE takes effect: a turn that waits ends, the location record is deleted (R57, R352). -/
def closeNow (idx : Nat) (s : State) : State :=
  match sess? s idx with
  | none => s
  | some x => unlocate x (toAsh idx (endTurnNow idx 0x2B s))

/-- The storage of an ASH entry is reclaimed (R56). -/
def reclaim (idx : Nat) (s : State) : State :=
  match sess? s idx with
  | none => s
  | some x =>
    if x.e.state ≠ .ash || x.reclaimed then s
    else
      let s := setT1 idx [] (freeDesc x (freeKept x (freeSpilled x s)))
      let s := modSess idx (fun x => { x with e := { x.e with reclaimed := true }, reclaimed := true, st := {}, desc := none }) s
      if !x.e.moved || x.ashAt + wfield s.regs.sesCfg 50 14 * 1000000 ≤ now s then freeEntry idx s else s

/-- MOVE_KEEP_MS has passed since a MOVED entry reached ASH (R56). -/
def keepOver (idx : Nat) (s : State) : State :=
  match sess? s idx with
  | none => s
  | some x =>
    if x.e.state = .ash && x.e.moved then
      let s := advance (x.ashAt + wfield s.regs.sesCfg 50 14 * 1000000) s
      if x.reclaimed then freeEntry idx s else s
    else s

/-- A session of a job lost locally is reported to the cobbler; one outside any job to its tenant (R434). -/
def reportLost (x : Sess) (s : State) : State :=
  match x.job.bind (job? s) with
  | some j =>
    if j.map.cobbler = selfNode s then modJob j.map.job (fun j => { j with lostCount := j.lostCount + 1 }) s
    else sendLace j.map.cobbler 11 (ownHdr j) (le 2 1 ++ zeros 1 ++ le (selfNode s) 2 ++ le 1 4) s
  | none => logTo [x.e.tenant] 2 3 (unitChip 0) 0x020C x.e.handle.toNat s

/-- A session's committed state is lost here (R57, R434). -/
def loseSession (idx : Nat) (s : State) : State :=
  match sess? s idx with
  | none => s
  | some x =>
    if x.e.state = .ash then s
    else
      let s := unlocate x (toAsh idx (endTurnNow idx 0x2E s))
      let s := { s with err := { s.err with sesLost := sat (s.err.sesLost + 1) 16 } }
      reportLost x s

/-! ### Suspect copies and disputes (R57, R65 to R68) -/

/-- A copy becomes SUSPECT: it is held and not served. LANE holds a lane's number only while the session is LIVE (R54). -/
def suspend (idx : Nat) (s : State) : State :=
  modSess idx (fun x =>
    if x.e.state = .free || x.e.state = .ash || x.e.state = .suspect then x
    else { x with e := { x.e with prior := x.e.state, state := .suspect, lane := 0xFFFF } }) s

/-- A copy in a move becomes SUSPECT with its PRIOR_STATE kept (R57, R65). -/
def suspendKeep (idx : Nat) (s : State) : State :=
  modSess idx (fun x => if x.e.state = .moving then { x with e := { x.e with state := .suspect } } else x) s

/-- What a member answers to a claim query (R66): none where it holds no entry. -/
def claimOf (s : State) (h : Word) : Option ClaimAns :=
  (byHandle? s h).map fun p =>
    let e := p.2.e
    let dest := match p.2.mv with | some m => !m.source | none => false
    { node := selfNode s, state := e.state, epoch := e.ownerEpoch, count := e.auditCount, head := e.auditHead,
      inPlace := !dest, moved := e.state = .ash && e.moved, forward := e.forwardNode }

/-- Answer a claim query: the copy becomes SUSPECT (R66). -/
def answerClaim (h : Word) (s : State) : Option ClaimAns × State :=
  match byHandle? s h with
  | none => (none, s)
  | some (idx, _) => (claimOf s h, suspend idx s)

/-- The slot home opens a dispute: a claim query to every other member, 10 ms to answer; its own copy answers at once
(R66). -/
def openDispute (h : Word) (job : Nat) (s : State) : State :=
  match job? s job with
  | none => s
  | some j =>
    if s.ses.disputes.any fun d => d.handle = h then s
    else
      let (a, s) := answerClaim h s
      let d : Dispute := { handle := h, job := job, due := now s + 10000000, answers := a.toList }
      let s := { s with ses := { s.ses with disputes := s.ses.disputes ++ [d] } }
      (j.map.members.filter fun m => m.node ≠ selfNode s).foldl (fun s m => sendSession m.node job (.claimQuery h) s) s

/-- Report a SUSPECT copy to its slot home (R65). -/
def reportSuspect (idx : Nat) (s : State) : State :=
  match sess? s idx with
  | none => s
  | some x =>
    match x.job.bind (job? s) with
    | none => s
    | some j =>
      let home := homeNode s j.map x.e.handle
      if home = selfNode s then openDispute x.e.handle j.map.job s
      else sendSession home j.map.job (.suspectReport x.e.handle) s

/-- The copy an answer stands for: its node, its epoch. A MOVED answer votes for the node it moved to (R67). -/
def claimFor (a : ClaimAns) : Nat := if a.moved then a.forward else a.node

/-- Whether an answer ranks: a copy, or a MOVED vote. -/
def ranks (a : ClaimAns) : Bool := a.state ≠ .ash || a.moved

/-- The order of R67: `a` before `b`. -/
def claimKey (a : ClaimAns) : List Nat := [2 ^ 64 - a.epoch, 2 ^ 64 - a.count, if a.inPlace then 0 else 1, claimFor a]

/-- The winner of R67, where one is named. -/
def disputeWinner (as : List ClaimAns) : Option (Nat × Nat) :=
  let as := as.filter ranks
  match leastBy claimKey as with
  | none => none
  | some a =>
    match leastBy claimKey (as.filter fun b => claimFor b ≠ claimFor a) with
    | none => some (claimFor a, a.epoch)
    | some b => if a.epoch = b.epoch && a.count = b.count && a.head ≠ b.head then none else some (claimFor a, a.epoch)

/-- A copy that returns to EMBER has its storage in T0 or T1 (R55): one whose stripe lies in T2 or T3 gets it back in T1 (log entry 43). -/
def emberPlace (idx : Nat) (s : State) : State :=
  match sess? s idx with
  | none => s
  | some x =>
    if x.e.state = .ember && x.e.place ≥ 2 then
      let s := modSess idx (fun x => { x with
        e := { x.e with place := 1 }, desc := none,
        st := placedIn (attnCount s x.e.ctx) 1 { x.st with rows := listedRows x.st.rowList x.st.rows } }) (freeDesc x s)
      placeSess idx (retile idx s)
    else s

/-- A dispute's settlement reaches a copy (R64, R68). A copy whose PRIOR_STATE was MOVING becomes EMBER. -/
def settleCopy (h : Word) (winner epoch : Nat) (s : State) : State :=
  match byHandle? s h with
  | none => s
  | some (idx, x) =>
    if x.e.state ≠ .suspect then s
    else if winner = selfNode s then
      let back (e : Entry) : SesState := if e.prior = .moving then .ember else e.prior
      let lane : Nat := ((s.stp.lanes.find? fun l => l.2.turn.idx = idx).map (·.1)).getD 0xFFFF
      emberPlace idx <| modSess idx (fun x => { x with
        e := { x.e with state := back x.e, lane := if back x.e = .live then lane else 0xFFFF,
                        ownerEpoch := max x.e.ownerEpoch epoch }, mv := none }) s
    else toAsh idx (endTurnNow idx 0x2B s)

end Sys2Proof.Machine
end

