-- ==== Sys2Proof/Machine/CtxCore.lean ====
section
/-!
DEFINITION. Sys2Proof/Machine/CtxCore.lean: contexts (R96), the lending of banks (R183), the adapter table (R92).
-/
namespace Sys2Proof.Machine
open Sys2Proof

/-! ### Lending (R183) -/

/-- Clear a bank to zero with valid check bits (R182). -/
def clearBank (k : Nat) (s : State) : State :=
  { s with mem := { s.mem with t0 := s.mem.t0.filter (fun c => c.1 / 2 ^ 25 ≠ k), flips := s.mem.flips.filter fun f => f.bank ≠ k } }

/-- The context that a lent bank serves: its own where that has pages or state on the tile and may use it, else the least
that has (log entry 18). -/
def borrower (s : State) (t c : Nat) (own : Bool) : Option Nat :=
  let on (d : Nat) : Bool := (placementNow s).any fun e => e.ctx = d && e.part ≤ 1 && bit e.mask t
  if own && on c then some c else (List.range 4).find? fun d => d ≠ c && on d && (ctxOf s d).state ≠ 1

/-- Lend a bank that is in its image use to the KV of a context on its tile. -/
def lendBank (own : Bool) (k : Nat) (s : State) : State :=
  let b := bankOf s k
  if b.lent || b.use ≠ b.home || b.pending.isSome || bankFenced s k then s
  else match borrower s (k / 64) b.ctx own with
    | none => s
    | some d => modBank k (fun b => { b with lent := true, use := 2, ctx := d }) (clearBank k s)

/-- A lent bank returns to its image use; its pages leave by lossless spill. -/
def returnBank (k : Nat) (s : State) : State :=
  if (bankOf s k).lent then
    let s := modBank k (fun b => { b with lent := false, use := b.home, ctx := b.homeCtx }) s
    clearBank k (emptyBank k s)
  else s

/-- The banks whose image use and context meet a test. -/
def banksHome (s : State) (p : Nat → Bank → Bool) : List Nat := (s.mem.banks.filter fun b => p b.1 b.2).map (·.1)

/-- Lend the weight banks of an UNLOADED context where LEND_WHEN_UNLOADED is set. -/
def lendWeights (c : Nat) (s : State) : State :=
  if bit s.regs.ctxCfg.toNat (4 * c + 2) then
    (banksHome s fun _ b => b.home = 1 && b.homeCtx = c).foldl (fun s k => lendBank false k s) s
  else s

/-- Return the lent weight banks of a context that is to load. -/
def returnWeights (c : Nat) (s : State) : State :=
  (banksHome s fun _ b => b.home = 1 && b.homeCtx = c).foldl (fun s k => returnBank k s) s

/-- Lend every reserve bank. -/
def lendReserve (s : State) : State := (banksHome s fun _ b => b.home = 4).foldl (fun s k => lendBank true k s) s

/-- Lend what can be lent: reserve banks, and weight banks of contexts that are UNLOADED. -/
def lendAll (s : State) : State :=
  (List.range 4).foldl (fun s c => if (ctxOf s c).state = 1 then lendWeights c s else s) (lendReserve s)

/-! ### Loads (R96, R196) -/

/-- The staged weight set of a context whose SHA-256 equals its WEIGHTS_DIGEST (R32). -/
def sourceOf (s : State) (c : Nat) : Option Obj :=
  match ctxCfg? s c, (ctxOf s c).source with
  | some cfg, some id => s.mem.objs.find? fun o => o.id = id && sha256 o.raw = cfg.digest
  | _, _ => none

/-- A context's load is refused and logged. -/
def loadRefused (c : Nat) (s : State) : State := logAll 1 6 (unitChip 0x36) 0x0303 c s

/-- Start the load of an UNLOADED context: LOADING, in the order of requests; refused without an accepted weight set. -/
def startLoad (c : Nat) (s : State) : State :=
  if (ctxOf s c).state ≠ 1 then s
  else match ctxCfg? s c, sourceOf s c with
    | some cfg, some o =>
      if o.tier = 1 && weightSetOk o.raw cfg (placementNow s) then
        let s := returnWeights c s
        let s := modCtx c (fun x => { x with state := 2, ready := false, weights := o.raw }) s
        { s with stp := { s.stp with loads := s.stp.loads ++ [c] } }
      else loadRefused c (if slice o.raw 0 8 = ascii "YWEIGHTS" then noteVersion 0x30 o.raw 8 s else s)
    | _, _ => loadRefused c s

/-- Drop a context's load. -/
def dropLoad (c : Nat) (s : State) : State := { s with stp := { s.stp with loads := s.stp.loads.filter (· ≠ c) } }

/-- LOAD_ON_TURN of a context (R104). -/
def loadOnTurn (s : State) (c : Nat) : Bool := bit s.regs.ctxCfg.toNat (4 * c + 1)

/-- AUTO_RELOAD of a context (R104). -/
def autoReload (s : State) (c : Nat) : Bool := bit s.regs.ctxCfg.toNat (4 * c)

/-- A context becomes UNLOADED: its weight banks may be lent, and it loads again under AUTO_RELOAD where that applies. -/
def becomeUnloaded (c : Nat) (reload : Bool) (s : State) : State :=
  let s := modCtx c (fun x => { x with state := 1, ready := false, unload := false, fault := none }) (dropLoad c s)
  let s := lendWeights c s
  if reload && autoReload s c && (sourceOf s c).isSome then startLoad c s else s

/-! ### Adapters (R92 to R94) -/

/-- ADAPTER_STATE (R92): to every tenant whose CONTEXT_MASK includes the context. -/
def adapterEvent (a : Adapter) (st : Nat) (s : State) : State :=
  logTo (ctxTenants s a.ctx) 0 6 (unitChip 0x36) 0x0302 (a.id + a.ver * 2 ^ 16 + st * 2 ^ 48) s

/-- Whether two table entries are one version. -/
def sameAdapter (a b : Adapter) : Bool := a.ctx = b.ctx && a.id = b.id && a.ver = b.ver

/-- Give an adapter version a state; FREE (0) takes it out of the table and releases its container. -/
def setAdapter (a : Adapter) (st : Nat) (s : State) : State :=
  let as := if st = 0 then s.stp.adapters.filter (fun x => !sameAdapter a x)
    else s.stp.adapters.map fun x => if sameAdapter a x then { x with state := st } else x
  let objs := if st = 0 then s.mem.objs.filter (fun o => !(o.kind = 1 && o.raw = a.raw)) else s.mem.objs
  adapterEvent a st { s with stp := { s.stp with adapters := as }, mem := { s.mem with objs := objs } }

/-- The least object id from `n` on that none holds; `k` bounds the search. -/
def freeObjId (s : State) : Nat → Nat → Nat
  | 0, n => n % 2 ^ 20
  | k + 1, n => if s.mem.objs.any (·.id = n % 2 ^ 20) then freeObjId s k (n + 1) else n % 2 ^ 20

/-- The id that the next object takes. -/
def nextObjId (s : State) : Nat := freeObjId s s.mem.objs.length s.mem.nextObj

/-- Put an object in the table. -/
def addObj (o : Obj) (s : State) : State :=
  { s with mem := { s.mem with objs := s.mem.objs ++ [o], nextObj := (o.id + 1) % 2 ^ 20 } }

/-- An object. -/
def obj? (s : State) (id : Nat) : Option Obj := s.mem.objs.find? (·.id = id)

/-- Change an object. -/
def modObj (id : Nat) (f : Obj → Obj) (s : State) : State :=
  { s with mem := { s.mem with objs := s.mem.objs.map fun o => if o.id = id then f o else o } }

/-- Whether a channel's share has room for `n` blocks of an object. -/
def shareRoom (s : State) (o : Obj) (ch n : Nat) : Bool :=
  let c := chanOf s ch
  !c.fenced && (if o.kind = 2 then c.vecUsed + n ≤ vecShare s else c.used + n ≤ chanShare s)

/-- The first block of an object on each channel it is to lie on. -/
def objPlace (s : State) (o : Obj) : Option (List (Nat × Nat)) :=
  ((List.range 32).filter fun ch => objBlocks o ch ≠ 0).mapM fun ch => (t2Run s ch (objBlocks o ch)).map fun b => (ch, b)

/-- Whether T2 has room for an object. -/
def objRoomT2 (s : State) (o : Obj) : Bool :=
  (objPlace s o).isSome && (List.range 32).all fun ch => objBlocks o ch = 0 || shareRoom s o ch (objBlocks o ch)

/-- Count an object's blocks on the channels of T2, or take them off. -/
def countT2 (add : Bool) (o : Obj) (s : State) : State :=
  (List.range 32).foldl (fun s ch =>
    let n := objBlocks o ch
    if n = 0 then s
    else modChan ch (fun c =>
      if o.kind = 2 then { c with vecUsed := if add then c.vecUsed + n else c.vecUsed - n }
      else { c with used := if add then c.used + n else c.used - n }) s) s

/-- Take the blocks of an object in T2. -/
def reserveT2 (o : Obj) (s : State) : State :=
  match objPlace s o with
  | some bs => countT2 true o (modObj o.id (fun o => { o with blocks := bs }) s)
  | none => s

/-- The key of an object's bytes in T2 (R189, R407): that of its context for weight sources and adapter containers, the module's own for
checkpoint staging, a tenant's for the others. No placement call names a tenant: tenant 0 (log entry 149). -/
def objKey (s : State) (o : Obj) : Bytes :=
  match o.kind with
  | 0 | 1 => contextKey s (o.ctx.getD 0)
  | 3 => localKey
  | _ => tenantKey s 0

/-- Channel and logical block of tile `k` of an object. -/
def objTile (o : Obj) (k : Nat) : Nat × Nat :=
  let n := if o.region = 0xF then 32 else 4
  let ch := if o.region = 0xF then k % 32 else 4 * o.region + k % 4
  (ch, findD ch o.blocks 0 + k / n)

/-- An object's bytes are written to its blocks in T2; a tile that was never written in T1 is zeros (R173). -/
def writeObj (o : Obj) (s : State) : State :=
  let s := (List.range o.size).foldl (fun s k =>
    let t := objTile o k
    writeT2 (objKey s o) t.1 t.2 (slice o.raw (65536 * k) 65536) s) s
  (List.range 32).foldl (fun s ch => if objBlocks o ch = 0 then s else modChan ch (fun c => { c with wear := c.wear + objBlocks o ch }) s) s

/-- Free an object's blocks in T2. -/
def releaseT2 (o : Obj) (s : State) : State :=
  let s := (List.range o.size).foldl (fun s k => let t := objTile o k; eraseT2 t.1 t.2 s) s
  countT2 false o (modObj o.id (fun o => { o with blocks := [] }) s)

/-- An object is taken out of the table and its tiles are free. -/
def dropObj (o : Obj) (s : State) : State :=
  let s := if o.takes 2 then releaseT2 o s else s
  let s := { s with mem := { s.mem with objs := s.mem.objs.filter (·.id ≠ o.id) } }
  (List.range 4).foldl (fun s c => if (ctxOf s c).source = some o.id then modCtx c (fun x => { x with source := none }) s else s) s

/-- Whether every region of T1 has room for its share of an object (R173). -/
def objRoomT1 (s : State) (o : Obj) : Bool := (List.range 8).all fun r => objTiles s o r ≤ t1FreeIn s r

/-- Whether a tier has room for an object. -/
def objRoom (s : State) (o : Obj) (tier : Nat) : Bool := if tier = 1 then objRoomT1 s o else objRoomT2 s o

/-- The container of an adapter version is an object in T1 (R94, R179). -/
def holdContainer (ctx : Nat) (raw : Bytes) (s : State) : State :=
  addObj { id := nextObjId s, kind := 1, tier := 1, region := 0xF, size := ceilDiv raw.length 65536, ctx := some ctx, raw := raw } s

/-- The version of an ADAPTER_ID in a state. -/
def adapterIn (s : State) (c id st : Nat) : Option Adapter :=
  s.stp.adapters.find? fun a => a.ctx = c && a.id = id && a.state = st

/-- Whether an admitted turn binds a version (R93). -/
def adapterBound (s : State) (a : Adapter) : Bool :=
  s.ses.table.any fun p => p.2.e.turnAdmitted && p.2.e.ctx = a.ctx && p.2.e.adapterId = a.id && p.2.e.adapterVersion = a.ver

/-- A CURRENT version is retired: RETIRING while a turn binds it or a hold keeps it, else FREE. -/
def retire (a : Adapter) (s : State) : State := setAdapter a (if adapterBound s a || a.hold then 3 else 0) s

/-- RETIRING versions that nothing keeps become FREE (R92). -/
def freeRetired (s : State) : State :=
  (s.stp.adapters.filter fun a => a.state = 3 && !a.hold && !adapterBound s a).foldl (fun s a => setAdapter a 0 s) s

/-- The version a turn of a session binds, where one is required (R93): none where it has no CURRENT version. -/
def bindFor (s : State) (e : Entry) : Option Nat :=
  if e.adapterId = 0xFFFF then some 0 else (adapterIn s e.ctx e.adapterId 2).map (·.ver)

/-- The container of the version a session's turn binds. -/
def boundRaw (s : State) (e : Entry) : Option Bytes :=
  if e.adapterId = 0xFFFF then none
  else (s.stp.adapters.find? fun a => a.ctx = e.ctx && a.id = e.adapterId && a.ver = e.adapterVersion).map (·.raw)

end Sys2Proof.Machine
end

