-- ==== Sys2Proof/Machine/Operands.lean ====
section
/-!
DEFINITION. Sys2Proof/Machine/Operands.lean: a tack's bytes read into its header and body (R249, R252, R254 to R260,
R389, R391, R410, R415, R420), the fixed length of each body (R250), and its metered size (R280).
-/
namespace Sys2Proof.Machine
open Sys2Proof

/-- The tack header at the front of some bytes (R249). -/
def readTackHdr (qp dscp : Nat) (b : Bytes) : TackHdr :=
  { qp := qp, version := leAt b 0 1, flags := leAt b 2 2, length := leAt b 4 4, tag := BitVec.ofNat 64 (leAt b 8 8),
    handle := BitVec.ofNat 64 (leAt b 16 8), mapEpoch := leAt b 24 8, dscp := dscp }

/-- Whether FLAGS[0] selects a data reference. -/
def refFlag (flags : Nat) : Bool := bit flags 0

/-- A data reference at an offset (R251). -/
def readRef (b : Bytes) (o : Nat) : DataRef := { addr := leAt b o 8, len := leAt b (o + 8) 8, rkey := leAt b (o + 16) 4 }

/-- Inline data from an offset on, or the data reference there. -/
def readPayload (flags : Nat) (b : Bytes) (o : Nat) : Payload := if refFlag flags then .ref (readRef b o) else .inline (b.drop o)

/-- Sampling parameters at an offset (R255, R389). -/
def readSampling (b : Bytes) (o : Nat) : Sampling :=
  { invTemp := BitVec.ofNat 32 (leAt b o 4), topP := BitVec.ofNat 32 (leAt b (o + 4) 4), topK := leAt b (o + 8) 2 }

/-- The opcodes that are defined (R252, R391). -/
def opDefined (op : Nat) : Bool :=
  (1 ≤ op && op ≤ 0x0B) || (0x10 ≤ op && op ≤ 0x15) || (0x20 ≤ op && op ≤ 0x24) || op = 0x30 || op = 0x31 || op = 0x38 ||
  op = 0x3F || (0x40 ≤ op && op ≤ 0x46) || (0x50 ≤ op && op ≤ 0x53)

/-- LENGTH that holds the fixed part of an opcode's body (R250). -/
def fixedLen (op flags : Nat) : Nat :=
  let r := refFlag flags
  match op with
  | 0x01 => 64
  | 0x02 => if r then 120 else 96
  | 0x03 | 0x05 | 0x08 | 0x0A | 0x0B => 40
  | 0x11 => if r then 64 else 40
  | 0x12 | 0x14 => 40
  | 0x13 => 56
  | 0x15 => 64
  | 0x20 => if r then 56 else 288
  | 0x21 => 40
  | 0x22 => 56
  | 0x23 => 48
  | 0x24 => 120
  | 0x30 => 40
  | 0x31 => 48
  | 0x38 => 56
  | 0x40 => 64
  | 0x41 => 56
  | 0x42 => 16272
  | 0x43 => 48
  | 0x44 => 64
  | 0x45 => if r then 104 else 80
  | 0x46 => 40
  | 0x50 => 88
  | 0x51 => 64
  | 0x52 => 64
  | 0x53 => 56
  | _ => 32

/-- The body of a tack whose bytes, header included, are `b`; none for an opcode that is not defined. -/
def readBody (op flags : Nat) (b : Bytes) : Option TackBody :=
  match op with
  | 0x01 => some (.openSes { ctx := leAt b 32 1 % 4, cls := leAt b 33 1 % 4, flags := leAt b 34 1 % 4, budget := leAt b 36 4,
                             adapterId := leAt b 40 2, seedKey := slice b 48 16 })
  | 0x02 =>
    let n := leAt b 33 1
    some (.turn { cls := leAt b 32 1 % 8, stopCount := n, maxTokens := leAt b 34 2, inputCount := leAt b 36 4,
                  deadline := leAt b 40 8, samp := readSampling b 48,
                  stops := (List.range (min n 8)).map (fun i => leAt b (64 + 4 * i) 4), input := readPayload flags b 96 })
  | 0x03 => some (.park (leAt b 32 1))
  | 0x04 => some .wake
  | 0x05 => some (.kindle (leAt b 32 4))
  | 0x06 => some .pin
  | 0x07 => some .unpin
  | 0x08 => some (.move (leAt b 32 2 % 4096))
  | 0x09 => some .close
  | 0x0A => some (.confirm (leAt b 32 2 % 4096))
  | 0x0B => some (.resolve (leAt b 32 2 % 4096))
  | 0x10 => some .stageBegin
  | 0x11 => some (.stageData (leAt b 32 4) (readPayload flags b 40))
  | 0x12 => some (.stageEnd (leAt b 32 4))
  | 0x13 => some (.adapterLoad (readRef b 32))
  | 0x14 => some (.adapterDrop (leAt b 32 1) (leAt b 34 2))
  | 0x15 => some (.weightsStage (leAt b 32 1) (readRef b 40))
  | 0x20 => some (.vecCreate (readPayload flags b 32))
  | 0x21 => some (.vecDrop (leAt b 32 2))
  | 0x22 => some (.vecInsert { indexId := leAt b 32 2, cls := leAt b 34 1, id := BitVec.ofNat 64 (leAt b 40 8),
                               attr := BitVec.ofNat 64 (leAt b 48 8), data := b.drop 56 })
  | 0x23 => some (.vecDelete (leAt b 32 2) (leAt b 34 1) (leAt b 36 4) (leAt b 40 3))
  | 0x24 => some (.vecQuery (readRef b 32) (b.drop 56))
  | 0x30 => some (.regRead (leAt b 32 3))
  | 0x31 => some (.regWrite (leAt b 32 3) (BitVec.ofNat 64 (leAt b 40 8)))
  | 0x38 => some (.ringSetup { kind := leAt b 32 1, log2Slots := leAt b 33 1, rkey := leAt b 36 4, addr := leAt b 40 8,
                               consumerAddr := leAt b 48 8 })
  | 0x3F => some .nop
  | 0x40 => some (.ckpStore (leAt b 32 2) (leAt b 34 1) (leAt b 35 1) (leAt b 36 2 % 4096) (readRef b 40))
  | 0x41 => some (.ckpBegin (leAt b 32 2) (leAt b 34 2) (leAt b 36 2) (leAt b 38 1) (leAt b 40 8) (leAt b 48 8))
  | 0x42 => some (.ckpCommit (leAt b 32 2) (leAt b 40 8) (slice b 48 16224))
  | 0x43 => some (.ckpAbort (leAt b 32 2) (leAt b 40 8))
  | 0x44 => some (.ckpRestore (leAt b 32 2) (leAt b 34 1) (leAt b 35 1) (leAt b 36 2) (leAt b 38 2) (readRef b 40))
  | 0x45 => some (.ckpReplay { cls := leAt b 32 1 % 8, flags := leAt b 33 1 % 4, adapterVersion := leAt b 36 4,
                               expectLength := leAt b 40 4, count := leAt b 44 4, firstSample := leAt b 48 4,
                               expectLast := leAt b 52 4, samp := readSampling b 56, expectTurnSeq := leAt b 72 8,
                               input := readPayload flags b 80 })
  | 0x46 => some (.ckpCollect (leAt b 32 2))
  | 0x50 => some (.quote (slice b 32 32) (readRef b 64))
  | 0x51 => some (.auditRingSetup { kind := 2, log2Slots := leAt b 32 1, rkey := leAt b 36 4, addr := leAt b 40 8,
                                    consumerAddr := leAt b 48 8, producerAddr := leAt b 56 8 })
  | 0x52 => some (.auditRootRead (leAt b 32 8) (readRef b 40))
  | 0x53 => some (.identityRead (readRef b 32))
  | _ => none

/-- The data reference of a payload. -/
def payloadRef : Payload → Option DataRef
  | .inline _ => none
  | .ref r => some r

/-- Every data reference a body carries (R280). -/
def bodyRef : TackBody → Option DataRef
  | .turn b => payloadRef b.input
  | .stageData _ p => payloadRef p
  | .vecCreate p => payloadRef p
  | .ckpReplay b => payloadRef b.input
  | .adapterLoad r | .weightsStage _ r | .vecQuery r _ | .ckpStore _ _ _ _ r | .ckpRestore _ _ _ _ _ r | .quote _ r
  | .auditRootRead _ r | .identityRead r => some r
  | _ => none

/-- The metered size of a tack (R280). -/
def meteredSize (h : TackHdr) (b : TackBody) : Nat := h.length + ((bodyRef b).map (·.len)).getD 0

/-- The tenant right of R33 that an opcode requires (R252); none where it requires none. -/
def rightOf (op : Nat) : Option Nat :=
  if op = 1 || op = 2 then some 0
  else if 3 ≤ op && op ≤ 0x0B then some 6
  else if 0x10 ≤ op && op ≤ 0x15 then some 1
  else if 0x20 ≤ op && op ≤ 0x24 then some 5
  else if op = 0x30 then some 2
  else if op = 0x31 then some 3
  else if 0x40 ≤ op && op ≤ 0x46 then some 4
  else none

end Sys2Proof.Machine
end

