-- ==== Sys2Proof/Machine/VecWork.lean ====
section
/-!
DEFINITION. Sys2Proof/Machine/VecWork.lean: what the channel engines hold: coordinator contexts, input queues, forwarded work and
NAND commands (R210, R227, R228, R237).
-/
namespace Sys2Proof.Machine
open Sys2Proof

/-- The queries of every index. -/
def vecQueries (s : State) : List VQuery := s.vec.idxs.flatMap (·.queries)

/-- Coordinator contexts in use on an engine (R237). -/
def engCoord (s : State) (ch : Nat) : Nat := ((vecQueries s).filter fun q => q.ch = ch && q.active).length

/-- Commands in an engine's input queue. -/
def engInput (s : State) (ch : Nat) : Nat := ((vecQueries s).filter fun q => q.ch = ch && !q.active).length

/-- The context that a piece of work is in. -/
def VWork.ctx? (w : VWork) : Option Nat :=
  match w.stage with
  | .ready c | .reading c => some c
  | _ => none

/-- Whether a piece of work has a NAND command outstanding. -/
def VWork.reads (w : VWork) : Bool :=
  match w.stage with
  | .reading _ => true
  | _ => false

/-- Whether a piece of work is outstanding forwarded work of a coordinator context (R228). -/
def VWork.isOut (w : VWork) : Bool := !w.own && decide (w.stage ≠ .held)

/-- The work of an engine's contexts and queues. -/
def engWork (s : State) (ch : Nat) : List VWork := s.vec.work.filter (·.ch = ch)

/-- Forwarded-work contexts in use on an engine (R237). -/
def engFwd (s : State) (ch : Nat) : Nat := ((engWork s ch).filter fun w => !w.own && w.ctx?.isSome).length

/-- Items in an engine's forward queue. -/
def engFwdQueue (s : State) (ch : Nat) : Nat := ((engWork s ch).filter fun w => decide (w.stage = .queued)).length

/-- NAND commands outstanding on a channel (R227, R237). -/
def nandCmds (s : State) (ch : Nat) : Nat := ((engWork s ch).filter VWork.reads).length

/-- Forwarded work that a query has outstanding. -/
def outWork (s : State) (idx qseq : Nat) : Nat :=
  (s.vec.work.filter fun w => w.idx = idx && decide (w.owner = .query qseq) && w.isOut).length

/-- Work whose query, update, pass or batch there is. -/
def workLives (s : State) (w : VWork) : Bool :=
  s.vec.idxs.any fun x => x.id = w.idx && match w.owner with
    | .query n => x.queries.any (·.qseq = n)
    | .update u => x.waiting.any (·.seq = u)
    | .repair => x.repairing.isSome
    | .batch n => x.batches.any (·.num = n)

/-- Work that nobody waits for any more leaves the engines. -/
def sweepWork (s : State) : State := { s with vec := { s.vec with work := s.vec.work.filter (workLives s) } }

end Sys2Proof.Machine
end

