-- ==== Sys2Proof/Machine/Ingress.lean ====
section
/-!
DEFINITION. Sys2Proof/Machine/Ingress.lean: a tack's way from the wire to the parser: meters (R280 to R282), the
arrival checks of R253, the ingress class queues (R283), and a queue pair leaving READY (R248).
-/
namespace Sys2Proof.Machine
open Sys2Proof

/-! ### Meters -/

/-- A meter's entry in the active image (R37). -/
def meterCfg? (s : State) (n : Nat) : Option MeterCfg := s.img.active.bind fun i => i.meters[n]?

/-- The meter a queue pair names; none where it is unmetered (R34, R280). -/
def meterOf? (s : State) (qp : Nat) : Option (Nat × MeterCfg) :=
  match qpCfg? s qp with
  | none => none
  | some c => if c.meter = 0xFFFF then none else (meterCfg? s c.meter).map fun m => (c.meter, m)

/-- A meter with full buckets at time `t` (R281). -/
def Meter.full (c : MeterCfg) (t : Nat) : Meter := { tc := c.cbs * 1000000, tp := c.pbs * 1000000, last := t }

/-- The pre-colour of a DSCP: 0 green, 1 yellow, 2 red (R282). -/
def preColour (c : MeterCfg) (dscp : Nat) : Nat :=
  if !c.aware then 0 else match field dscp 1 2 with | 2 => 1 | 3 => 2 | _ => 0

/-- MARK of R281: the colour and the meter after it. -/
def Meter.mark (c : MeterCfg) (size t pre : Nat) (m : Meter) : Nat × Meter :=
  let d := t - m.last
  let tc := min (m.tc + c.cir * d) (c.cbs * 1000000)
  let tp := min (m.tp + c.pir * d) (c.pbs * 1000000)
  let b := size * 1000000
  let m := { m with last := t, tc := tc, tp := tp }
  if pre = 2 ∨ tp < b then (2, m)
  else if pre = 1 ∨ tc < b then (1, { m with tp := tp - b })
  else (0, { m with tc := tc - b, tp := tp - b })

/-- An ingress class queue (R283). -/
def classQ (s : State) (c : Nat) : List QTack := findD c s.shp.cls []

/-- Set an ingress class queue. -/
def setClassQ (c : Nat) (q : List QTack) (s : State) : State := { s with shp := { s.shp with cls := putN c q s.shp.cls } }

/-- The tacks of a meter that wait in a class queue (R283). -/
def meterTacks (s : State) (c n : Nat) : Nat := (classQ s c).countP fun q => (meterOf? s q.hdr.qp).any (·.1 = n)

/-- Mark a tack: its colour, or 3 for a yellow tack that finds YELLOW_DEPTH tacks of its meter waiting in its class queue (R281 to R283, R479,
log entry 178). -/
def markTack (h : TackHdr) (b : TackBody) (s : State) : Nat × State :=
  match meterOf? s h.qp with
  | none => (0, s)
  | some (n, c) =>
    let m := findD n s.shp.meters (Meter.full c 0)
    let (col, m) := m.mark c (meteredSize h b) (now s) (preColour c h.dscp)
    let depth := meterTacks s (((qpCfg? s h.qp).map (·.topClass)).getD 0) n
    let out := if col = 1 ∧ depth ≥ c.yellow then 3 else col
    let m := match out with
      | 0 => { m with green := sat (m.green + 1) 32 }
      | 1 => { m with yellow := sat (m.yellow + 1) 32 }
      | 3 => { m with yRef := sat (m.yRef + 1) 32 }
      | _ => { m with red := sat (m.red + 1) 32 }
    let s := if out = 3 then hit 10 s else s
    (out, { s with shp := { s.shp with meters := putN n m s.shp.meters } })

/-! ### Arrival (R250, R253 checks 2 to 5) -/

/-- No receive buffer is free: an RNR NAK with its timer (R245). -/
def rnrNak (qp : Nat) (s : State) : State :=
  let s := { s with hst := { s.hst with rnrNaks := sat (s.hst.rnrNaks + 1) 32 } }
  hit 7 (pushCtl (.rnr qp (wfield s.regs.hstCfg 0 5)) (roceLen s false 4) s)

/-- A SEND takes a receive buffer, under a number of its own (R245). -/
def takeBuffer (s : State) : Nat × State :=
  let g := s.shp.groups + 1
  (g, { s with shp := { s.shp with groups := g }, hst := { s.hst with poolUsed := s.hst.poolUsed + 1 } })

/-- A tack takes its place in its queue pair's order of completions (R264). -/
def enterOrder (h : TackHdr) (op : Nat) (s : State) : State :=
  if orderedOp op then modQp h.qp (fun q => { q with order := q.order ++ [{ tag := h.tag, op := op }] }) s else s

/-- Checks 2 to 5 of R253, in order. The answer says whether the tack goes on to its class queue. -/
def arrivalChecks (h : TackHdr) (op : Nat) (b : Option TackBody) (s : State) : Bool × State :=
  let q := qpOf s h.qp
  let refuse (st : Nat) (w : Words) (s : State) : Bool × State := (false, completeOp h op st s w)
  let s := enterOrder h op s
  if h.version / 8 ≠ q.version / 8 then
    refuse 0x02 {} (logAll 1 6 (unitChip 0x30) 0x0405 (h.version % 256) s)
  else match (if opDefined op then b else none) with
    | none => refuse 0x03 {} s
    | some body =>
      if h.length < fixedLen op h.flags then refuse 0x0A {} s
      else if q.result.isNone && op ≠ 0x38 then
        let s := modQp h.qp (fun q => { q with order := if orderedOp op then q.order.dropLast else q.order }) s
        (false, { s with hst := { s.hst with noRing := sat (s.hst.noRing + 1) 32 } })
      else
        let (c, s) := markTack h body s
        if c = 2 then refuse 0x08 { a := 2 } (refusedTurn h body s)
        else if c = 3 then refuse 0x08 { a := 1 } (refusedTurn h body s)
        else (true, s)

/-- The bindings of a queue pair now. -/
def bindOf (s : State) (qp : Nat) : Bind :=
  match qpCfg? s qp with
  | none => {}
  | some c =>
    match tenant? s c.tenant with
    | some t => { tenant := c.tenant, rights := t.rights, ctxMask := t.ctxMask, topClass := c.topClass }
    | none => { tenant := c.tenant, topClass := c.topClass }

/-- A tack enters the ingress class queue of its queue pair's TOP_CLASS. `g` numbers the SEND that carried it. -/
def enqueueTack (h : TackHdr) (b : TackBody) (g : Nat) (s : State) : State :=
  let c := ((qpCfg? s h.qp).map (·.topClass)).getD 0
  setClassQ c (classQ s c ++ [{ hdr := h, body := b, tArr := now s, group := g, bind := bindOf s h.qp }]) s

/-- How many tacks of a SEND still wait. -/
def groupWaits (s : State) (g : Nat) : Nat := findD g s.shp.groupLeft 0

/-- One tack fewer of a SEND waits; with the last, its receive buffer is free (R245, R283). -/
def releaseGroup (g : Nat) (s : State) : State :=
  if g = 0 then s
  else
    let n := groupWaits s g - 1
    if n = 0 then
      { s with shp := { s.shp with groupLeft := erase g s.shp.groupLeft }, hst := { s.hst with poolUsed := s.hst.poolUsed - 1 } }
    else { s with shp := { s.shp with groupLeft := putN g n s.shp.groupLeft } }

/-- The class queue whose head the parser takes next: strict order (R283). -/
def parserClass (s : State) : Option Nat := (List.range 4).find? fun c => !(classQ s c).isEmpty

/-- Whether a tack waits in a class queue. -/
def waitsInQueue (h : TackHdr) (b : TackBody) (s : State) : Bool :=
  (List.range 4).any fun c => (classQ s c).any fun q => q.hdr = h && q.body = b

/-- What a tack's row meets: the tack is taken now, having arrived at `t` under bindings `b`; or it is not. -/
inductive Taken where
  | taken (t : Nat) (b : Bind) (s : State)
  | done (s : State)

/-- Whether the parser has a tack to take before one that enters class queue `c` now: strict order, then arrival order (R283). -/
def waitsBehind (s : State) (c : Nat) : Bool := (List.range (c + 1)).any fun k => !(classQ s k).isEmpty

/-- A tack's row: where the tack waits, the parser takes it if it is next; where it does not, it arrives now, the one tack of its SEND
(log entry 2), and is taken at once unless the parser has others to take before it. -/
def takeTack (h : TackHdr) (b : TackBody) (s : State) : Taken :=
  if waitsInQueue h b s then
    match parserClass s with
    | none => .done s
    | some c =>
      match classQ s c with
      | x :: rest => if x.hdr = h && x.body = b then .taken x.tArr x.bind (releaseGroup x.group (setClassQ c rest s)) else .done s
      | [] => .done s
  else if (qpOf s h.qp).st ≠ 2 then .done s
  else if s.hst.poolUsed ≥ 1024 then .done (rnrNak h.qp s)
  else if h.length < 32 ∨ h.length % 8 ≠ 0 then .done (completeOp h (opcodeOf b) 0x01 (enterOrder h (opcodeOf b) s))
  else
    match arrivalChecks h (opcodeOf b) (some b) s with
    | (true, s) =>
      if waitsBehind s (((qpCfg? s h.qp).map (·.topClass)).getD 0) then
        let (g, s) := takeBuffer s
        .done (enqueueTack h b g { s with shp := { s.shp with groupLeft := putN g 1 s.shp.groupLeft } })
      else .taken (now s) (bindOf s h.qp) s
    | (false, s) => .done s

/-! ### A queue pair leaving READY (R248) -/

/-- Whether an egress frame belongs to a queue pair's rings or fetches. -/
def frameOfQp (qp : Nat) (f : EFrame) : Bool :=
  match f.outs with
  | some (.rdmaWrite q _ _ _) => q = qp
  | some (.rdmaRead q _ _ _) => q = qp
  | _ => false

/-- Whether a tack came in on a queue pair of this module. -/
def ownTack (qp : Nat) (h : TackHdr) : Bool := h.qp = qp && h.fwd.isNone

/-- The tacks of a queue pair in the class queues are discarded (R284). -/
def dropQueued (qp : Nat) (s : State) : State :=
  (List.range 4).foldl (fun s c =>
    let q := classQ s c
    let gone := q.filter (·.hdr.qp = qp)
    if gone.isEmpty then s
    else gone.foldl (fun s x => releaseGroup x.group s) (setClassQ c (q.filter (·.hdr.qp ≠ qp)) s)) s

/-- The egress frames of a queue pair's rings and fetches are removed from their queue; where the head goes, the next frame takes its
place and its start tag (R286). -/
def EQueue.dropQp (qp : Nat) (q : EQueue) : EQueue :=
  let left := q.frames.filter fun f => !frameOfQp qp f
  match q.tag, q.frames, left with
  | some _, _ :: _, [] => { q with frames := [], tag := none, woke := true }
  | some st, f :: _, g :: _ =>
    if frameOfQp qp f then { q with frames := left, fLast := (st + g.len * 65536 / max q.weight 1) % 2 ^ 64 }
    else { q with frames := left }
  | _, _, _ => { q with frames := left }

/-- The same on every queue of the host port, and for its stalled frames; stalled issuers follow where room frees (R288). -/
def EPort.dropQp (qp : Nat) (p : EPort) : EPort :=
  let qs := p.queues.map fun q => (q.1, q.2.dropQp qp)
  let p := { p with queues := qs, maxF := qs.foldl (fun m (x : Nat × EQueue) => if x.2.tag.isSome then laterTag m x.2.fLast else m) p.maxF }
  p.settle.refill (egressRoom 0) (p.stalled.filter fun x => !frameOfQp qp x.2)

/-- Whether an egress frame writes a record into a result ring. -/
def recordIn (qp : Nat) (r : Ring) (f : EFrame) : Bool :=
  match f.outs with
  | some (.rdmaWrite q k a b) => q = qp && k = r.rkey && b.length = 64 && r.addr ≤ a && a < r.addr + 64 * r.slots
  | _ => false

/-- The result records due on a queue pair: completions that wait for earlier ones, records that wait for others or at a full ring, and
those in the egress queues (R248, R269). -/
def recordsDue (s : State) (qp : Nat) : Nat :=
  let q := qpOf s qp
  q.order.countP (·.res.isSome) + s.hst.batch.countP (fun x => x.qp = qp && x.gen = q.gen && x.fwd.isNone) +
  match q.result with
  | some r => r.held.length + sumN ((portOf s 0).queues.map fun x => x.2.frames.countP (recordIn qp r))
  | none => 0

/-- Keep a tack's header unless it arrived on a queue pair. -/
def keepHdr (qp : Nat) (h : Option TackHdr) : Option TackHdr := h.bind fun x => if ownTack qp x then none else some x

/-- Everything that waits to answer a queue pair is forgotten: its tacks end without a record, and the records due are lost and counted
(R248, R251, R269). -/
def forgetQp (qp : Nat) (s : State) : State :=
  let s := dropQueued qp (countLost qp (recordsDue s qp) s)
  let gen := (qpOf s qp).gen
  let s := modQp qp (fun q =>
    { q with result := none, event := none, audit := none, fetches := [], readsDue := [], order := [], retries := 0, unacked := [] }) s
  let keep (x : TackHdr × TackBody) : Bool := !ownTack qp x.1
  let disputes := s.ses.disputes.map fun d => { d with waiting := d.waiting.filter keep }
  let quotes := s.sec.quotes.filter fun q => match q.hdr with | some x => !ownTack qp x.1 | none => true
  let upd (u : VUpd) : VUpd := { u with answer := u.answer.bind fun a => if ownTack qp a.1 then none else some a }
  let idxs := s.vec.idxs.map fun i =>
    let qs := i.queries.filter fun q => !ownTack qp q.hdr
    let held (b : VBatch) : VBatch := { b with reqs := b.reqs.filter fun n => qs.any (·.qseq = n) }
    { i with queries := qs, waiting := i.waiting.map upd, batches := (i.batches.map held).filter (!·.reqs.isEmpty) }
  let ckp := { s.ckp with
    hdr := keepHdr qp s.ckp.hdr, collect := keepHdr qp s.ckp.collect,
    restore := s.ckp.restore.map fun r => { r with hdr := keepHdr qp r.hdr } }
  sweepWork <| modPort 0 (·.dropQp qp)
    { s with
      hst := { s.hst with catchUp := s.hst.catchUp.filter (fun x => !ownTack qp x.2.1),
                          batch := s.hst.batch.filter fun x => !(x.qp = qp && x.gen = gen && x.fwd.isNone) },
      ses := { s.ses with disputes := disputes },
      map := { s.map with openWait := s.map.openWait.filter (fun x => !ownTack qp x.2.1) },
      ckp := ckp,
      sec := { s.sec with quotes := quotes },
      vec := { s.vec with idxs := idxs, wins := s.vec.wins.filter (·.hdr.qp ≠ qp) } }

/-- The queue pair number a peer addresses: 0x01_0000 + QP_INDEX (R246). -/
def qpNumber (qp : Nat) : Nat := 0x10000 + qp

/-- A queue pair leaves READY or CONNECTING for a state. -/
def leaveReady (qp st : Nat) (s : State) : State :=
  drainBatch (settleTurns (modQp qp (fun q => { q with st := st, since := now s }) (forgetQp qp s)))

/-- A queue pair that is connecting or connected enters ERROR: DREQ sent as `dreq` says, event logged (R248). -/
def enterError (dreq : Nat → State → State) (qp : Nat) (s : State) : State :=
  let t := tenantOf s qp
  logTo [t] 1 6 (unitChip 0x30) 0x0601 qp (dreq qp (leaveReady qp 3 s))

/-- A READY queue pair enters ERROR (R248). -/
def qpError (qp : Nat) (s : State) : State :=
  if (qpOf s qp).st = 2 then enterError (fun qp => pushCtl (.cm (qpNumber qp) [] 4) 324) qp s else s

/-- Every queue pair that is READY, or CONNECTING, enters ERROR, and its DREQ leaves before the transmitter is off (R248, R269, log entry
136). -/
def allQpError (s : State) : State :=
  let dreq (qp : Nat) (s : State) : State := if s.hst.linkUp && s.hst.txOn then emit (.cm (qpNumber qp) [] 4) s else s
  (s.hst.qps.filter fun q => q.2.st = 1 || q.2.st = 2).foldl (fun s q => enterError dreq q.1 s) s

/-! ### Data references (R251) -/

/-- Issue `n` READs of a range, at most 1 MiB each, from its `i`-th on. -/
def issueReads (qp : Nat) (r : DataRef) (i n : Nat) (s : State) : State :=
  (List.range n).foldl (fun s k =>
    rdmaRead qp r.rkey (r.addr + (i + k) * 2 ^ 20) (min (2 ^ 20) (r.len - (i + k) * 2 ^ 20)) s) s

/-- The fetches of a queue pair send READs in order while fewer than 64 are out: `room` is how many more may go. -/
def launchList (qp : Nat) : Nat → List Fetch → State → List Fetch × State
  | _, [], s => ([], s)
  | room, f :: l, s =>
    let n := min room f.left
    let s := issueReads qp f.ref (readsOf f.ref - f.left) n s
    let (l, s) := launchList qp (room - n) l s
    ({ f with left := f.left - n } :: l, s)

/-- READs that wait go out while fewer than 64 are out: consumer counts first, then the fetches in order (R251). -/
def launchReads (qp : Nat) (s : State) : State :=
  let q := qpOf s qp
  let k := min (64 - readsOut q) q.readsDue.length
  let s := (q.readsDue.take k).foldl (fun s x => rdmaRead qp x.1 x.2 8 s) (modQp qp (fun q => { q with readsDue := q.readsDue.drop k }) s)
  let (fs, s) := launchList qp (64 - readsOut (qpOf s qp)) (qpOf s qp).fetches s
  modQp qp (fun q => { q with fetches := fs }) s

/-- A range of host memory is fetched for a tack, on its queue pair: its READs go out while fewer than 64 are out, the rest wait.
`part` is what came before, `stage` what the tack does with it, `d` the bindings that its later checks go by. -/
def startFetch (h : TackHdr) (b : TackBody) (r : DataRef) (stage : Nat) (part : Bytes) (s : State)
    (tArr : Nat := 0) (d : Bind := {}) : State :=
  let n := min (64 - readsOut (qpOf s h.qp)) (readsOf r)
  let s := if n < readsOf r then hit 9 s else s
  let f : Fetch := { hdr := h, body := b, ref := r, left := readsOf r - n, stage := stage, part := part, tArr := tArr, bind := d }
  let s := modQp h.qp (fun q => { q with fetches := q.fetches ++ [f] }) s
  issueReads h.qp r 0 n s

/-- Whether a reference is refused before any READ. -/
def refRefused (r : DataRef) : Bool := r.len = 0 || r.addr + r.len > 2 ^ 64

end Sys2Proof.Machine
end

