-- ==== Sys2Proof/Machine/StepCore.lean ====
section
/-!
DEFINITION. Sys2Proof/Machine/StepCore.lean: admission of turns (R80) and replays (R389), and readiness (R81).
-/
namespace Sys2Proof.Machine
open Sys2Proof

/-- Whether a turn in the prefill queue is ready for a lane (R81). -/
def turnReady (s : State) (t : Turn) : Bool :=
  match sess? s t.idx with
  | none => false
  | some x => x.e.state = .ember && x.e.place = 0 && (ctxOf s t.ctx).state = 3

/-- Turns that have become ready take the instant (R477). -/
def markReady (s : State) : State :=
  let f (t : Turn) : Turn := if t.tReady.isNone && turnReady s t then { t with tReady := some (now s) } else t
  { s with stp := { s.stp with queue := s.stp.queue.map f } }

/-- What a session does for a turn it has just admitted (R57, R61): its storage comes to T0. -/
def prepareTurn (idx cls : Nat) (s : State) : State :=
  match sess? s idx with
  | none => s
  | some x =>
    match x.e.state with
    | .banked => queueWake idx (turnGroup cls) 0 s
    | .waking => t1Ask idx [] (raiseWake idx (turnGroup cls) s)
    | .banking => startCopy idx (cancelBanking idx s)
    | .ember => startCopy idx (if x.spillT1 then stopTransfers idx s else s)
    | _ => s

/-- The checks of R80 from order 2 to 4 that TURN and CKP_REPLAY share. `later` stands between orders 2 and 3. -/
def stateRefuses (e : Entry) : Option Nat :=
  match e.state with
  | .ember | .banked | .waking | .banking => if e.turnAdmitted then some 0x11 else none
  | .live => some 0x11
  | st => some (stateStatus st)

/-- Orders 3 and 4 of R80. A context that has faulted takes no turn until it is RESIDENT again (R98). -/
def contextRefuses (s : State) (c : Nat) : Option Nat :=
  if s.img.draining then some 0x20
  else
    let st := (ctxOf s c).state
    if (ctxOf s c).faulted then some 0x21
    else if st = 3 || st = 2 || st = 5 || (st = 1 && loadOnTurn s c) then none else some 0x21

/-- MAX_POSITIONS of a context. -/
def maxPositions (s : State) (c : Nat) : Nat := ((ctxCfg? s c).map (·.maxPos)).getD 0

/-- What a TURN or CKP_REPLAY asks for, its ids read. -/
structure TurnAsk where
  cls       : Nat
  deadline  : Nat := 0
  maxTokens : Nat := 0
  stops     : List Nat := []
  samp      : Sampling := {}
  ids       : List Nat := []
  replay    : Option Replay := none
deriving DecidableEq, Repr

/-- Place an admitted turn in the prefill queue (R77, R80) and complete its tack. -/
def enqueueTurn (h : TackHdr) (op : Nat) (tArr : Nat) (a : TurnAsk) (idx : Nat) (x : Sess) (ver turnSeq : Nat) (s : State) : State :=
  let seq := s.stp.admSeq + 1
  let t : Turn :=
    { idx := idx, qp := h.qp, qpGen := (qpOf s h.qp).gen, tag := h.tag, forwarder := h.fwd, ctx := x.e.ctx, cls := a.cls,
      deadline := a.deadline, maxTokens := a.maxTokens, stops := a.stops, samp := a.samp, adapterVersion := ver, admSeq := seq,
      input := a.ids, replay := a.replay, tArr := tArr, tParse := now s, tAdm := now s }
  let s := modEntry idx (fun e => { clearKindle e with
    turnAdmitted := true, turnCls := a.cls, adapterVersion := ver, deadline := a.deadline, turnSeq := turnSeq,
    lastUse := now s }) s
  let s := { s with stp := { s.stp with queue := s.stp.queue ++ [t], admSeq := seq } }
  let s := completeOp h op 0 s { a := turnSeq, b := seq }
  markReady (prepareTurn idx a.cls (if (ctxOf s x.e.ctx).state = 1 then startLoad x.e.ctx s else s))

/-- Order 7 of R80. -/
def queueFull (s : State) : Bool := s.stp.queue.length ≥ 4096

/-- The class a TURN asks for (R255): its own, or the session's default class. -/
def turnClass (cls : Nat) (x : Sess) : Nat := if bit cls 2 then x.e.cls else cls % 4

/-- The checks of R80 and NO_TIME (R268) on a TURN whose input has been read; on success it is admitted. -/
def admitTurn (h : TackHdr) (b : TurnBody) (tArr : Nat) (ids : List Nat) (s : State) : State :=
  let refuse (st : Nat) (s : State) : State := complete h (.turn b) st s
  if b.deadline ≠ 0 && !s.clk.everLocked then refuse 0x0B s
  else match byHandle? s h.handle with
    | none => refuse 0x10 s
    | some (idx, x) =>
      match stateRefuses x.e with
      | some st => refuse st s
      | none =>
        match contextRefuses s x.e.ctx with
        | some st => refuse st s
        | none =>
          match bindFor s x.e with
          | none => refuse 0x22 s
          | some ver =>
            if b.inputCount = 0 || b.inputCount > 262144 || x.e.length + b.inputCount + 1 > maxPositions s x.e.ctx then refuse 0x23 s
            else if queueFull s then refuse 0x24 (hit 11 s)
            else
              let a : TurnAsk := { cls := turnClass b.cls x, deadline := b.deadline, maxTokens := b.maxTokens, stops := b.stops,
                                   samp := b.samp, ids := ids }
              enqueueTurn h 2 tArr a idx x ver (x.e.turnSeq + 1) s

/-- Whether a TURN body breaks R255. -/
def turnBodyBad (b : TurnBody) : Bool :=
  b.maxTokens = 0 || b.stopCount > 8 ||
  match b.input with
  | .inline x => x.length < 4 * b.inputCount
  | .ref r => r.len < 4 * b.inputCount

/-- `n` 32-bit ids of a byte string. -/
def idsOf (n : Nat) (x : Bytes) : List Nat := (List.range n).map fun i => leAt x (4 * i) 4

/-- Whether a CKP_REPLAY body breaks R389. -/
def replayBodyBad (b : ReplayBody) : Bool :=
  b.count = 0 || b.count > 327680 || b.firstSample > b.count ||
  match b.input with
  | .inline x => x.length < 4 * b.count
  | .ref r => r.len < 4 * b.count

/-- Whether a version may be bound by a replay (R389 check 3). -/
def replayVersionOk (s : State) (e : Entry) (v : Nat) : Bool :=
  if e.adapterId = 0xFFFF then v = 0
  else s.stp.adapters.any fun a => a.ctx = e.ctx && a.id = e.adapterId && a.ver = v && (a.state = 2 || a.state = 3)

/-- The session checks of R389 on a replay whose ids have been read; on success it is admitted. -/
def admitReplay (h : TackHdr) (b : ReplayBody) (tArr : Nat) (ids : List Nat) (s : State) : State :=
  let refuse (st : Nat) (s : State) : State := completeOp h 0x45 st s
  match byHandle? s h.handle with
  | none => refuse 0x10 s
  | some (idx, x) =>
    match stateRefuses x.e with
    | some st => refuse st s
    | none =>
      let cont := bit b.flags 0
      let seqOk := if cont then x.e.turnSeq = b.expectTurnSeq else x.e.turnSeq + 1 = b.expectTurnSeq
      if x.e.length ≠ b.expectLength || !seqOk then refuse 0x6C s
      else if !replayVersionOk s x.e b.adapterVersion then refuse 0x6B s
      else match contextRefuses s x.e.ctx with
        | some st => refuse st s
        | none =>
          if queueFull s then refuse 0x24 (hit 11 s)
          else if x.e.length + b.count > maxPositions s x.e.ctx then refuse 0x23 s
          else
            let r : Replay := { ids := ids, first := b.firstSample, sampleLast := bit b.flags 1, expectLast := b.expectLast,
                                start := x.e.length, continues := cont }
            let a : TurnAsk := { cls := turnClass b.cls x, samp := b.samp, ids := ids, replay := some r }
            enqueueTurn h 0x45 tArr a idx x b.adapterVersion b.expectTurnSeq s

end Sys2Proof.Machine
end

