-- ==== Sys2Proof/Machine/Tack.lean ====
section
/-!
DEFINITION. Sys2Proof/Machine/Tack.lean: what every tack meets between its class queue and its own checks: rights
(R253 check 6, R34) and routing (check 7, R354).
-/
namespace Sys2Proof.Machine
open Sys2Proof

/-- The most urgent class a queue pair may request (R34). -/
def topClass (s : State) (qp : Nat) : Nat := ((qpCfg? s qp).map (·.topClass)).getD 0

/-- The context a tack names, where check 6 tests it: by its body, or by the session held here. -/
def namedContext (s : State) (h : TackHdr) (b : TackBody) : Option Nat :=
  match b with
  | .openSes o => some o.ctx
  | .adapterDrop c _ => some c
  | .weightsStage c _ => some c
  | .turn _ | .ckpReplay _ => (byHandle? s h.handle).map (·.2.e.ctx)
  | _ => none

/-- The class a tack asks for, where check 6 tests it. -/
def namedClass (s : State) (h : TackHdr) (b : TackBody) : Option Nat :=
  let of (c : Nat) : Option Nat :=
    if bit c 2 then (byHandle? s h.handle).map (·.2.e.cls) else some (c % 4)
  match b with
  | .openSes o => some o.cls
  | .turn t => of t.cls
  | .ckpReplay r => of r.cls
  | _ => none

/-- Check 6 of R253 under the bindings of the tack's arrival (R43): the status it refuses with. A REG_WRITE passes with the register-read right alone, since R492 grants such a
tenant the write of SES_INSPECT_INDEX and refuses its others with NOT_PERMITTED (log entry 30). -/
def rightsRefuse (d : Bind) (h : TackHdr) (b : TackBody) (s : State) : Option Nat :=
  let lacks := match rightOf (opcodeOf b) with | some r => !(bit d.rights r || (r = 3 && bit d.rights 2)) | none => false
  let ctxBad := match namedContext s h b with | some c => !bit d.ctxMask c | none => false
  let clsBad := match namedClass s h b with | some c => decide (c < d.topClass) | none => false
  if lacks then some 0x05 else if ctxBad then some 0x06 else if clsBad then some 0x07 else none

/-- A refusal of check 6 or of the context mask: its completion and TACK_REFUSED (R34). -/
def refuseRights (t : Nat) (h : TackHdr) (b : TackBody) (st : Nat) (s : State) : State :=
  complete h b st (logTo [t] 1 6 (unitChip 0x30) 0x0604 (st + opcodeOf b * 256 + h.qp % 16384 * 65536) s)

/-- The payload of a session tack that has one. -/
def tackRef (b : TackBody) : Option DataRef :=
  match b with
  | .turn t => payloadRef t.input
  | .ckpReplay r => payloadRef r.input
  | _ => none

/-- A session tack's body with its referenced data inline. -/
def inlineBody (b : TackBody) (x : Bytes) : TackBody :=
  match b with
  | .turn t => .turn { t with input := .inline x }
  | .ckpReplay r => .ckpReplay { r with input := .inline x }
  | _ => b

/-- How many bytes a session tack's data reference is read for. -/
def tackNeed (b : TackBody) : Nat :=
  match b with
  | .turn t => 4 * t.inputCount
  | .ckpReplay r => 4 * r.count
  | _ => 0

/-- The stage of a fetch whose data goes with a forwarded tack (log entry 17). -/
def stageForward : Nat := 9

/-- Forward a tack once (R354). Data it refers to is fetched here first; a body that R255 or R389 refuses is refused
here. A PIN on a queue pair that may not pin is refused here, because the target cannot see TOP_CLASS. -/
def forwardTack (h : TackHdr) (b : TackBody) (node job : Nat) (s : State) : State :=
  let bad := match b with
    | .turn t => turnBodyBad t
    | .ckpReplay r => replayBodyBad r
    | _ => false
  if bad then complete h b 0x0A s
  else if b = .pin && topClass s h.qp ≠ 0 then complete h b 0x17 s
  else
    let send (b : TackBody) (s : State) : State :=
      sendSession node job (.tack h b) { s with map := { s.map with forwards := sat (s.map.forwards + 1) 32 } }
    match tackRef b with
    | some r =>
      if tackNeed b = 0 then send (inlineBody b []) s
      else if refRefused r then complete h b 0x50 s
      else startFetch h b { r with len := tackNeed b } stageForward [] s
    | none => send b s

/-- A tack waits for its map epoch: the cobbler is asked for it (R356). -/
def catchUp (h : TackHdr) (b : TackBody) (job tArr : Nat) (s : State) : State :=
  match job? s job with
  | none => complete h b 0x14 s
  | some j =>
    let s := { s with hst := { s.hst with catchUp := s.hst.catchUp ++ [(job, h, b, now s + j.map.drainUs * 1000, tArr)] } }
    if j.map.cobbler = selfNode s then s else sendLace j.map.cobbler 9 (ownHdr j) [] s

/-- Check 7 of R253 for a session tack that arrived at `t`: `eff` is its meaning where it is served here. -/
def routeTack (h : TackHdr) (b : TackBody) (t : Nat) (eff : State → State) (s : State) : State :=
  if !sessionOp (opcodeOf b) then eff s
  else match routeIn s (jobOfQp s h.qp) h.mapEpoch h.handle h.fwd.isSome with
    | .here => eff s
    | .catchUp j => catchUp h b j t s
    | .redirect n e =>
      let s := { s with map := { s.map with redirects := sat (s.map.redirects + 1) 32 } }
      complete h b 0x09 s { c := n % 65536 + e % 2 ^ 48 * 65536 }
    | .forward n j => forwardTack h b n j s
    | .claim j =>
      let s := openDispute h.handle j s
      let f (d : Dispute) : Dispute := if d.handle = h.handle then { d with waiting := d.waiting ++ [(h, b)] } else d
      { s with ses := { s.ses with disputes := s.ses.disputes.map f } }
    | .refuse st => complete h b st s

/-- While PWR_ENABLE.CHECKPOINT is 0, checkpoint opcodes complete with NOT_PERMITTED (R461). -/
def ckpGate (h : TackHdr) (b : TackBody) (eff : State → State) (s : State) : State :=
  let op := opcodeOf b
  if 0x40 ≤ op && op ≤ 0x47 && !bit s.regs.pwrEnable.toNat 1 then complete h b 0x04 s else eff s

/-- A tack's row: it is taken as R253 orders, and its own checks and effect `eff` follow, given its arrival time and the bindings of
its arrival, which its checks go by (R43). -/
def tackRowB (h : TackHdr) (b : TackBody) (eff : Nat → Bind → State → State) (s : State) : State :=
  match takeTack h b s with
  | .done s => s
  | .taken t d s =>
    match rightsRefuse d h b s with
    | some st => refuseRights d.tenant h b st s
    | none => routeTack h b t (ckpGate h b (eff t d)) s

/-- The row of a tack whose own checks ask nothing of the bindings. -/
def tackRow (h : TackHdr) (b : TackBody) (eff : Nat → State → State) (s : State) : State := tackRowB h b (fun t _ => eff t) s

end Sys2Proof.Machine
end

