-- ==== Sys2Proof/Machine/Peaks.lean ====
section
/-!
DEFINITION. Sys2Proof/Machine/Peaks.lean: the present count of each limit of R479, and the high-water marks of R482 that
every command leaves behind.
-/
namespace Sys2Proof.Machine
open Sys2Proof

/-- The greatest of a list of numbers; 0 of none. -/
def maxN (l : List Nat) : Nat := l.foldl max 0

/-- Entries of a list that fall under each of its keys, at most. -/
def maxGroup (l : List Nat) : Nat := maxN (l.eraseDups.map fun k => (l.filter (· = k)).length)

/-- Egress bytes of a port, in KiB. -/
def egressKib (s : State) (p : Nat) : Nat := ceilDiv (portOf s p).used 1024

/-- The present count of a limit, in the unit of R479. Page walks (19) begin and end within one command of this model (log entry 19). -/
def limitNow (s : State) (i : Nat) : Nat :=
  match i with
  | 0 => s.wlt.outst.length
  | 1 => maxGroup (s.wlt.outst.map (·.req.hdr.dest))
  | 2 => s.wlt.once.length
  | 3 => maxN (s.wlt.links.map (·.2.replayBuf.length))
  | 4 => maxN (s.wlt.links.flatMap fun l => l.2.credits.map fun c => ceilDiv ((4096 - c.2) * 64) 1024)
  | 5 => egressKib s 0
  | 6 => maxN ((s.shp.ports.filter (·.1 ≠ 0)).map fun p => egressKib s p.1)
  | 7 => s.hst.poolUsed
  | 8 =>
    let sends := (s.shp.cls.flatMap fun c => c.2.map fun q => (q.hdr.qp, q.group)).eraseDups
    maxGroup (sends.map (·.1))
  | 9 => maxN (s.hst.qps.map fun q => readsOut q.2)
  | 10 => maxN (s.shp.cls.flatMap fun c => (c.2.filterMap fun q => (meterOf? s q.hdr.qp).map (·.1)).eraseDups.map (meterTacks s c.1))
  | 11 => s.stp.queue.length
  | 12 => s.stp.lanes.length
  | 13 => countSess s fun x => (x.wake.map (·.running)).getD false
  | 14 => kindleCount s
  | 15 => pinnedCount s
  | 16 => s.ses.table.length
  | 17 => countSess s fun x => x.e.state = .banking && x.bankPress
  | 18 => maxN ((List.range 48).map fun t => (s.ses.table.filter fun p => p.2.spillT1 && 0 < sessOn s p.1 p.2 t).length)
  | 20 => poolUsedBytes s / 2 ^ 20
  | 21 => s.mem.queue.length
  | 22 => s.stp.adapters.length
  | 23 => maxN ((List.range 32).map fun c => engCoord s c + engFwd s c)
  | 24 => maxN ((List.range 32).map (engInput s))
  | 25 => maxN (s.vec.idxs.flatMap fun x => x.queries.map fun q => outWork s x.id q.qseq)
  | 26 => maxN ((List.range 32).map (nandCmds s))
  | 27 => maxN (s.sec.aud.map (·.2.log.length))
  | 28 => maxN (s.hst.evs.map (·.2.held.length))
  | 29 => s.sec.quotes.length
  | 30 => maxN (s.vec.idxs.map (·.dels.length))
  | 31 => (s.map.jobs.filter (·.2.map.state ≠ 0)).length
  | _ => 0

/-- Raise the peaks to the present counts (R482). -/
def notePeaks (s : State) : State :=
  let up (ps : List (Nat × Nat)) (i : Nat) : List (Nat × Nat) :=
    let n := limitNow s i
    if findD i ps 0 < n then putN i (min n (2 ^ 24 - 1)) ps else ps
  { s with lim := { s.lim with peaks := (List.range 32).foldl up s.lim.peaks } }

/-- What a command leaves that found `s` and did `t`: the peaks follow, and the commands that wait are those that waited. -/
def after (s t : State) : State := { notePeaks t with pending := s.pending }

/-- A command's meaning from what it does to the state. -/
def run (f : State → State) (s : State) : Host.Outcome State Fault Refusal := .next (after s (f s))

/-- A command on a unit that the part has; one that it does not have is a fault. -/
def runOn (has : Bool) (f : State → State) (s : State) : Host.Outcome State Fault Refusal :=
  if has then run f s else .fault .noSuchUnit

end Sys2Proof.Machine
end

