-- ==== Sys2Proof/Machine/RegTable.lean ====
section
/-!
DEFINITION. Sys2Proof/Machine/RegTable.lean: the register index (R492 to R495), and who may reach a register (R486 to
R488).
-/
namespace Sys2Proof.Machine
open Sys2Proof

/-- A row of the index: first offset, registers in the series, host read, host write (0 none, 1 w, 2 w4, 3 w6, 4 with the
register-read right alone), control cores. -/
structure RegRow where
  off   : Nat
  count : Nat
  read  : Bool
  write : Nat
  core  : Bool
deriving DecidableEq, Repr, Inhabited

/-- The registers of generation 1. -/
def regTable : List RegRow :=
  [⟨0x000000, 1, true, 1, false⟩,
   ⟨0x000008, 1, true, 1, false⟩,
   ⟨0x000010, 1, true, 0, false⟩,
   ⟨0x000018, 1, true, 0, false⟩,
   ⟨0x000020, 1, true, 0, false⟩,
   ⟨0x000028, 1, true, 4, false⟩,
   ⟨0x000030, 32, true, 0, false⟩,
   ⟨0x100000, 1, false, 0, false⟩,
   ⟨0x100008, 1, true, 1, false⟩,
   ⟨0x100010, 1, true, 0, false⟩,
   ⟨0x100018, 1, true, 0, false⟩,
   ⟨0x100020, 1, true, 0, false⟩,
   ⟨0x100028, 1, true, 0, false⟩,
   ⟨0x100030, 1, true, 1, false⟩,
   ⟨0x100038, 1, true, 1, false⟩,
   ⟨0x100040, 1, true, 0, false⟩] ++
  [⟨0x100048, 1, true, 1, false⟩,
   ⟨0x100050, 1, true, 0, false⟩,
   ⟨0x200000, 1, true, 0, false⟩,
   ⟨0x200008, 1, true, 0, false⟩,
   ⟨0x200010, 1, true, 0, false⟩,
   ⟨0x200018, 1, true, 1, false⟩,
   ⟨0x200020, 1, true, 0, false⟩,
   ⟨0x300000, 1, true, 1, false⟩,
   ⟨0x300008, 1, true, 0, false⟩,
   ⟨0x300010, 1, true, 0, false⟩,
   ⟨0x300018, 1, true, 0, false⟩,
   ⟨0x300020, 1, true, 0, false⟩,
   ⟨0x300028, 1, true, 1, false⟩,
   ⟨0x300030, 1, true, 0, false⟩,
   ⟨0x300038, 1, true, 1, false⟩,
   ⟨0x400000, 1, true, 1, false⟩] ++
  [⟨0x400008, 1, true, 0, false⟩,
   ⟨0x400010, 1, true, 0, false⟩,
   ⟨0x400018, 1, true, 1, false⟩,
   ⟨0x400020, 1, true, 0, false⟩,
   ⟨0x400028, 1, false, 0, true⟩,
   ⟨0x400030, 1, false, 0, true⟩,
   ⟨0x400038, 1, true, 0, false⟩,
   ⟨0x400040, 1, true, 0, false⟩,
   ⟨0x400048, 1, true, 1, false⟩,
   ⟨0x400050, 1, true, 0, false⟩,
   ⟨0x400058, 1, true, 0, false⟩,
   ⟨0x400060, 1, false, 0, true⟩,
   ⟨0x400068, 1, false, 0, true⟩,
   ⟨0x400070, 1, true, 1, false⟩,
   ⟨0x500000, 1, true, 1, false⟩,
   ⟨0x500008, 1, true, 0, false⟩] ++
  [⟨0x500010, 1, true, 1, false⟩,
   ⟨0x500018, 1, true, 0, false⟩,
   ⟨0x500020, 1, true, 1, false⟩,
   ⟨0x500028, 1, true, 0, false⟩,
   ⟨0x500030, 1, true, 0, false⟩,
   ⟨0x500038, 1, true, 0, false⟩,
   ⟨0x500040, 1, true, 0, false⟩,
   ⟨0x500048, 1, true, 0, false⟩,
   ⟨0x500050, 1, true, 1, false⟩,
   ⟨0x600000, 1, true, 0, false⟩,
   ⟨0x600008, 1, true, 0, false⟩,
   ⟨0x600010, 1, true, 0, false⟩,
   ⟨0x600018, 1, true, 0, false⟩,
   ⟨0x600020, 1, true, 0, false⟩,
   ⟨0x600028, 1, true, 0, false⟩,
   ⟨0x600030, 1, true, 0, false⟩] ++
  [⟨0x600038, 1, true, 0, false⟩,
   ⟨0x600040, 1, true, 0, false⟩,
   ⟨0x600048, 1, true, 1, false⟩,
   ⟨0x600050, 1, true, 0, false⟩,
   ⟨0x600058, 1, true, 0, false⟩,
   ⟨0x600060, 1, true, 0, false⟩,
   ⟨0x700000, 1, true, 1, false⟩,
   ⟨0x700008, 1, true, 1, false⟩,
   ⟨0x700010, 1, true, 1, false⟩,
   ⟨0x700018, 1, true, 0, false⟩,
   ⟨0x700020, 1, true, 0, false⟩,
   ⟨0x700028, 1, true, 0, false⟩,
   ⟨0x700030, 1, true, 0, false⟩,
   ⟨0x700038, 1, true, 1, false⟩,
   ⟨0x700040, 1, true, 0, false⟩,
   ⟨0x700048, 1, true, 0, false⟩] ++
  [⟨0x700050, 1, true, 0, false⟩,
   ⟨0x700058, 1, true, 1, false⟩,
   ⟨0x700060, 8, true, 0, false⟩,
   ⟨0x800000, 1, true, 0, false⟩,
   ⟨0x800008, 1, true, 0, false⟩,
   ⟨0x800010, 1, true, 0, false⟩,
   ⟨0x800018, 1, true, 1, false⟩,
   ⟨0x800020, 1, true, 0, false⟩,
   ⟨0x800028, 1, true, 0, false⟩,
   ⟨0x800030, 1, true, 0, false⟩,
   ⟨0x800038, 1, true, 0, false⟩,
   ⟨0x800040, 1, true, 0, false⟩,
   ⟨0x800048, 1, true, 0, false⟩,
   ⟨0x800050, 1, true, 0, false⟩,
   ⟨0x800058, 1, true, 0, false⟩,
   ⟨0x800060, 1, true, 1, false⟩] ++
  [⟨0x800068, 1, true, 0, false⟩,
   ⟨0x800070, 1, true, 1, false⟩,
   ⟨0x900000, 1, true, 0, false⟩,
   ⟨0x900008, 1, true, 3, false⟩,
   ⟨0x900010, 1, true, 0, false⟩,
   ⟨0x900018, 1, true, 0, false⟩,
   ⟨0x900020, 1, true, 0, false⟩,
   ⟨0x900028, 1, true, 3, true⟩,
   ⟨0x900030, 1, true, 3, false⟩,
   ⟨0x900038, 1, false, 0, true⟩,
   ⟨0x900040, 1, true, 3, true⟩,
   ⟨0x900048, 1, true, 0, true⟩,
   ⟨0x900050, 1, true, 0, false⟩,
   ⟨0x900058, 1, true, 0, false⟩,
   ⟨0x900060, 1, true, 0, false⟩,
   ⟨0xA00000, 1, true, 2, false⟩] ++
  [⟨0xA00008, 1, true, 0, false⟩,
   ⟨0xA00010, 1, true, 0, false⟩,
   ⟨0xA00018, 1, true, 0, false⟩,
   ⟨0xA00020, 1, true, 0, false⟩,
   ⟨0xA00028, 1, true, 0, false⟩,
   ⟨0xA00030, 4, true, 0, false⟩,
   ⟨0xA00050, 1, true, 2, false⟩,
   ⟨0xB00000, 1, true, 0, false⟩,
   ⟨0xB00008, 1, true, 0, false⟩,
   ⟨0xB00010, 1, true, 0, false⟩,
   ⟨0xB00018, 4, true, 0, false⟩,
   ⟨0xB00038, 4, false, 0, false⟩,
   ⟨0xB00058, 1, false, 0, false⟩,
   ⟨0xB00060, 1, false, 0, false⟩,
   ⟨0xB00068, 1, false, 0, false⟩,
   ⟨0xB01000, 1, true, 0, false⟩] ++
  [⟨0xB01008, 4, true, 0, false⟩,
   ⟨0xB01028, 4, true, 0, false⟩,
   ⟨0xB01048, 1, true, 0, false⟩,
   ⟨0xB01050, 4, true, 0, false⟩,
   ⟨0xB01070, 1, false, 0, false⟩,
   ⟨0xB01078, 1, false, 0, false⟩,
   ⟨0xB01080, 1, false, 0, false⟩,
   ⟨0xB01088, 4, false, 0, false⟩,
   ⟨0xB010A8, 1, false, 0, false⟩,
   ⟨0xB010B0, 1, false, 0, false⟩,
   ⟨0xB010B8, 1, false, 0, false⟩,
   ⟨0xB010C0, 1, false, 0, false⟩,
   ⟨0xB010C8, 1, true, 0, false⟩,
   ⟨0xB010D0, 1, true, 0, false⟩,
   ⟨0xB010D8, 1, true, 0, false⟩,
   ⟨0xB010E0, 1, false, 0, false⟩] ++
  [⟨0xC00000, 1, true, 0, false⟩,
   ⟨0xC00008, 1, true, 0, false⟩,
   ⟨0xC00010, 1, true, 1, false⟩,
   ⟨0xC00018, 1, true, 0, false⟩,
   ⟨0xC00020, 1, true, 0, false⟩,
   ⟨0xC00028, 1, true, 0, false⟩,
   ⟨0xC00030, 1, true, 0, false⟩,
   ⟨0xC00038, 1, true, 0, false⟩,
   ⟨0xC00040, 1, true, 1, false⟩,
   ⟨0xD00000, 1, true, 0, false⟩,
   ⟨0xD00008, 1, true, 0, false⟩,
   ⟨0xD00010, 1, false, 0, false⟩,
   ⟨0xD00018, 1, false, 0, false⟩,
   ⟨0xD00020, 1, false, 0, false⟩,
   ⟨0xD00028, 1, true, 0, false⟩,
   ⟨0xD00030, 1, false, 0, false⟩] ++
  [⟨0xD00038, 1, false, 0, false⟩,
   ⟨0xD00040, 1, false, 0, false⟩,
   ⟨0xD00048, 1, false, 0, false⟩,
   ⟨0xD00050, 1, false, 0, false⟩,
   ⟨0xE00000, 1, true, 0, false⟩,
   ⟨0xF00000, 1, true, 1, false⟩,
   ⟨0xF00008, 1, true, 1, false⟩,
   ⟨0xF00010, 8, true, 0, false⟩,
   ⟨0xF00050, 1, true, 0, false⟩,
   ⟨0xF00058, 1, true, 1, false⟩,
   ⟨0xF00060, 1, true, 0, false⟩,
   ⟨0xF00068, 1, true, 1, false⟩]

/-- The row of an offset; none where no register is defined. -/
def regRow? (off : Nat) : Option RegRow := regTable.find? fun r => r.off ≤ off && off < r.off + 8 * r.count && off % 8 = 0

/-- Whether the boot stage limits owner-port writes (R487): below WAIT_IMAGE (9), or FW_ABSENT (8). -/
def bootLimits (s : State) : Bool := s.pwr.bootStage < 9

/-- The registers that owner-port writes reach at every boot stage (R487); key commands and their payload follow R467. -/
def bootWritable (off : Nat) : Bool :=
  off = 0xD00010 || (0xD00038 ≤ off && off ≤ 0xD00050) || (0xB01088 ≤ off && off ≤ 0xB010A8) || off = 0xB01070 || off = 0xB01078

/-- The rights of R33 that the bindings give a queue pair now. -/
def rightsNow (s : State) (qp : Nat) : Nat := ((tenant? s (tenantOf s qp)).map (·.rights)).getD 0

/-- Whether a tenant with these rights may write a register (R488). -/
def rightsWrite (rights : Nat) (r : RegRow) : Bool :=
  match r.write with
  | 0 => false
  | 1 => bit rights 3
  | 2 => bit rights 3 && bit rights 4
  | 3 => bit rights 3 && bit rights 6
  | _ => bit rights 2

/-- Whether a tenant with these rights may read a register (R488). -/
def rightsRead (rights : Nat) (r : RegRow) : Bool := r.read && bit rights 2

/-- Whether a host queue pair may write a register (R488). -/
def hostMayWrite (s : State) (qp : Nat) (r : RegRow) : Bool := rightsWrite (rightsNow s qp) r

/-- Whether a host queue pair may read a register (R488). -/
def hostMayRead (s : State) (qp : Nat) (r : RegRow) : Bool := rightsRead (rightsNow s qp) r

/-- A register write by an accessor, where the index and the boot stage let it through: `f` is its effect. An owner write
that the boot stage holds back is logged (R487); one the index does not grant has no effect, nor one while the owner port is off
its bus; nor does a control core of a fenced region make any (R15). -/
def gateWrite (acc : Port) (off : Nat) (f : State → State) (s : State) : State :=
  match acc, regRow? off with
  | .owner, _ =>
    if !onBus s then s else if bootLimits s && !bootWritable off then registerWarn acc off 3 s else f s
  | .host qp, some r => if hostMayWrite s qp r then f s else s
  | .core n, some r => if r.core && coreServes s n then f s else s
  | _, none => s

end Sys2Proof.Machine
end

