-- ==== Sys2Proof/Machine/Sessions.lean ====
section
/-!
DEFINITION. Sys2Proof/Machine/Sessions.lean: the session commands: the session opcodes (R57, R61, R63, R64, R68, R80),
the completions of bankings, wakes and copies, the kindle's times, the pressure rule, moves and disputes.
-/
namespace Sys2Proof.Machine
open Sys2Proof

/-! ### OPEN (R52, R53, R57, R149, R352, R414) -/

/-- The next issue number (R53): from the block reserved in EEPROM, whose end is written before its first number. The stored pair is the
active image's (R53). -/
def nextIssue (s : State) : Nat × State :=
  let s := if s.ses.issueNext < s.ses.issueEnd then s
    else
      let b := s.rom.issueEnd
      { s with rom := { s.rom with issueEnd := b + 2 ^ 24 }, ses := { s.ses with issueNext := b, issueEnd := b + 2 ^ 24 } }
  (s.ses.issueNext, { s with ses := { s.ses with issueNext := s.ses.issueNext + 1 } })

/-- A session handle (R52). -/
def handleOf (node epoch issue : Nat) : Word :=
  BitVec.ofNat 64 (2 ^ 62 + node % 4096 * 2 ^ 46 + epoch % 256 * 2 ^ 38 + issue % 2 ^ 38)

/-- The genesis value of AUDIT_HEAD (R414). -/
def auditGenesis (e : Entry) (flags : Nat) (digest : Bytes) : Bytes :=
  sha256 (ascii "YAUDGEN1" ++ le e.handle.toNat 8 ++ le e.created 8 ++ le e.tenant 2 ++ le e.ctx 1 ++ le (flags % 4) 1 ++
    le e.adapterId 2 ++ zeros 2 ++ le e.budget 4 ++ sha256 e.seedKey ++ fit digest 32)

/-- OPEN where nothing refuses it: the entry, and its location record where the slot home is another member. -/
def openAt (h : TackHdr) (b : OpenBody) (cfg : CtxCfg) (budget idx : Nat) (job : Option Nat) (s : State) : State :=
  let (n, s) := nextIssue s
  let (key, s) := if bit b.flags 1 then (fit b.seedKey 16, s) else freshBytes 16 s
  let hd := handleOf (topo s).node (topo s).nodeEpoch n
  let e : Entry :=
    { state := .ember, prior := .free, suppressLate := bit b.flags 0, ctx := b.ctx, cls := b.cls % 4, place := 1, handle := hd,
      index := idx, lane := 0xFFFF, adapterId := b.adapterId, tenant := tenantOf s h.qp, budget := budget, ownerEpoch := 1,
      mapEpoch := epochOfQp s h.qp, seedKey := key, created := now s }
  let e := { e with auditHead := auditGenesis e b.flags cfg.digest }
  let s := { s with ses := { s.ses with table := putN idx { e := e, job := job } s.ses.table } }
  let s := placeSess idx (retile idx s)
  let remote : Bool := match job.bind (job? s) with
    | some j => homeNode s j.map hd ≠ selfNode s
    | none => false
  if remote then
    let s := { s with map := { s.map with openWait := s.map.openWait ++ [(hd, h, idx)] } }
    locate hd 1 (.location hd) job s
  else completeOp h 1 0 s { handle := some hd }

/-- The checks of OPEN (R56, R149, R352, R359). -/
def openEff (h : TackHdr) (b : OpenBody) (s : State) : State :=
  let job := jobOfQp s h.qp
  let refuse (st : Nat) (s : State) : State := completeOp h 1 st s { handle := some 0 }
  let leaving : Bool := match job.bind (job? s) with
    | some j => match ownMember s j.map with | some m => m.mstate ≠ 0 | none => true
    | none => false
  let down : Bool := match job.bind (job? s) with | some j => j.map.state ≠ 2 | none => false
  match ctxCfg? s b.ctx, s.img.active with
  | some cfg, some img =>
    if leaving then refuse 0x04 s
    else if down then refuse 0x14 s
    else match cfg.budgetFor (attnLayers img b.ctx) b.budget with
      | none => refuse 0x1B s
      | some budget =>
        match freeIndex? s with
        | none => refuse 0x15 (hit 16 s)
        | some idx => openAt h b cfg budget idx job s
  | _, _ => refuse 0x0A s

/-- OPEN. -/
def execOpenTack (h : TackHdr) (b : OpenBody) (s : State) : Host.Outcome State Fault Refusal :=
  run (tackRow h (.openSes b) fun _ => openEff h b) s

/-! ### TURN -/

/-- TURN at check 8 of R253: the body checks of R255, its input, then R80. -/
def turnEff (h : TackHdr) (b : TurnBody) (tArr : Nat) (s : State) : State :=
  if turnBodyBad b then complete h (.turn b) 0x0A s
  else match b.input with
    | .inline x => admitTurn h b tArr (idsOf b.inputCount x) s
    | .ref r =>
      if b.inputCount = 0 || b.inputCount > 262144 then admitTurn h b tArr [] s
      else if refRefused r then complete h (.turn b) 0x50 s
      else startFetch h (.turn b) { r with len := 4 * b.inputCount } 0 [] s tArr

/-- TURN. -/
def execTurn (h : TackHdr) (b : TurnBody) (s : State) : Host.Outcome State Fault Refusal :=
  run (tackRow h (.turn b) (turnEff h b)) s

/-! ### The other session opcodes -/

/-- An operation on the session a tack names; NO_SESSION where none is held. -/
def onSession (h : TackHdr) (b : TackBody) (f : Nat → Sess → State → State) (s : State) : State :=
  match byHandle? s h.handle with
  | none => complete h b 0x10 s
  | some (idx, x) => if x.e.state = .ash then complete h b 0x10 s else f idx x s

/-- PARK (R57, R63, R254, R357, R407). Of several refusals the first of these holds: MOVING or SUSPECT, PINNED, the status of the state,
SESSION_BUSY, no pool, no secret; the rules do not order them (DESIGN CHOICE, log entry 40). -/
def parkEff (h : TackHdr) (tier : Nat) (s : State) : State :=
  let b : TackBody := .park tier
  if tier ≠ 2 ∧ tier ≠ 3 then complete h b 0x0A s
  else onSession h b (fun idx x s =>
    if x.e.state = .moving || x.e.state = .suspect then complete h b (stateStatus x.e.state) s
    else if x.e.pinned then complete h b 0x19 s
    else if x.e.state = .banking then complete h b 0 s
    else if x.e.state ≠ .ember then complete h b (stateStatus x.e.state) s
    else if x.e.turnAdmitted || x.copyUp then complete h b 0x11 s
    else if tier = 3 && (parkPool? s x.job).isNone then complete h b 0x04 s
    else if tier = 3 && s.rom.secret.isNone then complete h b 0x74 s
    else complete h b 0 (startBanking idx tier false s)) s

/-- PARK. -/
def execPark (h : TackHdr) (tier : Nat) (s : State) : Host.Outcome State Fault Refusal :=
  run (tackRow h (.park tier) fun _ => parkEff h tier) s

/-- WAKE (R57, R62). -/
def wakeEff (h : TackHdr) (s : State) : State :=
  onSession h .wake (fun idx x s =>
    match x.e.state with
    | .banked => complete h .wake 0 (queueWake idx 6 0 s)
    | .banking => complete h .wake 0 (cancelBanking idx s)
    | st => complete h .wake (stateStatus st) s) s

/-- WAKE. -/
def execWake (h : TackHdr) (s : State) : Host.Outcome State Fault Refusal := run (tackRow h .wake fun _ => wakeEff h) s

/-- The revive estimate for a PLACE, in ns (R61, R72). -/
def reviveEst (s : State) (place : Nat) : Nat :=
  1000 * (match place with
    | 1 => wfield s.regs.reviveEst 0 16
    | 3 => wfield s.regs.reviveEst 32 16
    | _ => wfield s.regs.reviveEst 16 16)

/-- KINDLE on a session that it affects: KINDLE_AT and KINDLED, within the bound (R61). -/
def kindleAt (h : TackHdr) (eta tArr idx : Nat) (s : State) : State :=
  match sess? s idx with
  | none => s
  | some x =>
    if !x.e.kindled && kindleCount s ≥ kindleLimit s then completeOp h 5 0x16 (hit 14 s)
    else
      let t := max tArr (tArr + eta * 1000 - reviveEst s x.e.place)
      let s := modSess idx (fun x => { x with e := { x.e with kindled := true, kindleAt := t }, kindleEta := tArr + eta * 1000 }) s
      completeOp h 5 0 s { a := t }

/-- KINDLE (R57, R61). KINDLE_FULL leaves a banking as it is. -/
def kindleEff (h : TackHdr) (eta tArr : Nat) (s : State) : State :=
  let b : TackBody := .kindle eta
  onSession h b (fun idx x s =>
    match x.e.state, x.e.place with
    | .banked, _ => kindleAt h eta tArr idx s
    | .banking, p =>
      if p = 1 then
        if !x.e.kindled && kindleCount s ≥ kindleLimit s then completeOp h 5 0x16 (hit 14 s)
        else kindleAt h eta tArr idx (cancelBanking idx s)
      else completeOp h 5 0 (cancelBanking idx s) { a := x.e.kindleAt }
    | .ember, 1 => kindleAt h eta tArr idx s
    | .ember, _ | .live, _ | .waking, _ => completeOp h 5 0 s { a := x.e.kindleAt }
    | st, _ => completeOp h 5 (stateStatus st) s) s

/-- KINDLE. -/
def execKindle (h : TackHdr) (etaUs : Nat) (s : State) : Host.Outcome State Fault Refusal :=
  run (tackRow h (.kindle etaUs) (kindleEff h etaUs)) s

/-- PIN (R57, R63). A forwarded PIN met its queue pair's TOP_CLASS at the forwarder. -/
def pinEff (h : TackHdr) (s : State) : State :=
  onSession h .pin (fun idx x s =>
    if x.e.state = .moving || x.e.state = .suspect then complete h .pin (stateStatus x.e.state) s
    else if x.e.cls ≠ 0 || (h.fwd.isNone && topClass s h.qp ≠ 0) then complete h .pin 0x17 s
    else if pinnedCount s ≥ pinLimit s then complete h .pin 0x18 (hit 15 s)
    else
      let s := modEntry idx (fun e => { e with pinned := true }) s
      let s := match x.e.state with
        | .banking => cancelBanking idx s
        | .banked => queueWake idx 1 0 s
        | .waking => raiseWake idx 1 s
        | _ => s
      complete h .pin 0 s) s

/-- PIN. -/
def execPin (h : TackHdr) (s : State) : Host.Outcome State Fault Refusal := run (tackRow h .pin fun _ => pinEff h) s

/-- UNPIN (R63). -/
def unpinEff (h : TackHdr) (s : State) : State :=
  onSession h .unpin (fun idx x s =>
    if x.e.state = .moving || x.e.state = .suspect then complete h .unpin (stateStatus x.e.state) s
    else complete h .unpin 0 (modEntry idx (fun e => { e with pinned := false }) s)) s

/-- UNPIN. -/
def execUnpin (h : TackHdr) (s : State) : Host.Outcome State Fault Refusal := run (tackRow h .unpin fun _ => unpinEff h) s

/-- MOVE_TIMEOUT_MS as taken (R71), in ns. -/
def moveTimeout (s : State) : Nat := max 1 (wfield s.regs.sesCfg 24 10) * 1000000

/-- MOVE (R57, R63 to R65): accepted to another compute member under the committed epoch. -/
def moveEff (h : TackHdr) (dest : Nat) (s : State) : State :=
  let b : TackBody := .move dest
  onSession h b (fun idx x s =>
    let j := x.job.bind (job? s)
    let ok := match j with
      | some j => j.map.state = 2 && dest ≠ selfNode s && j.map.members.any fun m => m.node = dest && bit m.roles 0
      | none => false
    if x.e.state = .moving || x.e.state = .suspect then complete h b (stateStatus x.e.state) s
    else if x.e.pinned then complete h b 0x19 s
    else if x.e.state ≠ .ember && x.e.state ≠ .banked then complete h b (stateStatus x.e.state) s
    else if x.e.turnAdmitted || x.copyUp then complete h b 0x11 s
    else if !ok then complete h b 0x04 s
    else
      let job := x.job.getD 0
      let s := labDropSess idx (stopTransfers idx s)
      let m : MoveInfo := { source := true, peer := dest, job := job, epoch := x.e.ownerEpoch, due := now s + moveTimeout s }
      let s := modSess idx (fun x => { x with e := { clearKindle x.e with state := .moving, prior := x.e.state }, mv := some m }) s
      let e := match sess? s idx with | some x => x.e | none => x.e
      let s := sendSession dest job (.offer e) s
      complete h b 0 (sendSession dest job (.storage x.e.handle) s)) s

/-- MOVE. -/
def execMoveTack (h : TackHdr) (dest : Nat) (s : State) : Host.Outcome State Fault Refusal :=
  run (tackRow h (.move dest) fun _ => moveEff h dest) s

/-- CLOSE (R57, R63): at once, or at the step boundary for a session that is LIVE. -/
def closeEff (h : TackHdr) (s : State) : State :=
  onSession h .close (fun idx x s =>
    match x.e.state with
    | .moving => complete h .close 0x12 s
    | .live => complete h .close 0 (modSess idx (fun x => { x with closeReq := true }) s)
    | _ => complete h .close 0 (closeNow idx s)) s

/-- CLOSE. -/
def execCloseTack (h : TackHdr) (s : State) : Host.Outcome State Fault Refusal := run (tackRow h .close fun _ => closeEff h) s

/-! ### CONFIRM and RESOLVE (R68) -/

/-- The epoch of a copy confirmed after a dispute (R64). -/
def settledEpoch (d : Dispute) : Nat := d.answers.foldl (fun m a => max m a.epoch) 0 + 1

/-- The slot home names the surviving copy to every copy: those that answered, and the winner where a MOVED answer named it (R68); its own
location record follows (log entry 20). -/
def settle (d : Dispute) (node : Nat) (s : State) : State :=
  let e := settledEpoch d
  let s := { s with ses := { s.ses with disputes := s.ses.disputes.filter (·.handle ≠ d.handle) } }
  let copies := (d.answers.map (·.node) ++ [node]).eraseDups
  let s := (copies.filter (· ≠ selfNode s)).foldl (fun s n => sendSession n d.job (.settle d.handle node e) s) s
  let keep (l : List LocRec) : List LocRec := l.filter (·.handle ≠ d.handle)
  let s := modJob d.job (fun j => { j with
    locRecs := if node = selfNode s then keep j.locRecs else keep j.locRecs ++ [{ handle := d.handle, owner := node, epoch := e }] }) s
  settleCopy d.handle node e s

/-- CONFIRM or RESOLVE (`over`) at the slot home; elsewhere it is passed there, once. -/
def settleEff (h : TackHdr) (b : TackBody) (node : Nat) (force : Bool) (s : State) : State :=
  let job := match byHandle? s h.handle with
    | some (_, x) => x.job
    | none => match h.fwd with | some f => some f.2 | none => jobOfQp s h.qp
  let byState (s : State) : State :=
    match byHandle? s h.handle with
    | some (_, x) => complete h b (stateStatus x.e.state) s
    | none => complete h b 0x10 s
  match job.bind (job? s) with
  | none => byState s
  | some j =>
    let home := homeNode s j.map h.handle
    if home ≠ selfNode s then
      if h.fwd.isSome then complete h b 0x09 s { c := home + j.map.epoch % 2 ^ 48 * 65536 }
      else sendSession home j.map.job (.tack h b) s
    else match s.ses.disputes.find? (·.handle = h.handle) with
      | none => byState s
      | some d =>
        if !d.done then complete h b 0x13 s
        else if force then
          if d.answers.any fun a => a.node = node then complete h b 0 (settle d node s) else complete h b 0x10 s
        else
          match d.winner with
          | some w => if w.1 = node then complete h b 0 (settle d node s) else complete h b 0x1A s
          | none => complete h b 0x1A s

/-- CONFIRM and RESOLVE reach the slot home from a member that holds no entry as well: check 7 routes them there. -/
def settleRow (h : TackHdr) (b : TackBody) (node : Nat) (force : Bool) (s : State) : State :=
  match takeTack h b s with
  | .done s => s
  | .taken t d s =>
    match rightsRefuse d h b s with
    | some st => refuseRights d.tenant h b st s
    | none =>
      let e := epochOfQp s h.qp
      if h.mapEpoch > e && (jobOfQp s h.qp).isSome then catchUp h b ((jobOfQp s h.qp).getD 0) t s
      else settleEff h b node force s

/-- CONFIRM. -/
def execConfirm (h : TackHdr) (node : Nat) (s : State) : Host.Outcome State Fault Refusal :=
  run (settleRow h (.confirm node) node false) s

/-- RESOLVE. -/
def execResolve (h : TackHdr) (node : Nat) (s : State) : Host.Outcome State Fault Refusal :=
  run (settleRow h (.resolve node) node true) s

/-! ### Bankings, wakes and copies -/

/-- BANKING_COMPLETE. -/
def execBankingComplete (idx : Nat) (s : State) : Host.Outcome State Fault Refusal := run (commitBanking idx) s

/-- A write of a banking fails: EMBER again, the partial copy discarded, logged (R57). -/
def bankingFailed (idx : Nat) (s : State) : State :=
  match sess? s idx with
  | some x => if x.e.state = .banking then logAll 2 4 (unitChip 0x35) 0x0105 0 (cancelBanking idx s) else s
  | none => s

/-- BANKING_WRITE_FAIL. -/
def execBankingWriteFail (idx : Nat) (s : State) : Host.Outcome State Fault Refusal := run (bankingFailed idx) s

/-- WAKE_START. -/
def execWakeStart (s : State) : Host.Outcome State Fault Refusal := run startNextWake s

/-- WAKE_COMPLETE. -/
def execWakeComplete (idx : Nat) (s : State) : Host.Outcome State Fault Refusal := run (fun s => markReady (finishWake idx s)) s

/-- WAKE_FAILED. -/
def execWakeFailed (idx : Nat) (s : State) : Host.Outcome State Fault Refusal := run (wakeFailed idx) s

/-- COPY_TO_T0_COMPLETE. -/
def execCopyToT0Complete (idx : Nat) (s : State) : Host.Outcome State Fault Refusal := run (fun s => markReady (finishCopy idx s)) s

/-- KINDLE_AT has come: a BANKED session wakes, one in T1 is copied to T0 (R61). -/
def kindleReached (idx : Nat) (s : State) : State :=
  match sess? s idx with
  | none => s
  | some x =>
    if !x.e.kindled then s
    else
      let s := advance x.e.kindleAt s
      match x.e.state with
      | .banked => queueWake idx 2 x.e.kindleAt s
      | .ember => startCopy idx s
      | _ => s

/-- KINDLE_AT_REACHED. -/
def execKindleAtReached (idx : Nat) (s : State) : Host.Outcome State Fault Refusal := run (kindleReached idx) s

/-- The kindle's hold has passed without a turn: it is no longer pending (R61). -/
def kindleOver (idx : Nat) (s : State) : State :=
  match sess? s idx with
  | none => s
  | some x =>
    if x.e.kindled then
      modEntry idx clearKindle (advance (x.kindleEta + wfield s.regs.sesCfg 34 16 * 1000000) s)
    else s

/-- KINDLE_HOLD_EXPIRED. -/
def execKindleHoldExpired (idx : Nat) (s : State) : Host.Outcome State Fault Refusal := run (kindleOver idx) s

/-! ### The pressure rule (R60) -/

/-- SPILL_HIGH_GIB as taken, in bytes. -/
def pressureHigh (s : State) : Nat :=
  let lo := wfield s.regs.sesCfg 0 12
  let hi := wfield s.regs.sesCfg 12 12
  (if hi ≤ lo then lo + 1 else hi) * 2 ^ 30

/-- Start bankings one at a time until projected free T1 reaches the upper bound, 32 are in flight, or no candidate is
left; `n` bounds the bankings. -/
def pressOn : Nat → State → State
  | 0, s => s
  | n + 1, s =>
    if projectedFree s ≥ pressureHigh s then { s with ses := { s.ses with pressing := false } }
    else if (countSess s fun x => x.e.state = .banking && x.bankPress) ≥ 32 then hit 17 s
    else match pressureVictim s with
      | none => s
      | some idx => pressOn n (startBanking idx 2 true s)

/-- The pressure rule looks at projected free T1. -/
def pressure (s : State) : State :=
  if s.ses.pressing || projectedFree s < wfield s.regs.sesCfg 0 12 * 2 ^ 30 then
    pressOn 33 { s with ses := { s.ses with pressing := true } }
  else s

/-- PRESSURE_RULE. -/
def execPressureRule (s : State) : Host.Outcome State Fault Refusal := run pressure s

/-! ### Moves (R64, R65) -/

/-- A move's destination takes the offer (R54, R57, R63): an entry in MOVING at the source's epoch, unpinned. -/
def moveOffered (src job : Nat) (e : Entry) (s : State) : State :=
  match job? s job, freeIndex? s with
  | some j, some idx =>
    let ok := j.map.state = 2 && (match ownMember s j.map with | some m => bit m.roles 0 | none => false) &&
      (ctxCfg? s e.ctx).isSome &&
      (match byHandle? s e.handle with | some p => p.2.e.state = .ash | none => true)
    if ok then
      let m : MoveInfo := { source := false, peer := src, job := job, epoch := e.ownerEpoch, due := 0 }
      let e' : Entry := { clearKindle e with
        state := .moving, pinned := false, index := idx, lane := 0xFFFF, place := if e.prior = .banked then 2 else 1,
        forwardNode := 0, moved := false, reclaimed := false, mapEpoch := j.map.epoch }
      placeSess idx { s with ses := { s.ses with table := putN idx { e := e', job := some job, mv := some m } s.ses.table } }
    else s
  | _, _ => s

/-- MOVE_OFFER. -/
def execMoveOffer (src : Nat) (job : Nat) (e : Entry) (s : State) : Host.Outcome State Fault Refusal := run (onFabric (moveOffered src job e)) s

/-- The destination commits a move: e + 1 is written and the acknowledgement sent (R64). -/
def ackMove (idx : Nat) (s : State) : State :=
  match (sess? s idx).bind fun x => x.mv.map fun m => (x, m) with
  | none => s
  | some (x, m) =>
    let m' := { m with ackSent := true, due := now s + 2 * moveTimeout s }
    let s := modSess idx (fun x => { x with e := { x.e with ownerEpoch := m.epoch + 1 }, mv := some m' }) s
    sendSession m.peer m.job (.ack x.e.handle (m.epoch + 1)) s

/-- The slot home's answer to the location record of a move: the destination acknowledges, or, refused, discards its copy, which makes the
source's query cancel the move (R65, R353; log entry 167). -/
def movePlaced (h : Word) (status : Nat) (s : State) : State :=
  match byHandle? s h with
  | none => s
  | some (idx, x) =>
    match x.mv with
    | none => s
    | some m =>
      if x.e.state ≠ .moving || m.source || m.ackSent || !m.placed then s
      else if status = 0 then ackMove idx s else freeEntry idx s

/-- The whole session is at its destination: the slot home is told and the acknowledgement sent (R64, R352, R353). Storage that finds no
room yet is not complete. -/
def moveReceived (h : Word) (st : Store) (s : State) : State :=
  match byHandle? s h with
  | none => s
  | some (idx, x) =>
    match x.mv with
    | none => s
    | some m =>
      if x.e.state ≠ .moving || m.source || m.ackSent || m.placed then s
      else
        let commit (d : Option BankDesc) (st : Store) (s : State) : State :=
          let s := retile idx (modSess idx (fun x => { x with st := st, desc := d, mv := some { m with placed := true } }) s)
          let home := (job? s m.job).map fun j => homeNode s j.map h
          let s := locate h (m.epoch + 1) (.moved h) (some m.job) s
          if home = some (selfNode s) || home.isNone then ackMove idx s else s
        if x.e.place = 2 then
          match bankT2 idx x.e st s with
          | some (d, s) => commit (some d) (bankedIn (rowListBytes idx st.rows) st) s
          | none => s
        else
          let s := t1Ask idx (List.range (stripeTiles (wtOf s x.e.ctx) (fmtOf s x.e.ctx) st)) s
          if allocWaits s idx then s else commit none (placedIn (attnCount s x.e.ctx) 1 st) s

/-- MOVE_STORAGE_RECEIVED. -/
def execMoveStorageReceived (handle : Word) (st : Store) (s : State) : Host.Outcome State Fault Refusal :=
  run (onFabric (moveReceived handle st)) s

/-- A committed move at its source: ASH, MOVED, FORWARD_NODE; the release is sent (R57). -/
def moveCommitted (idx : Nat) (m : MoveInfo) (s : State) : State :=
  match sess? s idx with
  | none => s
  | some x =>
    let s := modEntry idx (fun e => { e with moved := true, forwardNode := m.peer }) (toAsh idx s)
    sendSession m.peer m.job (.release x.e.handle) s

/-- The session in a move under a handle, at its source or destination. -/
def inMove (s : State) (h : Word) (source : Bool) : Option (Nat × Sess × MoveInfo) :=
  (byHandle? s h).bind fun p => p.2.mv.bind fun m =>
    if p.2.e.state = .moving && m.source = source then some (p.1, p.2, m) else none

/-- The acknowledgement reaches the source. -/
def moveAcked (h : Word) (epoch : Nat) (s : State) : State :=
  match inMove s h true with
  | some (idx, _, m) => if epoch = m.epoch + 1 then moveCommitted idx m s else s
  | none => s

/-- MOVE_ACK. -/
def execMoveAck (handle : Word) (epoch : Nat) (s : State) : Host.Outcome State Fault Refusal := run (onFabric (moveAcked handle epoch)) s

/-- The release reaches the destination: serving begins in the source's prior state (R57). -/
def moveReleased (h : Word) (s : State) : State :=
  match inMove s h false with
  | some (idx, _, m) =>
    if m.ackSent then modSess idx (fun x => { x with e := { x.e with state := x.e.prior }, mv := none }) s else s
  | none => s

/-- MOVE_RELEASE. -/
def execMoveRelease (handle : Word) (s : State) : Host.Outcome State Fault Refusal := run (onFabric (moveReleased handle)) s

/-- No acknowledgement in time: one query to the destination (R65). -/
def moveTimedOut (h : Word) (s : State) : State :=
  match inMove s h true with
  | some (idx, _, m) =>
    if m.queried then s
    else
      let s := advance m.due s
      let s := modSess idx (fun x => { x with mv := some { m with queried := true, due := now s + moveTimeout s } }) s
      sendSession m.peer m.job (.query h) s
  | none => s

/-- MOVE_TIMEOUT. -/
def execMoveTimeout (handle : Word) (s : State) : Host.Outcome State Fault Refusal := run (moveTimedOut handle) s

/-- Whether this module holds the moved copy's epoch committed (R64): its acknowledgement was sent. -/
def holdsCommitted (s : State) (h : Word) : Bool :=
  match byHandle? s h with
  | none => false
  | some (_, x) => match x.mv with | some m => m.ackSent && !m.source | none => x.e.state ≠ .ash

/-- MOVE_QUERY: the destination says whether it holds e + 1 committed (R65). -/
def execMoveQuery (src : Nat) (job : Nat) (handle : Word) (s : State) : Host.Outcome State Fault Refusal :=
  run (onFabric fun s => sendSession src job (.queryAnswer handle (holdsCommitted s handle)) s) s

/-- The query's answer at the source (R65). -/
def queryAnswered (h : Word) (committed : Bool) (s : State) : State :=
  match inMove s h true with
  | some (idx, _, m) =>
    if !m.queried then s
    else if committed then moveCommitted idx m s
    else
      let s := sendSession m.peer m.job (.cancel h) s
      modSess idx (fun x => { x with e := { x.e with state := x.e.prior }, mv := none }) s
  | none => s

/-- MOVE_QUERY_ANSWER. -/
def execMoveQueryAnswer (handle : Word) (committed : Bool) (s : State) : Host.Outcome State Fault Refusal :=
  run (onFabric (queryAnswered handle committed)) s

/-- No answer to the query: SUSPECT, reported to the slot home (R65). -/
def queryTimedOut (h : Word) (s : State) : State :=
  match inMove s h true with
  | some (idx, _, m) => if m.queried then reportSuspect idx (suspendKeep idx (advance m.due s)) else s
  | none => s

/-- MOVE_QUERY_TIMEOUT. -/
def execMoveQueryTimeout (handle : Word) (s : State) : Host.Outcome State Fault Refusal := run (queryTimedOut handle) s

/-- A cancel reaches the destination: its copy is discarded unless its acknowledgement was sent (R57, R65). -/
def moveCancelled (h : Word) (s : State) : State :=
  match inMove s h false with
  | some (idx, _, m) => if m.ackSent then s else freeEntry idx s
  | none => s

/-- MOVE_CANCEL. -/
def execMoveCancel (handle : Word) (s : State) : Host.Outcome State Fault Refusal := run (onFabric (moveCancelled handle)) s

/-- No release within twice MOVE_TIMEOUT_MS of the acknowledgement: SUSPECT, reported (R65). -/
def releaseTimedOut (h : Word) (s : State) : State :=
  match inMove s h false with
  | some (idx, _, m) => if m.ackSent then reportSuspect idx (suspendKeep idx (advance m.due s)) else s
  | none => s

/-- MOVE_RELEASE_TIMEOUT. -/
def execMoveReleaseTimeout (handle : Word) (s : State) : Host.Outcome State Fault Refusal := run (releaseTimedOut handle) s

/-! ### Disputes (R66 to R68) -/

/-- SUSPECT_REPORT: the slot home opens a dispute, once the job is ACTIVE: the copies that a teardown left SUSPECT are settled after the
registrations of the recomposed map (R363), which report them again (log entry 130). -/
def suspectReported (src job : Nat) (h : Word) (s : State) : State :=
  match job? s job with
  | none => s
  | some j => if j.map.state = 2 && homeNode s j.map h = selfNode s && j.map.members.any (·.node = src) then openDispute h job s else s

/-- SUSPECT_REPORT. -/
def execSuspectReport (src : Nat) (job : Nat) (handle : Word) (s : State) : Host.Outcome State Fault Refusal :=
  run (onFabric (suspectReported src job handle)) s

/-- CLAIM_QUERY: a member answers with its copy, which becomes SUSPECT. -/
def claimQueried (home job : Nat) (h : Word) (s : State) : State :=
  match answerClaim h s with
  | (none, s) => s
  | (some a, s) => sendSession home job (.claimAnswer h a) s

/-- CLAIM_QUERY. -/
def execClaimQuery (home : Nat) (job : Nat) (handle : Word) (s : State) : Host.Outcome State Fault Refusal :=
  run (onFabric (claimQueried home job handle)) s

/-- An answer reaches the slot home while it collects. -/
def claimAnswered (h : Word) (a : ClaimAns) (s : State) : State :=
  let f (d : Dispute) : Dispute :=
    if d.handle = h && !d.done && !(d.answers.any (·.node = a.node)) then { d with answers := d.answers ++ [a] } else d
  { s with ses := { s.ses with disputes := s.ses.disputes.map f } }

/-- CLAIM_ANSWER. -/
def execClaimAnswer (handle : Word) (ans : ClaimAns) (s : State) : Host.Outcome State Fault Refusal :=
  run (onFabric (claimAnswered handle ans)) s

/-- The tenant a dispute concerns: that of the copy held here, else of its job. -/
def disputeTenant (s : State) (d : Dispute) : Nat :=
  match byHandle? s d.handle with
  | some (_, x) => x.e.tenant
  | none => ((job? s d.job).map (·.map.tenant)).getD 0

/-- Ten milliseconds have passed: the answers are ranked, the tenant is told, the tacks that waited complete (R67,
R354). -/
def collected (h : Word) (s : State) : State :=
  match s.ses.disputes.find? fun d => d.handle = h && !d.done with
  | none => s
  | some d =>
    let s := advance d.due s
    let any := d.answers.any ranks
    let w := disputeWinner d.answers
    let d' := { d with done := true, winner := w, waiting := [] }
    let ds := if any then s.ses.disputes.map (fun x => if x.handle = h then d' else x) else s.ses.disputes.filter (·.handle ≠ h)
    let s := { s with ses := { s.ses with disputes := ds } }
    let s := if any then
        logTo [disputeTenant s d] 1 7 (unitChip 0x40) 0x0301 (match w with | some x => x.1 + x.2 % 2 ^ 48 * 65536 | none => 0) s
      else s
    d.waiting.foldl (fun s q => complete q.1 q.2 (if any then 0x13 else 0x10) s) s

/-- CLAIM_COLLECTION_END. -/
def execClaimCollectionEnd (handle : Word) (s : State) : Host.Outcome State Fault Refusal := run (collected handle) s

/-- DISPUTE_SETTLE: a settlement reaches a copy. -/
def execDisputeSettle (handle : Word) (winner : Nat) (epoch : Nat) (s : State) : Host.Outcome State Fault Refusal :=
  run (onFabric (settleCopy handle winner epoch)) s

/-! ### The end of ASH (R56) -/

/-- The reclaim of a closed session's storage, which waits for a checkpoint's capture that still has to read it (R376, R383). -/
def reclaimRead (idx : Nat) (s : State) : State :=
  if (sess? s idx).any (fun x => captureReads s x.e.handle) then s else reclaim idx s

/-- STORAGE_RECLAIMED. -/
def execStorageReclaimed (idx : Nat) (s : State) : Host.Outcome State Fault Refusal := run (reclaimRead idx) s

/-- MOVE_KEEP_EXPIRED. -/
def execMoveKeepExpired (idx : Nat) (s : State) : Host.Outcome State Fault Refusal := run (keepOver idx) s

/-! ### SES_INSPECT (R54, R75) -/

/-- The number of a state (R55). -/
def stateNo : SesState → Nat
  | .free => 0
  | .live => 1
  | .ember => 2
  | .banked => 3
  | .ash => 4
  | .waking => 5
  | .banking => 6
  | .moving => 7
  | .suspect => 8

/-- The 256 bytes of an entry (R54). RETAINED follows from the session's rows. -/
def entryBytes (x : Sess) : Bytes :=
  let e := x.e
  let fl := placeB e.pinned 0 + placeB e.kindled 1 + placeB e.suppressLate 2 + placeB e.expired 3 + placeB e.moved 4 +
    placeB e.restored 5 + placeB e.reclaimed 6
  le 0x48 1 ++ le (stateNo e.state) 1 ++ le (stateNo e.prior) 1 ++ le fl 1 ++ le e.ctx 1 ++ le (e.cls % 4 + e.turnCls % 4 * 4) 1 ++
  le (e.place % 4 + placeB e.turnAdmitted 2) 1 ++ zeros 1 ++ le e.handle.toNat 8 ++ le (e.index % 2 ^ 21) 4 ++ le e.lane 2 ++
  le e.adapterId 2 ++ le e.adapterVersion 4 ++ le e.tenant 2 ++ zeros 2 ++ le e.length 4 ++ le (retained x.st.rows) 4 ++
  le e.budget 4 ++ zeros 4 ++ le e.ptRoot 8 ++ le e.stateAddr 8 ++ le e.deadline 8 ++ le e.ownerEpoch 8 ++ le e.mapEpoch 8 ++
  le e.kindleAt 8 ++ fit e.seedKey 16 ++ le e.turnSeq 8 ++ le e.lastUse 8 ++ fit e.auditHead 32 ++ le e.auditCount 8 ++
  le e.forwardNode 2 ++ zeros 6 ++ le e.created 8 ++ zeros 72

/-- A write of SES_INSPECT_INDEX takes a snapshot; through the host port SEED_KEY reads zero (R75). -/
def inspect (acc : Port) (val : Word) (s : State) : State :=
  let i := val.toNat % 2 ^ 21
  let x := sess? s i
  let b := match x with | some x => entryBytes x | none => zeros 256
  let b := match acc with
    | .host _ => b.take 96 ++ zeros 16 ++ b.drop 112
    | _ => b
  let t := match x with | some x => x.e.tenant | none => 0
  let out := i ≥ tableMax s
  let s := modAcc acc (fun a =>
    { a with inspectIdx := i, inspect := if out then zeros 256 else b, inspectTenant := if out then 0 else t }) s
  if out then registerWarn acc 0x28 3 s else s

/-- SES_INSPECT_INDEX. -/
def execSesInspectIndex (acc : Port) (val : Word) (s : State) : Host.Outcome State Fault Refusal :=
  run (gateWrite acc 0x28 (inspect acc val)) s

end Sys2Proof.Machine
end

