-- ==== Sys2Proof/Machine/CkpCore.lean ====
section
/-!
DEFINITION. Sys2Proof/Machine/CkpCore.lean: the formats of the checkpoint store (R374, R375, R379 to R381), read and
written, and the sources a restore stages (R388).
-/
namespace Sys2Proof.Machine
open Sys2Proof

/-- One unit of a store region. -/
def ckpUnit : Nat := 65536

/-- Units that `n` bytes take. -/
def unitsFor (n : Nat) : Nat := ceilDiv n 65536

/-! ### Regions (R374) -/

/-- UNITS of a region. -/
def Region.units (r : Region) : Nat := r.ref.len / 65536

/-- MAP_UNITS of a region. -/
def Region.mapUnits (r : Region) : Nat := if r.kind = 0 then unitsFor (ceilDiv r.units 8) else 0

/-- The free map of a region in which only the header and the map are in use. -/
def Region.emptyMap (r : Region) : Nat := 2 ^ (1 + r.mapUnits) - 1

/-- The region header (R374). -/
def regionHeader (r : Region) : Bytes :=
  fit (le 0x45524F54534B4359 8 ++ le 0x48 1 ++ le r.kind 1 ++ le r.job 2 ++ le (if r.kind = 0 then r.node else 0) 2 ++ zeros 2 ++
    le r.units 4 ++ le r.mapUnits 4 ++ le r.collectSeq 8) 4096

/-- Whether a header matches a registration, in a VERSION that R5 accepts. -/
def headerOk (r : Region) (b : Bytes) : Bool :=
  leAt b 0 8 = 0x45524F54534B4359 && versionOk (leAt b 8 1) && leAt b 9 1 = r.kind && leAt b 10 2 = r.job &&
  leAt b 12 2 % 4096 = (if r.kind = 0 then r.node else 0)

/-- The first run of `n` free units, searched from unit `u` up over `k` units (log entry 23). -/
def freeRun (used n : Nat) : Nat → Nat → Nat → Option Nat
  | 0, _, _ => none
  | k + 1, u, len =>
    let len := if bit used u then 0 else len + 1
    if len = n then some (u + 1 - n) else freeRun used n k (u + 1) len

/-- Mark `n` units from `u` as in use. -/
def markUnits (used u n : Nat) : Nat := used ||| (2 ^ n - 1) * 2 ^ u

/-! ### Blob references (R375) -/

/-- The 48 bytes of a blob reference. -/
def refBytes (r : BlobRef) : Bytes := fit r.digest 32 ++ le r.node 2 ++ zeros 2 ++ le r.unit 4 ++ le r.len 8

/-- Read a blob reference. -/
def readBlobRef (b : Bytes) (o : Nat) : BlobRef :=
  { digest := slice b o 32, node := leAt b (o + 32) 2 % 4096, unit := leAt b (o + 36) 4, len := leAt b (o + 40) 8 }

/-- A blob as it is stored (R375): padded, under its key, the tweak from the writer's node and unit. -/
def storedBlob (key : Bytes) (node unit : Nat) (b : Bytes) : Bytes :=
  xtsUnits xtsEncrypt key ((node * 2 ^ 32 + unit) * 65536) (padTo b 65536)

/-- A stored blob's plaintext. -/
def plainBlob (key : Bytes) (r : BlobRef) (b : Bytes) : Bytes :=
  (xtsUnits xtsDecrypt key ((r.node * 2 ^ 32 + r.unit) * 65536) b).take r.len

/-! ### Ordinal groups -/

/-- The ordinal groups of a context with `a` attention ordinals under LAYER_GROUP `g`: first and last ordinal. -/
def ordGroups (g a : Nat) : List (Nat × Nat) :=
  let n := if g = 0 then max 1 a else g
  if a = 0 then [(0, 0)] else (List.range (ceilDiv a n)).map fun i => (i * n, min a ((i + 1) * n) - 1)

/-- The pages of a row for a group of ordinals (R375). -/
def groupBytes (w : Wt) (fmt : Nat) (r : Row) (g : Nat × Nat) : Bytes :=
  if w.ordinal w.layers = 0 then [] else (List.range (g.2 + 1 - g.1)).flatMap fun i => pageBytes w fmt (g.1 + i) r

/-- The keys and values of a page's first `n` slots: the inverse of `pageBytes`. -/
def readPage (w : Wt) (fmt n : Nat) (b : Bytes) : List (Bytes × Bytes) :=
  let per := w.kvHeads * w.headDim / 32
  let eb := mxBytes fmt
  let half := 128 * per * (1 + eb)
  let vec (o t : Nat) : Bytes := slice b (o + t * per) per ++ slice b (o + 128 * per + t * per * eb) (per * eb)
  (List.range n).map fun t => (vec 0 t, vec half t)

/-- A row from its pages in ascending ordinal. -/
def readRow (w : Wt) (fmt : Nat) (x : RowRef) (pages : Bytes) : Row :=
  let a := w.ordinal w.layers
  let n := 4096 * unitsPerPage w fmt
  let ps := (List.range a).map fun i => readPage w fmt x.written (slice pages (n * i) n)
  { v := x.v, written := x.written, score := x.score,
    kv := (List.range x.written).map fun t => ps.map fun p => p.getD t ([], []) }

/-- A recurrent state from its bytes. -/
def readState (b : Bytes) : List F32 := (List.range (b.length / 4)).map fun i => BitVec.ofNat 32 (leAt b (4 * i) 4)

/-! ### Entries (R54) -/

/-- The state of a number (R55). -/
def stateOfNo : Nat → SesState
  | 1 => .live
  | 2 => .ember
  | 3 => .banked
  | 4 => .ash
  | 5 => .waking
  | 6 => .banking
  | 7 => .moving
  | 8 => .suspect
  | _ => .free

/-- Read an entry from its 256 bytes. -/
def readEntry (b : Bytes) : Entry :=
  let f := leAt b 3 1
  { state := stateOfNo (leAt b 1 1), prior := stateOfNo (leAt b 2 1), pinned := bit f 0, kindled := bit f 1,
    suppressLate := bit f 2, expired := bit f 3, moved := bit f 4, restored := bit f 5, reclaimed := bit f 6,
    ctx := leAt b 4 1 % 4, cls := leAt b 5 1 % 4, turnCls := field (leAt b 5 1) 2 2, place := leAt b 6 1 % 4,
    turnAdmitted := bit (leAt b 6 1) 2, handle := BitVec.ofNat 64 (leAt b 8 8), index := leAt b 16 4 % 2 ^ 21,
    lane := leAt b 20 2, adapterId := leAt b 22 2, adapterVersion := leAt b 24 4, tenant := leAt b 28 2, length := leAt b 32 4,
    retained := leAt b 36 4, budget := leAt b 40 4, ptRoot := leAt b 48 8, stateAddr := leAt b 56 8, deadline := leAt b 64 8,
    ownerEpoch := leAt b 72 8, mapEpoch := leAt b 80 8, kindleAt := leAt b 88 8, seedKey := slice b 96 16,
    turnSeq := leAt b 112 8, lastUse := leAt b 120 8, auditHead := slice b 128 32, auditCount := leAt b 160 8,
    forwardNode := leAt b 168 2 % 4096, created := leAt b 176 8 }

/-! ### Records (R380) -/

/-- One part of a session's record for one ordinal group: rows `256 p` on of the record's rows. -/
def recordBytes (x : CkpRec) (g p parts : Nat) : Bytes :=
  let rows := (x.rows.drop (256 * p)).take 256
  let body := le p 2 ++ le parts 2 ++ le rows.length 4 ++ le 1 1 ++ le (x.flags % 4) 1 ++ zeros 2 ++
    entryBytes { e := x.e, st := { rows := [{ v := 0, written := x.kept }] } } ++
    (if p = 0 then refBytes x.state else zeros 48) ++
    rows.flatMap fun r => le r.v 2 ++ le r.written 1 ++ zeros 1 ++ le r.score.toNat 4 ++ refBytes (r.refs.getD g {})
  let n := 64 * ceilDiv (4 + body.length) 64
  fit (le n 4 ++ body) n

/-- A record part as a shard holds it. -/
structure Piece where
  e      : Entry
  flags  : Nat
  part   : Nat
  parts  : Nat
  state  : BlobRef
  rows   : List RowRef
  writer : Nat := 0
  layLo  : Nat := 0
  layHi  : Nat := 0
deriving DecidableEq, Repr

/-- Read one record part. -/
def readRecord (b : Bytes) : Piece :=
  let g := leAt b 12 1
  { e := readEntry (slice b 16 256), flags := leAt b 13 1 % 4, part := leAt b 4 2, parts := leAt b 6 2, state := readBlobRef b 272,
    rows := (List.range (leAt b 8 4)).map fun i =>
      let o := 320 + (8 + 48 * g) * i
      { v := leAt b o 2, written := leAt b (o + 2) 1, score := BitVec.ofNat 32 (leAt b (o + 4) 4),
        refs := (List.range g).map fun k => readBlobRef b (o + 8 + 48 * k) } }

/-- Read `n` records. -/
def readRecords : Nat → Bytes → List Piece
  | 0, _ => []
  | n + 1, b => if b.isEmpty then [] else readRecord b :: readRecords n (b.drop (max 64 (leAt b 0 4)))

/-! ### Shards (R379) -/

/-- A shard's header. -/
def shardHeader (job writer step shard revision : Nat) (x : ShardJob) : Bytes :=
  fit (le 0x44524148534B4359 8 ++ le 0x48 1 ++ zeros 1 ++ le job 2 ++ le writer 2 ++ zeros 2 ++ le step 8 ++ le shard 4 ++
    le x.count 4 ++ le x.slotLo 2 ++ le x.slotHi 2 ++ le x.layLo 2 ++ le x.layHi 2 ++ le x.posLo 4 ++ le x.posHi 4 ++
    le revision 4 ++ zeros 4 ++ le (128 + x.recs.length) 8) 128

/-- The records of a shard under their key: the region's units, the first shortened to begin at byte 128. -/
def cryptRecords (f : Bytes → Nat → Bytes → Bytes) (key : Bytes) (node unit : Nat) (b : Bytes) : Bytes :=
  let t := node * 2 ^ 32 + unit
  if b.isEmpty then []
  else f key t (b.take (65536 - 128)) ++ xtsUnits f key ((t + 1) * 65536) (b.drop (65536 - 128))

/-- A shard entry of the manifest (R381). -/
def shardEntry (shard writer unit : Nat) (x : ShardJob) (digest : Bytes) : Bytes :=
  le shard 4 ++ le writer 2 ++ zeros 2 ++ le x.slotLo 2 ++ le x.slotHi 2 ++ le x.layLo 2 ++ le x.layHi 2 ++ le x.posLo 4 ++
  le x.posHi 4 ++ le unit 4 ++ le (128 + x.recs.length) 4 ++ fit digest 32

/-- A shard entry read. -/
structure ShardEnt where
  shard  : Nat
  writer : Nat
  slotLo : Nat
  slotHi : Nat
  layLo  : Nat
  layHi  : Nat
  posLo  : Nat
  posHi  : Nat
  unit   : Nat
  len    : Nat
  digest : Bytes
deriving DecidableEq, Repr, Inhabited

/-- Read a shard entry. -/
def readShardEnt (b : Bytes) : ShardEnt :=
  { shard := leAt b 0 4, writer := leAt b 4 2 % 4096, slotLo := leAt b 8 2, slotHi := leAt b 10 2, layLo := leAt b 12 2,
    layHi := leAt b 14 2, posLo := leAt b 16 4, posHi := leAt b 20 4, unit := leAt b 24 4, len := leAt b 28 4,
    digest := slice b 32 32 }

/-- The order of shard entries (R381). -/
def ShardEnt.key (x : ShardEnt) : List Nat := [x.slotLo, x.layLo, x.posLo, x.writer, x.shard]

/-- Whether a shard's header has the fields of its entry (R385). -/
def shardFieldsOk (job : Nat) (e : ShardEnt) (r : Bytes) : Bool :=
  leAt r 0 8 = 0x44524148534B4359 && versionOk (leAt r 8 1) && leAt r 10 2 = job && leAt r 12 2 % 4096 = e.writer &&
  leAt r 24 4 = e.shard && leAt r 32 2 = e.slotLo && leAt r 34 2 = e.slotHi && leAt r 36 2 = e.layLo && leAt r 38 2 = e.layHi &&
  leAt r 40 4 = e.posLo && leAt r 44 4 = e.posHi && leAt r 56 8 = e.len

/-! ### Manifests (R381) -/

/-- Byte offset of a manifest slot in its region (R374). -/
def slotOff (slot : Nat) : Nat := 65536 + slot * 2 ^ 23

/-- Bytes of a manifest's tables after its header. -/
def mfTables (b : Bytes) : Nat := 64 * leAt b 88 1 + 64 * leAt b 90 2 + 64 * leAt b 12 4

/-- Whether a slot's header has a valid MAGIC, VERSION and LENGTH. -/
def mfHeadOk (b : Bytes) : Bool :=
  leAt b 0 8 = 0x545346494E414D59 && versionOk (leAt b 8 1) && leAt b 44 4 ≤ 2 ^ 23 &&
  256 + mfTables b + 16224 = leAt b 44 4

/-- CKP_STEP of a manifest. -/
def mfStep (b : Bytes) : Nat := leAt b 16 8

/-- The context table: context and blob reference. -/
def mfContexts (b : Bytes) : List (Nat × BlobRef) :=
  (List.range (leAt b 88 1)).map fun i => (leAt b (256 + 64 * i) 1, readBlobRef b (256 + 64 * i + 16))

/-- The adapter table: context, id, version and blob reference. -/
def mfAdapters (b : Bytes) : List (Nat × Nat × Nat × BlobRef) :=
  (List.range (leAt b 90 2)).map fun i =>
    let o := 256 + 64 * leAt b 88 1 + 64 * i
    (leAt b o 1, leAt b (o + 2) 2, leAt b (o + 4) 4, readBlobRef b (o + 16))

/-- The shard table. -/
def mfShards (b : Bytes) : List ShardEnt :=
  let o := 256 + 64 * leAt b 88 1 + 64 * leAt b 90 2
  (List.range (leAt b 12 4)).map fun i => readShardEnt (slice b (o + 64 * i) 64)

/-- A manifest's body, which its signature covers. -/
def manifestBody (job step base cut revision : Nat) (numeric keyId : Bytes) (ctxs : List (Nat × BlobRef))
    (ads : List (Nat × Nat × Nat × BlobRef)) (shards : List Bytes) : Bytes :=
  let tables := (ctxs.flatMap fun c => le c.1 1 ++ zeros 15 ++ refBytes c.2) ++
    (ads.flatMap fun a => le a.1 1 ++ zeros 1 ++ le a.2.1 2 ++ le a.2.2.1 4 ++ zeros 8 ++ refBytes a.2.2.2) ++ shards.flatten
  fit (le 0x545346494E414D59 8 ++ le 0x48 1 ++ le replayLevel 1 ++ le job 2 ++ le shards.length 4 ++ le step 8 ++ le base 8 ++
    le cut 8 ++ le revision 4 ++ le (256 + tables.length + 16224) 4 ++ fit numeric 32 ++ fit keyId 8 ++ le ctxs.length 1 ++
    zeros 1 ++ le ads.length 2) 256 ++ tables

/-! ### Failure lists (R387) -/

/-- The 24 bytes of a failure entry. -/
def failBytes (f : FailEnt) : Bytes :=
  le f.slotLo 2 ++ le f.slotHi 2 ++ le f.layLo 2 ++ le f.layHi 2 ++ le f.posLo 4 ++ le f.posHi 4 ++ le f.shard 4 ++
  le f.reason 1 ++ le f.source 1 ++ zeros 2

/-- The failure of a shard's coordinates. -/
def shardFail (e : ShardEnt) (reason : Nat) : FailEnt :=
  { slotLo := e.slotLo, slotHi := e.slotHi, layLo := e.layLo, layHi := e.layHi, posLo := e.posLo, posHi := e.posHi,
    shard := e.shard, reason := reason }

/-! ### Staging a weight source (R196, R256) -/

/-- A weight source object holds a context's set, in T1 by the spread rule; the source it replaces is freed. -/
def stageSource (c : Nat) (raw : Bytes) (s : State) : State :=
  let old := s.mem.objs.filter fun x => x.kind = 0 && x.ctx = some c
  let s := old.foldl (fun s o => dropObj o s) s
  let id := nextObjId s
  let s := addObj { id := id, kind := 0, tier := 1, region := 0xF, size := ceilDiv raw.length 65536, ctx := some c, raw := raw } s
  modCtx c (fun x => { x with source := some id, weights := if x.state ≤ 1 then raw else x.weights }) s

end Sys2Proof.Machine
end

