-- ==== Sys2Proof/Machine/SesPerform.lean ====
section
/-!
DEFINITION. Sys2Proof/Machine/SesPerform.lean: CKP_REPLAY (R389), and session tacks whose meaning runs at another time than
their own row's: those that were forwarded (R354), and those that waited for a map epoch (R356).
-/
namespace Sys2Proof.Machine
open Sys2Proof

/-- CKP_REPLAY at check 8 of R253: the body checks of R389, its ids, then the session checks. -/
def replayEff (h : TackHdr) (b : ReplayBody) (tArr : Nat) (s : State) : State :=
  if replayBodyBad b then completeOp h 0x45 0x0A s
  else match b.input with
    | .inline x => admitReplay h b tArr (idsOf b.count x) s
    | .ref r =>
      if refRefused r then completeOp h 0x45 0x50 s
      else startFetch h (.ckpReplay b) { r with len := 4 * b.count } 0 [] s tArr

/-- CKP_REPLAY. -/
def execCkpReplay (h : TackHdr) (b : ReplayBody) (s : State) : Host.Outcome State Fault Refusal :=
  run (tackRow h (.ckpReplay b) (replayEff h b)) s

/-- The meaning of a session tack that arrived at `t`. -/
def performSession (h : TackHdr) (b : TackBody) (t : Nat) (s : State) : State :=
  match b with
  | .openSes o => openEff h o s
  | .turn x => turnEff h x t s
  | .park tier => parkEff h tier s
  | .wake => wakeEff h s
  | .kindle eta => kindleEff h eta t s
  | .pin => pinEff h s
  | .unpin => unpinEff h s
  | .move dest => moveEff h dest s
  | .close => closeEff h s
  | .confirm node => settleEff h b node false s
  | .resolve node => settleEff h b node true s
  | .ckpReplay x => ckpGate h b (replayEff h x t) s
  | _ => s

/-- A session tack meets check 7 of R253 and its own checks. CONFIRM and RESOLVE find their own way to the slot home. -/
def routeSession (h : TackHdr) (b : TackBody) (t : Nat) (s : State) : State :=
  match b with
  | .confirm _ | .resolve _ => performSession h b t s
  | _ => routeTack h b t (performSession h b t) s

/-- Tacks that waited for an epoch that a job has now reached go on (R356). -/
def releaseCatchUp (job : Nat) (s : State) : State :=
  match job? s job with
  | none => s
  | some j =>
    let ready := s.hst.catchUp.filter fun x => x.1 = job && x.2.1.mapEpoch ≤ j.map.epoch
    let s := { s with hst := { s.hst with catchUp := s.hst.catchUp.filter fun x => !(x.1 = job && x.2.1.mapEpoch ≤ j.map.epoch) } }
    ready.foldl (fun s x => routeSession x.2.1 x.2.2.1 x.2.2.2.2 s) s

/-- A tack that waited DRAIN_US and is still ahead of its job's epoch ends (R356). -/
def catchUpOver (qp : Nat) (tag : Word) (s : State) : State :=
  match s.hst.catchUp.find? fun x => x.2.1.qp = qp && x.2.1.tag = tag with
  | none => s
  | some x =>
    let s := advance x.2.2.2.1 s
    let s := { s with
      hst := { s.hst with catchUp := s.hst.catchUp.erase x },
      map := { s.map with catchFails := sat (s.map.catchFails + 1) 32 } }
    complete x.2.1 x.2.2.1 0x14 s

/-- CATCH_UP_TIMEOUT. -/
def execCatchUpTimeout (qp : Nat) (tag : Word) (s : State) : Host.Outcome State Fault Refusal := run (catchUpOver qp tag) s

/-- A tack that another member forwarded is processed as though it had arrived here; it is never forwarded again
(R354). -/
def forwardedTack (src job : Nat) (h : TackHdr) (b : TackBody) (s : State) : State :=
  let h := { h with fwd := some (src, job) }
  let held := match job? s job with | some j => j.map.members.any (·.node = src) | none => false
  if !held || !sessionOp (opcodeOf b) then s
  else match b with
    | .confirm _ | .resolve _ => performSession h b (now s) s
    | _ =>
      match routeIn s (some job) h.mapEpoch h.handle true with
      | .catchUp j => catchUp h b j (now s) s
      | .redirect n e =>
        let s := { s with map := { s.map with redirects := sat (s.map.redirects + 1) 32 } }
        complete h b 0x09 s { c := n % 65536 + e % 2 ^ 48 * 65536 }
      | .claim j =>
        let s := openDispute h.handle j s
        let f (d : Dispute) : Dispute := if d.handle = h.handle then { d with waiting := d.waiting ++ [(h, b)] } else d
        { s with ses := { s.ses with disputes := s.ses.disputes.map f } }
      | .refuse st => complete h b st s
      | _ => performSession h b (now s) s

/-- The result that a member stored into the staging window of a query it was forwarded goes to the host buffer (R358). -/
def landResult (qp : Nat) (r : ResultRec) (s : State) : State :=
  match s.vec.wins.find? fun w => w.hdr.qp = qp && w.hdr.tag = r.tag with
  | none => s
  | some w =>
    let s := { s with vec := { s.vec with wins := s.vec.wins.erase w } }
    if r.wordB = 0 then s
    else rdmaWrite qp w.buf.rkey w.buf.addr (readBytes Config.ramDefault w.addr r.wordB s.mem.t1) s

/-- A record of a forwarded tack comes back: it is written as the forwarder's own (R91, R264, R354). -/
def forwardedRecord (qp : Nat) (r : ResultRec) (s : State) : State :=
  if r.kind = 1 then
    let s := if r.opcode = 0x24 then landResult qp r s else s
    let s := countTack r.status s
    if orderedOp r.opcode then
      drainBatch (flushQp qp (modQp qp (fun q => { q with order := fillOrder r.tag r.opcode r none q.order }) s))
    else postRecord qp r s
  else enterBatch { qp := qp, gen := (qpOf s qp).gen, record := r } s

/-- FORWARDED_RECORD. -/
def execForwardedRecord (src : Nat) (qp : Nat) (r : ResultRec) (s : State) : Host.Outcome State Fault Refusal :=
  run (fun s => if src = selfNode s then s else forwardedRecord qp r s) s

end Sys2Proof.Machine
end

