-- ==== Sys2Proof/Machine/Ckp.lean ====
section
/-!
DEFINITION. Sys2Proof/Machine/Ckp.lean: taking a checkpoint (R373 to R384), and the checkpoint commands but for restores.
-/
namespace Sys2Proof.Machine
open Sys2Proof

/-! ### Regions and the reads of them -/

/-- Change the checkpoint engine. -/
def modCkp (f : Ckp → Ckp) (s : State) : State := { s with ckp := f s.ckp }

/-- A registered region. -/
def regionOf (s : State) (job kind node : Nat) : Option Region :=
  s.ckp.regions.find? fun r => r.job = job && r.kind = kind && (kind = 1 || r.node = node)

/-- Change a registered region. -/
def modRegion (job kind node : Nat) (f : Region → Region) (s : State) : State :=
  let one (r : Region) : Region := if r.job = job && r.kind = kind && (kind = 1 || r.node = node) then f r else r
  modCkp (fun c => { c with regions := c.regions.map one }) s

/-- The stage of a fetch made for the checkpoint engine. -/
def stageCkp : Nat := 20

/-- A range of a store region: kind, node, offset, length. -/
abbrev CkpKey := Nat × Nat × Nat × Nat

/-- Read a range of a store region of the operation's job, on the queue pair that registered it (R373). -/
def askRead (k : CkpKey) (s : State) : State :=
  match regionOf s s.ckp.job k.1 k.2.1 with
  | none => s
  | some r =>
    startFetch { qp := r.qp } .nop { addr := r.ref.addr + k.2.2.1, len := k.2.2.2, rkey := r.ref.rkey } stageCkp []
      (modCkp (fun c => { c with waiting := true, want := some k }) s)

/-- What a range of a store region holds: read before, or empty where no region stands for it or its queue pair is not
READY; else it is still to be read. -/
def look (s : State) (k : CkpKey) : Except CkpKey Bytes :=
  match regionOf s s.ckp.job k.1 k.2.1 with
  | none => .ok []
  | some r =>
    if k.2.2.2 = 0 then .ok []
    else match find? k s.ckp.reads with
      | some b => .ok b
      | none => if (qpOf s r.qp).st = 2 then .error k else .ok []

/-- Write into a store region. -/
def storeWrite (r : Region) (off : Nat) (b : Bytes) (s : State) : State := rdmaWrite r.qp r.ref.rkey (r.ref.addr + off) b s

/-- A member region's free map is written. -/
def writeFreeMap (r : Region) (s : State) : State := storeWrite r 65536 (le r.used (ceilDiv r.units 8)) s

/-! ### The pool (R378) -/

/-- The pool of the checkpoint under way. -/
def ckpPool? (s : State) : Option (Job × Pool) :=
  if s.ckp.pool = 0xFFFF then none
  else (job? s s.ckp.job).bind fun j => (j.map.pools.find? (·.id = s.ckp.pool)).map fun p => (j, p)

/-- An operation on a line or word of T1 that this module is home to. -/
def localOp (op t mask : Nat) (data : Bytes) (a b : Word) (s : State) : Bytes × State :=
  let d := Config.ramDefault
  let set (s : State) (b : Bytes) : State := { s with mem := { s.mem with t1 := writeBytes d t b s.mem.t1 } }
  if op = 1 then (readBytes d t 128 s.mem.t1, s)
  else if op = 2 then ([], set s (mergeLine (readBytes d t 128 s.mem.t1) data mask))
  else
    let old := BitVec.ofNat 64 (leNat (readBytes d t 8 s.mem.t1))
    (le old.toNat 8, set s (le (atomicNew op old a b).toNat 8))

/-- A transaction of the checkpoint engine on the pool at a flat offset. With `ask` its answer is waited for. -/
def poolOp (ask : Bool) (op off mask : Nat) (data : Bytes) (a b : Word) (s : State) : State :=
  match ckpPool? s with
  | none => s
  | some (j, p) =>
    let addr := flatAddr p.id 0 + off
    let (node, t) := flatHome s j.map p addr
    if node = selfNode s then
      let (r, s) := localOp op t mask data a b s
      if ask then modCkp (fun c => { c with inbox := some r }) s else s
    else
      let s := if ask then modCkp (fun c => { c with waiting := true }) s else s
      issue 4 0 node j.map.job { op := op, addr := addr, mask := mask, data := data, a := a, b := b } (if ask then .ckp else .none) s

/-- LOAD the control line. -/
def loadControl (s : State) : State := poolOp true 1 0 0 [] 0 0 s

/-- The byte mask of `n` bytes from byte `o` of a line. -/
def maskOf (o n : Nat) : Nat := (2 ^ n - 1) * 2 ^ o

/-- CLAIM_LOG2: the largest for which the claim table fits in the pool. -/
def claimLog2? (s : State) : Option Nat :=
  match ckpPool? s with
  | none => none
  | some (_, p) =>
    let n := (4096 * p.units * p.members.length - (4096 + 2 ^ 22)) / 64
    if n = 0 then none else some (Nat.log2 n)

/-! ### The staging object (R376, R377) -/

/-- Bytes of a session record. -/
def recBytesOf (r : CkpRec) : Nat := 320 + sumN (r.rows.map fun x => 8 + 48 * x.refs.length)

/-- Bytes that the member's staging object holds: its ledger, and the recurrent states of the cut that the capture still has to read. -/
def stageBytes (s : State) : Nat :=
  sumN (s.ckp.working.map fun p => recBytesOf p.2) +
  (if s.ckp.st = 2 then sumN ((s.ckp.todo.filter (·.v = 65536)).map (·.data.length)) else 0)

/-- The staging object, where T2 holds it. -/
def stageObj? (s : State) : Option Obj := s.ckp.stage.bind fun id => s.mem.objs.find? fun o => o.id = id && o.kind = 3

/-- The staging object takes the size of what it holds; where T2 has no room for it there is none (log entry 171). -/
def restage (s : State) : State :=
  let n := unitsFor (stageBytes s)
  let old := stageObj? s
  if (old.map (·.size)).getD 0 = n then s
  else
    let id := match old with | some o => o.id | none => nextObjId s
    let o : Obj := { id := id, kind := 3, tier := 2, region := 0xF, size := n }
    let s := match old with | some o => dropObj o s | none => s
    if n = 0 || !objRoom s o 2 then modCkp (fun c => { c with stage := none }) s
    else
      let s := if old.isSome then { s with mem := { s.mem with objs := s.mem.objs ++ [o] } } else addObj o s
      reserveT2 o (modCkp (fun c => { c with stage := some id }) s)

/-- What a capture no longer reads is freed (R376). -/
def endCaptures (s : State) : State :=
  (s.ses.table.filter fun p => !p.2.st.kept.isEmpty && !captureReads s p.2.e.handle).foldl (fun s p =>
    retile p.1 (modSess p.1 (fun x => { x with st := { x.st with kept := [] } }) (freeKept p.2 s))) s

/-! ### Ends of a checkpoint -/

/-- The engine is IDLE again. -/
def Ckp.idle (c : Ckp) : Ckp :=
  { c with st := 0, coord := false, hdr := none, phase := 0, waiting := false, inbox := none, want := none, reads := [],
           captured := [], adapters := [], todo := [], placed := [], claims := [], shardJobs := [], table := [], body := [],
           restore := none, placing := none, unplaced := [], homeFull := false, collect := none, probe := 0, loading := 0 }

/-- CKP_BEGIN completes (R391). -/
def completeBegin (status : Nat) (s : State) : State :=
  match s.ckp.hdr with
  | none => s
  | some h =>
    completeOp h 0x41 status (modCkp (fun c => { c with hdr := none }) s) { a := s.ckp.step, b := s.ckp.shards, c := s.ckp.bytes }

/-- DETAIL of the checkpoint events (R439). -/
def ckpDetail (s : State) : Nat := s.ckp.job + s.ckp.step % 2 ^ 48 * 65536

/-- The checkpoint under way ends with a failure: FAILED is written, the event logged (R382). -/
def ckpFail (status : Nat) (s : State) : State :=
  if s.ckp.st = 0 || s.ckp.st > 4 then s
  else
    let s := poolOp false 2 0 (maskOf 24 8) (zeros 24 ++ le 1 8) 0 0 s
    let s := logAll 2 7 (unitChip 0x40) 0x0703 (ckpDetail s) s
    restage (endCaptures (modCkp Ckp.idle (completeBegin status s)))

/-! ### The cut (R376, R377) -/

/-- Whether a session is one that a job's checkpoint captures here: it holds the session, not a copy still on its way. -/
def capturedBy (job : Nat) (x : Sess) : Bool :=
  x.job = (if job = 0 then none else some job) && x.e.state ≠ .free && x.e.state ≠ .ash &&
  match x.mv with | some m => m.source || m.ackSent | none => true

/-- FLAGS of a session record (R380). -/
def recFlags (e : Entry) : Nat := match e.state with | .moving => 1 | .suspect => 2 | _ => 0

/-- FLAGS of an entry (R54), to compare. -/
def entryFlags (e : Entry) : Nat := leAt (entryBytes { e := e }) 3 1

/-- The ordinal groups of a session's context under the LAYER_GROUP of the checkpoint. -/
def groupsOf (s : State) (c : Nat) : List (Nat × Nat) := let w := wtOf s c; ordGroups (wfield s.ckp.cfg 8 8) (w.ordinal w.layers)

/-- The ledger record of a session, of the ordinal groups of this checkpoint (log entry 170). -/
def ledgerRec (s : State) (e : Entry) : Option CkpRec := (find? e.handle s.ckp.ledger).filter fun r => decide (r.groups = groupsOf s e.ctx)

/-- The ledger record that holds for a session at the cut unchanged (R377). -/
def unchanged (s : State) (e : Entry) : Option CkpRec :=
  (ledgerRec s e).bind fun r =>
    if r.e.ownerEpoch = e.ownerEpoch && r.e.auditCount = e.auditCount && r.e.state = e.state && entryFlags r.e = entryFlags e
    then some r else none

/-- The references of a full row that the ledger lists as full (R377). -/
def fullRow (s : State) (e : Entry) (v : Nat) : Option RowRef :=
  (ledgerRec s e).bind fun r => r.rows.find? fun x => x.v = v && x.written = 128

/-- The blobs that a captured session needs placed. -/
def blobsOf (s : State) (x : Entry × Store) : List BlobJob :=
  match unchanged s x.1 with
  | some _ => []
  | none =>
    let w := wtOf s x.1.ctx
    let gs := groupsOf s x.1.ctx
    let rows := x.2.rows.filter fun r => (fullRow s x.1 r.v).isNone
    let job (v g : Nat) (data : Bytes) (share : Bool) : BlobJob :=
      { h := x.1.handle, v := v, g := g, ctx := x.1.ctx, data := data, share := share }
    let pages := rows.flatMap fun r => (List.range gs.length).map fun i =>
      job r.v i (groupBytes w (fmtOf s x.1.ctx) r (gs.getD i (0, 0))) (r.v < wfield s.ckp.cfg 0 8)
    (pages ++ [job 65536 0 (stateBytes w x.2) false]).filter fun b => !b.data.isEmpty

/-- References that the ledger supplies for a captured session. -/
def ledgerRefs (s : State) (x : Entry × Store) : Nat :=
  match unchanged s x.1 with
  | some r => sumN (r.rows.map (·.refs.length)) + (if r.state.len = 0 then 0 else 1)
  | none => sumN (x.2.rows.map fun r => match fullRow s x.1 r.v with | some l => l.refs.length | none => 0)

/-- The cut is taken: the committed state of every session of the job (R376). -/
def takeCut (s : State) : State :=
  if s.ckp.st ≠ 1 then s
  else
    let cap := (s.ses.table.filter fun p => capturedBy s.ckp.job p.2).map fun p =>
      ({ p.2.e with retained := retained p.2.st.rows }, p.2.st)
    let ads := (s.stp.adapters.filter fun a => a.state = 2 || a.state = 3).map fun a => (a.ctx, a.id, a.ver, a.raw)
    let (rev, num, key) := match s.img.active with | some i => (i.revision, i.numeric, i.keyId) | none => (0, [], [])
    restage <| modCkp (fun c =>
      { c with st := 2, cutTime := now s, revision := rev, numeric := num, keyId := key, captured := cap, adapters := if c.coord then ads else [],
               todo := cap.flatMap (blobsOf s), shared := sat (c.shared + sumN (cap.map (ledgerRefs s))) 32 }) s

/-! ### Placing blobs (R375, R378) -/

/-- The member region that this module writes. -/
def ownRegion (s : State) : Option Region := regionOf s s.ckp.job 0 (selfNode s)

/-- Allocate units and write a blob; none where the region has no room. -/
def writeBlob (b : BlobJob) (s : State) : Option (BlobRef × State) :=
  match ownRegion s with
  | none => none
  | some r =>
    let n := unitsFor b.data.length
    (freeRun r.used n r.units 0 0).map fun u =>
      let ref : BlobRef := { digest := sha256 b.data, node := selfNode s, unit := u, len := b.data.length }
      let s := modRegion s.ckp.job 0 (selfNode s) (fun r => { r with used := markUnits r.used u n }) s
      let s := storeWrite r (65536 * u) (storedBlob (contextKey s b.ctx) (selfNode s) u b.data) s
      (ref, modCkp (fun c => { c with written := sat (c.written + 1) 32, bytes := c.bytes + 65536 * n }) s)

/-- The first blob that waits has its reference. -/
def placedAt (b : BlobJob) (r : BlobRef) (s : State) : State :=
  endCaptures <| modCkp (fun c =>
    { c with placed := put (b.h, b.v, b.g) r c.placed, todo := c.todo.drop 1, probe := 0, loading := 0, inbox := none }) s

/-- The first blob that waits is written in own units; a full region ends the checkpoint with STORE_FULL (R392). -/
def placeOwn (b : BlobJob) (s : State) : State :=
  match writeBlob b s with
  | none => ckpFail 0x62 s
  | some (r, s) => placedAt b r (modCkp (fun c => { c with claims := if b.share then put r.digest r c.claims else c.claims }) s)

/-- The claim entry that a probe looks at: its flat offset. -/
def claimOff (log2 : Nat) (d : Bytes) (i : Nat) : Nat := 4096 + 2 ^ 22 + 64 * ((leAt d 8 4 + i) % 2 ^ log2)

/-- LOAD the claim entry of the probe under way. -/
def loadClaim (log2 : Nat) (d : Bytes) (s : State) : State :=
  poolOp true 1 (claimOff log2 d s.ckp.probe / 128 * 128) 0 [] 0 0 (modCkp (fun c => { c with loading := 2, polled := now s }) s)

/-- The next probe, or own units after the last. -/
def nextProbe (b : BlobJob) (s : State) : State :=
  if s.ckp.probe ≥ 63 then placeOwn b s
  else modCkp (fun c => { c with probe := c.probe + 1, loading := 0, inbox := none }) s

/-- One action of CLAIM for the first blob that waits (R378). `loading`: 0 the CAS is to be sent, 1 it is out, 2 the entry
is being loaded, 3 the next load waits for its time. -/
def claimStep (log2 : Nat) (b : BlobJob) (s : State) : Option State :=
  let d := sha256 b.data
  let off := claimOff log2 d s.ckp.probe
  let k := leAt d 0 8 ||| 1
  match s.ckp.loading, s.ckp.inbox with
  | 0, _ => some (poolOp true 0x12 off 0 [] 0 (BitVec.ofNat 64 k) (modCkp (fun c => { c with loading := 1, inbox := none }) s))
  | 1, some x =>
    let old := leAt x 0 8
    if old = 0 then
      let s := placeOwn b (modCkp (fun c => { c with inbox := none }) s)
      match find? (b.h, b.v, b.g) s.ckp.placed with
      | none => some s
      | some r =>
        let o := off % 128
        let loc := r.node % 4096 + r.unit % 2 ^ 32 * 65536
        some (poolOp false 2 (off - o) (maskOf (o + 8) 40) (fit (zeros (o + 8) ++ le loc 8 ++ fit d 32) 128) 0 0 s)
    else if old = k then some (loadClaim log2 d (modCkp (fun c => { c with inbox := none, since := now s }) s))
    else some (nextProbe b s)
  | 2, some x =>
    let e := slice x (off % 128) 64
    let loc := leAt e 8 8
    if loc = 0 then some (modCkp (fun c => { c with loading := 3, inbox := none }) s)
    else if slice e 16 32 = d then
      let r : BlobRef := { digest := d, node := loc % 4096, unit := field loc 16 32, len := b.data.length }
      some (placedAt b r (modCkp (fun c => { c with shared := sat (c.shared + 1) 32 }) s))
    else some (nextProbe b s)
  | _, _ => none

/-- One action towards the first blob that waits. Without a pool a member claims within its own output. -/
def placeNext (b : BlobJob) (s : State) : Option State :=
  if !b.share then some (placeOwn b s)
  else match claimLog2? s with
    | some l => claimStep l b s
    | none =>
      match find? (sha256 b.data) s.ckp.claims with
      | some r => some (placedAt b r (modCkp (fun c => { c with shared := sat (c.shared + 1) 32 }) s))
      | none => some (placeOwn b s)

/-! ### Records and shards (R379, R380) -/

/-- The record of a captured session, its blobs placed. -/
def recordOf (s : State) (x : Entry × Store) : CkpRec :=
  match unchanged s x.1 with
  | some r => r
  | none =>
    let gs := groupsOf s x.1.ctx
    let ref (v g : Nat) : BlobRef := findD (x.1.handle, v, g) s.ckp.placed {}
    { e := x.1, kept := retained x.2.rows, flags := recFlags x.1, state := ref 65536 0, groups := gs,
      rows := x.2.rows.map fun r =>
        { v := r.v, written := r.written, score := r.score,
          refs := match fullRow s x.1 r.v with
            | some l => l.refs
            | none => (List.range gs.length).map (ref r.v) } }

/-- Parts of a record: runs of 256 rows. -/
def partsOf (x : CkpRec) : Nat := max 1 (ceilDiv x.rows.length 256)

/-- One record part among those of a shard: its record's position range and its bytes. -/
def partPos (x : CkpRec) (p : Nat) : Nat × Nat :=
  let rows := (x.rows.drop (256 * p)).take 256
  (128 * ((rows.head?.map (·.v)).getD 0), match rows.getLast? with | some r => 128 * r.v + max 1 r.written - 1 | none => 0)

/-- Cut the parts of one slot range, ordinal group and part number into shards of at most `lim` bytes. -/
def cutShards (lo hi layLo layHi lim : Nat) : List ((Nat × Nat) × Bytes) → List ShardJob → List ShardJob
  | [], acc => acc
  | (pos, b) :: l, acc =>
    let new : ShardJob := { slotLo := lo, slotHi := hi, layLo := layLo, layHi := layHi, posLo := pos.1, posHi := pos.2, count := 1, recs := b }
    match acc.getLast? with
    | none => cutShards lo hi layLo layHi lim l [new]
    | some x =>
      if 128 + x.recs.length + b.length > lim then cutShards lo hi layLo layHi lim l (acc ++ [new])
      else cutShards lo hi layLo layHi lim l (acc.dropLast ++
        [{ x with posLo := min x.posLo pos.1, posHi := max x.posHi pos.2, count := x.count + 1, recs := x.recs ++ b }])

/-- The shards of a list of records: by range of 4,096 slots, ordinal group, part, and SHARD_MIB (R379). -/
def shardsOf (s : State) (rs : List CkpRec) : List ShardJob :=
  let lim := max 1 (wfield s.ckp.cfg 16 12) * 2 ^ 20
  let groups := (rs.flatMap fun r => groupsOf s r.e.ctx).eraseDups
  let parts := (rs.map partsOf).foldl max 0
  (List.range 16).flatMap fun q =>
    let inRange := rs.filter fun r => slotOf s r.e.handle / 4096 = q
    groups.flatMap fun g => (List.range parts).flatMap fun p =>
      let of := inRange.filter fun r => p < partsOf r && (groupsOf s r.e.ctx).contains g
      cutShards (4096 * q) (4096 * q + 4095) g.1 g.2 lim
        (of.map fun r => (partPos r p, recordBytes r ((groupsOf s r.e.ctx).idxOf g) p (partsOf r))) []

/-- The first shard that waits is written, and its entry placed in the shard table. -/
def writeShard (x : ShardJob) (s : State) : State :=
  match ownRegion s with
  | none => ckpFail 0x61 s
  | some r =>
    let n := unitsFor (128 + x.recs.length)
    match freeRun r.used n r.units 0 0 with
    | none => ckpFail 0x62 s
    | some u =>
      let me := selfNode s
      let no := s.ckp.shardBase + s.ckp.shards
      let b := shardHeader s.ckp.job me s.ckp.step no s.ckp.revision x ++
        cryptRecords xtsEncrypt (ckpKey s s.ckp.tenant) me u x.recs
      let ent := shardEntry no me u x (sha256 b)
      let s := modRegion s.ckp.job 0 me (fun r => { r with used := markUnits r.used u n }) s
      let s := storeWrite r (65536 * u) b s
      let o := 64 * no % 128
      let s := poolOp false 2 (4096 + 64 * no - o) (maskOf o 64) (fit (zeros o ++ ent) 128) 0 0 s
      modCkp (fun c => { c with shards := c.shards + 1, shardJobs := c.shardJobs.drop 1, loading := 0, inbox := none,
                                table := if (ckpPool? s).isNone then c.table ++ [ent] else c.table }) s

/-! ### Manifests -/

/-- The complete manifest of a slot, where it holds one (R381). -/
def slotManifest (s : State) (slot : Nat) : Except CkpKey (Option Bytes) := do
  let head ← look s (1, 0, slotOff slot, 256)
  if mfHeadOk head then
    let b ← look s (1, 0, slotOff slot, leAt head 44 4)
    let n := b.length - 16224
    match ownerKey? s (slice b 80 8) with
    | some key => return if slhVerify192s key (b.take n) (b.drop n) then some b else none
    | none => return none
  else return none

/-- A manifest or shard that has been read with a VERSION that R5 does not accept is rejected by its own rule, and logged. -/
def readVersions (s : State) : State :=
  s.ckp.reads.foldl (fun s x =>
    let m := leAt x.2 0 8
    if m = 0x545346494E414D59 || m = 0x44524148534B4359 then noteVersion 0x40 x.2 8 s else s) s

/-- Both complete manifests with their slots: the current one, then the previous one. -/
def manifests (s : State) : Except CkpKey (List (Nat × Bytes)) := do
  let a ← slotManifest s 0
  let b ← slotManifest s 1
  match a, b with
  | some x, some y => return if mfStep x < mfStep y then [(1, y), (0, x)] else [(0, x), (1, y)]
  | some x, none => return [(0, x)]
  | none, some y => return [(1, y)]
  | none, none => return []

/-- Whether every shard of the checkpoint was cut under one REVISION (R382, R383). -/
def revisionsAgree (s : State) : Except CkpKey Bool := do
  let oks ← s.ckp.table.mapM fun t => do
    let e := readShardEnt t
    if e.writer = selfNode s then return true
    else
      let h ← look s (0, e.writer, 65536 * e.unit, 128)
      return leAt h 48 4 = s.ckp.revision
  return oks.all fun x => x

/-- The blobs of contexts and adapters that the current manifest does not supply, and the references that it does. -/
def sourceBlobs (s : State) (cur : Option Bytes) : List BlobJob × List ((Word × Nat × Nat) × BlobRef) :=
  let ctxs := match s.img.active with | some i => i.ctxs | none => []
  let olds : List BlobRef := match cur with | some b => (mfContexts b).map (fun x => x.2) ++ (mfAdapters b).map (fun x => x.2.2.2) | none => []
  let all : List (BlobJob × Bytes) :=
    (ctxs.map fun c => ({ h := 0, v := 65537, g := c.id, ctx := c.id, data := (ctxOf s c.id).weights, share := true }, c.digest)) ++
    ((List.range s.ckp.adapters.length).map fun i =>
      let a := s.ckp.adapters.getD i (0, 0, 0, [])
      ({ h := 0, v := 65538, g := i, ctx := a.1, data := a.2.2.2, share := true }, sha256 a.2.2.2))
  let known (d : Bytes) : Option BlobRef := olds.find? (·.digest = d)
  ((all.filter fun x => (known x.2).isNone && !x.1.data.isEmpty).map (·.1),
   all.filterMap fun x => (known x.2).map fun r => ((x.1.h, x.1.v, x.1.g), r))

/-- The manifest body is written into the slot that does not hold the current manifest: READY (R382). -/
def writeManifest (s : State) : State :=
  match regionOf s s.ckp.job 1 0, s.img.active with
  | some r, some i =>
    let ctxs := i.ctxs.filterMap fun c => (find? ((0 : Word), 65537, c.id) s.ckp.placed).map fun x => (c.id, x)
    let ads := (List.range s.ckp.adapters.length).filterMap fun k =>
      let a := s.ckp.adapters.getD k (0, 0, 0, [])
      (find? ((0 : Word), 65538, k) s.ckp.placed).map fun x => (a.1, a.2.1, a.2.2.1, x)
    let shards := sortBy (fun a b => lexLe (readShardEnt a).key (readShardEnt b).key) s.ckp.table
    let b := manifestBody s.ckp.job s.ckp.step s.ckp.base s.ckp.cutTime s.ckp.revision s.ckp.numeric s.ckp.keyId ctxs ads shards
    let s := match ownRegion s with | some o => writeFreeMap o s | none => s
    let s := storeWrite r (slotOff s.ckp.slot) b s
    completeBegin 0 (modCkp (fun c => { c with st := 4, phase := 0, body := b, digest := sha256 b, readyAt := now s }) s)
  | _, _ => ckpFail 0x63 s

/-! ### The engine -/

/-- One action of the engine; none while it waits for an answer or a command. -/
def ckpNext (s : State) : Option State :=
  let c := s.ckp
  let go (n : Nat) (s : State) : Option State := some (modCkp (fun c => { c with phase := n, inbox := none, loading := 0 }) s)
  match c.phase, c.inbox with
  | 1, none => if c.coord || (ckpPool? s).isNone then go 2 s else some (loadControl s)
  | 1, some x => if leAt x 0 8 = c.step then go 2 s else some (ckpFail 0x63 s)
  | 2, _ =>
    match look s (0, selfNode s, 0, 4096) with
    | .error k => some (askRead k s)
    | .ok b =>
      match ownRegion s with
      | none => some (ckpFail 0x61 s)
      | some r =>
        if r.loaded && (b.isEmpty || leAt b 24 8 = r.collectSeq) then go 4 s
        else go 3 (modRegion c.job 0 (selfNode s) (fun r => { r with collectSeq := leAt b 24 8 }) s)
  | 3, _ =>
    match ownRegion s with
    | none => some (ckpFail 0x61 s)
    | some r =>
      match look s (0, selfNode s, 65536, ceilDiv r.units 8) with
      | .error k => some (askRead k s)
      | .ok b => go 4 (modRegion c.job 0 (selfNode s) (fun r => { r with used := leNat b ||| r.emptyMap, loaded := true }) s)
  | 4, _ => if c.st = 2 then go 5 s else none
  | 5, _ =>
    match c.todo with
    | [] =>
      let jobs := shardsOf s (c.captured.map (recordOf s))
      go 6 (restage (modCkp (fun c => { c with shardJobs := jobs }) s))
    | b :: _ => placeNext b s
  | 6, none =>
    if c.shardJobs.isEmpty || (ckpPool? s).isNone then go 7 s
    else some (poolOp true 0x10 8 0 [] (BitVec.ofNat 64 c.shardJobs.length) 0 s)
  | 6, some x =>
    if leAt x 0 8 + c.shardJobs.length > 65536 then some (ckpFail 0x63 s)
    else go 7 (modCkp (fun c => { c with shardBase := leAt x 0 8 }) s)
  | 7, x =>
    match c.shardJobs with
    | [] =>
      match ownRegion s with
      | none => some (ckpFail 0x61 s)
      | some r => go 8 (writeFreeMap r s)
    | j :: _ =>
      if (ckpPool? s).isNone then some (writeShard j s)
      else match x with
        | none => some (loadControl s)
        | some l => if leAt l 24 8 = 0 then some (writeShard j s) else some (ckpFail 0x63 s)
  | 10, none => some (loadControl s)
  | 10, some x =>
    if leAt x 24 8 ≠ 0 then some (ckpFail 0x63 s)
    else if leAt x 16 8 ≠ c.members then go 9 s
    else go 11 (modCkp (fun c => { c with probe := leAt x 8 8, table := [] }) s)
  | 11, none =>
    if c.table.length ≥ c.probe then go 12 (modCkp (fun c => { c with table := c.table.take c.probe, probe := 0 }) s)
    else some (poolOp true 1 (4096 + 64 * c.table.length) 0 [] 0 0 s)
  | 11, some x => some (modCkp (fun c => { c with table := c.table ++ [slice x 0 64, slice x 64 64], inbox := none }) s)
  | 12, _ =>
    match (do return (← manifests s, ← revisionsAgree s) : Except CkpKey (List (Nat × Bytes) × Bool)) with
    | .error k => some (askRead k s)
    | .ok (_, false) => some (ckpFail 0x63 s)
    | .ok (ms, true) =>
      let s := readVersions s
      let (jobs, refs) := sourceBlobs s (ms.head?.map (·.2))
      let slot := match ms with | (k, _) :: _ => 1 - k | [] => 0
      go 13 (modCkp (fun c => { c with todo := jobs, placed := refs ++ c.placed, slot := slot }) s)
  | 13, _ =>
    match c.todo with
    | [] => some (writeManifest s)
    | b :: _ => placeNext b s
  | _, _ => none

/-- The engine runs until it waits; `n` bounds its actions. -/
def ckpDrive : Nat → State → State
  | 0, s => s
  | n + 1, s =>
    if s.ckp.waiting then s
    else match ckpNext s with
      | some s => ckpDrive n s
      | none => s

/-- The engine runs. -/
def ckpGo (s : State) : State := ckpDrive 1000000 s

/-- An answer from the pool reaches the engine; an error status ends the checkpoint. -/
def ckpAnswer (status : Nat) (data : Bytes) (s : State) : State :=
  if !s.ckp.waiting then s
  else
    let s := modCkp (fun c => { c with waiting := false, inbox := some data }) s
    if status ≠ 0 then ckpFail 0x63 s else ckpGo s

/-- A range of a store region has been read for a checkpoint. -/
def ckpReadIn (data : Bytes) (s : State) : State :=
  match s.ckp.want with
  | none => s
  | some k => modCkp (fun c => { c with waiting := false, want := none, reads := put k data c.reads }) s

/-! ### CKP_STORE (R373, R374) -/

/-- Register a region, replacing an earlier one of the same job, kind and node. -/
def register (r : Region) (s : State) : State :=
  let same (x : Region) : Bool := x.job = r.job && x.kind = r.kind && (r.kind = 1 || x.node = r.node)
  modCkp (fun c => { c with regions := c.regions.filter (fun x => !same x) ++ [r] }) s

/-- CKP_STORE. Without a deployment secret it is refused (R407). -/
def ckpStoreEff (h : TackHdr) (job kind flags node : Nat) (r : DataRef) (s : State) : State :=
  let b : TackBody := .ckpStore job kind flags node r
  let g : Region := { job := job, kind := kind, node := node, qp := h.qp, ref := r }
  if s.rom.secret.isNone then complete h b 0x74 s
  else if kind > 1 then complete h b 0x0A s
  else if refRefused r then complete h b 0x50 s
  else if bit flags 0 then
    let g := { g with used := g.emptyMap, loaded := true }
    let s := storeWrite g 0 (regionHeader g) s
    complete h b 0 (register g (if kind = 0 then writeFreeMap g s else s))
  else startFetch h b { r with len := min r.len 4096 } 0 [] s

/-- The header of a region that was not formatted has been read. -/
def ckpStoreRead (h : TackHdr) (job kind flags node : Nat) (r : DataRef) (data : Bytes) (s : State) : State :=
  let b : TackBody := .ckpStore job kind flags node r
  let g : Region := { job := job, kind := kind, node := node, qp := h.qp, ref := r }
  if headerOk g data then complete h b 0 (register { g with collectSeq := leAt data 24 8 } s)
  else complete h b 0x61 (if leAt data 0 8 = 0x45524F54534B4359 then noteVersion 0x40 data 8 s else s)

/-- CKP_STORE. -/
def execCkpStore (h : TackHdr) (job : Nat) (kind : Nat) (flags : Nat) (node : Nat) (r : DataRef) (s : State) :
    Host.Outcome State Fault Refusal :=
  run (tackRow h (.ckpStore job kind flags node r) fun _ => ckpStoreEff h job kind flags node r) s

/-! ### CKP_BEGIN (R382, R383) -/

/-- CKP_BEGIN. Without a deployment secret it is refused (R407). The working ledger of BASE_STEP is promoted (R377), the control line written by the coordinator, the cut
taken at once where no step runs (R376). -/
def ckpBeginEff (h : TackHdr) (job members pool flags step base : Nat) (s : State) : State :=
  let b : TackBody := .ckpBegin job members pool flags step base
  let coord := bit flags 0
  let poolOk := pool = 0xFFFF || (match job? s job with
    | some j => j.map.pools.any fun p => p.id = pool && p.kind = 0 && !p.park
    | none => false)
  if s.rom.secret.isNone then complete h b 0x74 s
  else if s.ckp.st ≠ 0 then complete h b 0x60 s
  else if members = 0 || members > 4096 || !poolOk || (job ≠ 0 && (job? s job).isNone) then complete h b 0x0A s
  else if (regionOf s job 0 (selfNode s)).isNone || (coord && (regionOf s job 1 0).isNone) then complete h b 0x61 s
  else
    let keep := s.ckp.workStep = base && (s.ckp.working.isEmpty || (stageObj? s).isSome)
    let tenant := match job? s job with | some j => if job = 0 then tenantOf s h.qp else j.map.tenant | none => tenantOf s h.qp
    let s := modCkp (fun c =>
      { c.idle with st := 1, coord := coord, job := job, step := step, base := base, members := members, pool := pool, tenant := tenant,
                    hdr := some h, cfg := s.regs.ckpCfg, phase := 1, ledger := if keep then c.working else [], working := if keep then c.working else [], shards := 0,
                    shardBase := 0, written := 0, shared := 0, bytes := 0, digest := zeros 32 }) s
    let s := if coord then poolOp false 2 0 (maskOf 0 128) (fit (le step 8) 128) 0 0 s else s
    ckpGo (if s.stp.running then restage s else takeCut s)

/-- CKP_BEGIN. -/
def execCkpBegin (h : TackHdr) (job : Nat) (members : Nat) (pool : Nat) (flags : Nat) (step : Nat) (base : Nat) (s : State) :
    Host.Outcome State Fault Refusal :=
  run (tackRow h (.ckpBegin job members pool flags step base) fun _ => ckpBeginEff h job members pool flags step base) s

/-- Ten microseconds after the last LOAD the claim entry is loaded again; after CLAIM_WAIT_MS the blob goes to own units
(R378). -/
def claimPoll (s : State) : State :=
  match s.ckp.todo with
  | b :: _ =>
    if s.ckp.loading ≠ 3 || s.ckp.waiting then s
    else
      let s := advance (s.ckp.polled + 10000) s
      match claimLog2? s with
      | none => ckpGo (placeOwn b s)
      | some l =>
        if now s ≥ s.ckp.since + wfield s.ckp.cfg 28 10 * 1000000 then ckpGo (placeOwn b s)
        else ckpGo (loadClaim l (sha256 b.data) s)
  | [] => s

/-- CLAIM_POLL. -/
def execClaimPoll (s : State) : Host.Outcome State Fault Refusal := run claimPoll s

/-- Everything this member writes has been written, or a write has failed (R382). -/
def writeDone (ok : Bool) (s : State) : State :=
  if !ok then ckpFail 0x63 s
  else if s.ckp.st = 2 && s.ckp.phase = 8 then
    let rs := s.ckp.captured.map (recordOf s)
    let s := poolOp false 0x10 16 0 [] 1 0 s
    let s := restage <| modCkp (fun c =>
      { c with working := rs.map (fun r => (r.e.handle, r)), workStep := c.step, captured := [] }) s
    if s.ckp.coord then modCkp (fun c => { c with st := 3, phase := 9 }) s
    else modCkp Ckp.idle (completeBegin 0 s)
  else s

/-- CHECKPOINT_WRITE_DONE. -/
def execCheckpointWriteDone (ok : Bool) (s : State) : Host.Outcome State Fault Refusal := run (writeDone ok) s

/-- DONE_COUNTER has reached MEMBERS: the coordinator gathers the shard table and writes the manifest body (R382). -/
def allDone (s : State) : State :=
  if s.ckp.st = 3 && s.ckp.phase = 9 then
    if (ckpPool? s).isSome then ckpGo (modCkp (fun c => { c with phase := 10, inbox := none }) s)
    else if s.ckp.members ≤ 1 then ckpGo (modCkp (fun c => { c with phase := 12, inbox := none }) s)
    else s
  else s

/-- CHECKPOINT_ALL_DONE. -/
def execCheckpointAllDone (s : State) : Host.Outcome State Fault Refusal := run allDone s

/-- CKP_COMMIT: the signature is verified and written, the manifest becomes current (R382). -/
def ckpCommitEff (h : TackHdr) (job step : Nat) (sig : Bytes) (s : State) : State :=
  let b : TackBody := .ckpCommit job step sig
  let c := s.ckp
  match regionOf s job 1 0, ownerKey? s (slice c.body 80 8) with
  | some r, some key =>
    if c.st = 4 && c.job = job && c.step = step && slhVerify192s key c.body (fit sig 16224) then
      let s := storeWrite r (slotOff c.slot + c.body.length) (fit sig 16224) s
      let s := logAll 0 7 (unitChip 0x40) 0x0704 (ckpDetail s) s
      complete h b 0 (modCkp (fun c => { c.idle with last := step }) s)
    else complete h b 0x64 s
  | _, _ => complete h b 0x64 s

/-- CKP_COMMIT. -/
def execCkpCommit (h : TackHdr) (job : Nat) (step : Nat) (sig : Bytes) (s : State) : Host.Outcome State Fault Refusal :=
  run (tackRow h (.ckpCommit job step sig) fun _ => ckpCommitEff h job step sig) s

/-- CKP_ABORT of the checkpoint under way; one that names no checkpoint under way is BAD_ARG (log entry 23). -/
def ckpAbortEff (h : TackHdr) (job step : Nat) (s : State) : State :=
  let b : TackBody := .ckpAbort job step
  if 1 ≤ s.ckp.st && s.ckp.st ≤ 4 && s.ckp.job = job && s.ckp.step = step then complete h b 0 (ckpFail 0x63 s)
  else complete h b 0x0A s

/-- CKP_ABORT. -/
def execCkpAbort (h : TackHdr) (job : Nat) (step : Nat) (s : State) : Host.Outcome State Fault Refusal :=
  run (tackRow h (.ckpAbort job step) fun _ => ckpAbortEff h job step) s

/-- SIGN_WAIT_S has passed in READY. -/
def signWaitOver (s : State) : State :=
  if s.ckp.st = 4 then ckpFail 0x63 (advance (s.ckp.readyAt + wfield s.ckp.cfg 38 16 * 1000000000) s) else s

/-- SIGN_WAIT_TIMEOUT. -/
def execSignWaitTimeout (s : State) : Host.Outcome State Fault Refusal := run signWaitOver s

/-! ### CKP_CTRL (R398) -/

/-- CLEAR_COUNTS of CKP_CTRL. -/
def ckpClear (s : State) : State := modCkp (fun c => { c with written := 0, shared := 0, restored := 0, failedN := 0 }) s

/-- CKP_CLEAR_COUNTS. -/
def execCkpClearCounts (acc : Port) (s : State) : Host.Outcome State Fault Refusal := run (gateWrite acc 0xA00050 ckpClear) s

/-- CKP_CTRL_ABORT. -/
def execCkpCtrlAbort (acc : Port) (s : State) : Host.Outcome State Fault Refusal := run (gateWrite acc 0xA00050 (ckpFail 0x63)) s

/-- The hold of restored adapter versions ends: they follow R92 again (R388). -/
def releaseHold (s : State) : State :=
  freeRetired { s with ckp := { s.ckp with holdEnd := none },
                       stp := { s.stp with adapters := s.stp.adapters.map fun a => { a with hold := false } } }

/-- RELEASE_REPLAY. -/
def execReleaseReplay (acc : Port) (s : State) : Host.Outcome State Fault Refusal := run (gateWrite acc 0xA00050 releaseHold) s

/-- REPLAY_HOLD_MIN has passed since the restore (R388). -/
def holdOver (s : State) : State :=
  match s.ckp.holdEnd with
  | some t => releaseHold (advance t s)
  | none => s

/-- REPLAY_HOLD_EXPIRED. -/
def execReplayHoldExpired (s : State) : Host.Outcome State Fault Refusal := run holdOver s

end Sys2Proof.Machine
end

