-- ==== Sys2Proof/Machine/Restore.lean ====
section
/-!
DEFINITION. Sys2Proof/Machine/Restore.lean: restoring from a manifest (R385 to R388), the slot home's own restore of R363,
and collection (R384). What a restore or a collection reads is one function of what has been read so far, which names
the next range it needs; nothing is applied before the command that says that the reads are finished.
-/
namespace Sys2Proof.Machine
open Sys2Proof

/-! ### CHECK_MANIFEST and the shards (R385) -/

/-- CHECK_MANIFEST on a complete manifest: the status it fails with. -/
def checkManifest (s : State) (job : Nat) (m : Bytes) : Option Nat :=
  let shards := mfShards m
  let sorted := (List.range (shards.length - 1)).all fun i =>
    lexLe (shards.getD i default).key (shards.getD (i + 1) default).key
  match s.img.active with
  | none => some 0x66
  | some a =>
    if leAt m 10 2 ≠ job then some 0x64
    else if leAt m 40 4 ≠ a.revision || slice m 48 32 ≠ fit a.numeric 32 || leAt m 9 1 ≠ replayLevel then some 0x66
    else if !sorted then some 0x64
    else if shards.any fun e => (regionOf s job 0 e.writer).isNone then some 0x61
    else none

/-- Whether a restore takes a handle: its slot lies in the tack's range, or, in a slot home's own restore, is its own. -/
def takesHandle (s : State) (q : RestoreReq) (h : Word) : Bool :=
  match q.hdr, job? s q.job with
  | none, some j => homeNode s j.map h = selfNode s
  | _, _ => q.slotLo ≤ slotOf s h && slotOf s h ≤ q.slotHi

/-- Whether a slot range meets the slots of a restore. -/
def meetsSlots (s : State) (q : RestoreReq) (lo hi : Nat) : Bool :=
  match q.hdr, job? s q.job with
  | none, some j => (List.range (hi + 1 - lo)).any fun i =>
      (j.map.members.getD (j.map.slots.getD (lo + i) 0) default).node = selfNode s
  | _, _ => lo ≤ q.slotHi && q.slotLo ≤ hi

/-- The tenant whose checkpoint key a restore uses. -/
def restoreTenant (s : State) (q : RestoreReq) : Nat :=
  match job? s q.job, q.hdr with
  | some j, _ => j.map.tenant
  | none, some h => tenantOf s h.qp
  | none, none => 0

/-- Read one shard: its record parts, or its failure. -/
def readShard (s : State) (q : RestoreReq) (step : Nat) (e : ShardEnt) : Except CkpKey (List Piece ⊕ FailEnt) := do
  let r ← look s (0, e.writer, 65536 * e.unit, e.len)
  if leAt r 16 8 ≠ step then return .inr (shardFail e 1)
  else if sha256 r ≠ e.digest || !shardFieldsOk q.job e r then return .inr (shardFail e 2)
  else
    let body := cryptRecords xtsDecrypt (ckpKey s (restoreTenant s q)) e.writer e.unit (r.drop 128)
    let ps := (readRecords (leAt r 28 4) body).map fun p => { p with writer := e.writer, layLo := e.layLo, layHi := e.layHi }
    return .inl (ps.filter fun p => takesHandle s q p.e.handle)

/-- The copies of a handle: the pieces of each writer. -/
def copiesOf (ps : List Piece) (h : Word) : List (List Piece) :=
  let mine := ps.filter (·.e.handle = h)
  (mine.map (·.writer)).eraseDups.map fun w => mine.filter (·.writer = w)

/-- The order of captured copies (R385): the higher OWNER_EPOCH, then the higher AUDIT_COUNT, then the lower WRITER. -/
def copyKey (c : List Piece) : List Nat :=
  match c.head? with
  | some p => [2 ^ 64 - p.e.ownerEpoch, 2 ^ 64 - p.e.auditCount, p.writer]
  | none => []

/-- The copy kept; none where equal copies differ in AUDIT_HEAD. -/
def keptCopy (cs : List (List Piece)) : Option (List Piece) :=
  (leastBy copyKey cs).bind fun k =>
    let e (c : List Piece) : Entry := match c.head? with | some p => p.e | none => { }
    if cs.any fun c => (e c).ownerEpoch = (e k).ownerEpoch && (e c).auditCount = (e k).auditCount && (e c).auditHead ≠ (e k).auditHead
    then none else some k

/-- Whether the parts and ordinal groups of a copy are all there, for a context with `a` attention ordinals. -/
def copyWhole (a : Nat) (c : List Piece) : Bool :=
  let parts := match c.head? with | some p => p.parts | none => 0
  (List.range parts).all fun p => (List.range (max 1 a)).all fun o =>
    c.any fun x => x.part = p && x.layLo ≤ o && o ≤ x.layHi

/-- The ordinal groups of a copy, ascending. -/
def joinGroups (c : List Piece) : List (Nat × Nat) :=
  sortBy (fun a b => decide (a.1 ≤ b.1)) (c.map fun p => (p.layLo, p.layHi)).eraseDups

/-- The rows of a whole copy: references joined in ascending ordinal. -/
def joinRows (c : List Piece) : List RowRef :=
  let los := (joinGroups c).map (·.1)
  let first := match los.head? with | some l => c.filter (·.layLo = l) | none => []
  let rows := (sortBy (fun a b => decide (a.part ≤ b.part)) first).flatMap (·.rows)
  rows.map fun r => { r with refs := los.flatMap fun l =>
    match (c.filter (·.layLo = l)).findSome? fun p => p.rows.find? (·.v = r.v) with
    | some x => x.refs
    | none => [] }

/-- A session's own failure: its full range. -/
def sessionFail (s : State) (a : Nat) (e : Entry) (reason : Nat) : FailEnt :=
  { slotLo := slotOf s e.handle, slotHi := slotOf s e.handle, layLo := 0, layHi := a - 1, posLo := 0, posHi := e.length - 1,
    shard := 0, reason := reason }

/-! ### Blobs -/

/-- A blob's plaintext: the failure reason where its region is not registered or its digest differs. -/
def fetchBlob (s : State) (ctx : Nat) (r : BlobRef) : Except CkpKey (Bytes ⊕ Nat) := do
  if r.len = 0 then return .inl []
  else if (regionOf s s.ckp.job 0 r.node).isNone then return .inr 4
  else
    let b ← look s (0, r.node, 65536 * r.unit, 65536 * unitsFor r.len)
    let p := plainBlob (contextKey s ctx) r b
    return if sha256 p = r.digest then .inl p else .inr 3

/-- Several blobs, one after another. -/
def fetchBlobs (s : State) (ctx : Nat) (rs : List BlobRef) : Except CkpKey (Bytes ⊕ Nat) := do
  let bs ← rs.mapM (fetchBlob s ctx)
  return match bs.findSome? fun x => match x with | .inr k => some k | .inl _ => none with
    | some k => .inr k
    | none => .inl (bs.flatMap fun x => match x with | .inl b => b | .inr _ => [])

/-- The weight set that gives a context's page geometry: the module's own, else the manifest's (log entry 24). -/
def geometry (s : State) (m : Bytes) (c : Nat) : Except CkpKey Bytes := do
  let own := (ctxOf s c).weights
  if !own.isEmpty then return own
  else match (mfContexts m).find? (·.1 = c) with
    | none => return []
    | some x =>
      match (← fetchBlob s c x.2) with
      | .inl b => return b
      | .inr _ => return []

/-- A session read back: its record and its storage, or its failure. -/
def readSession (s : State) (m : Bytes) (c : List Piece) : Except CkpKey ((CkpRec × Store) ⊕ FailEnt) := do
  match c.head? with
  | none => return .inr { slotLo := 0, slotHi := 0, layLo := 0, layHi := 0, posLo := 0, posHi := 0, shard := 0, reason := 3 }
  | some p =>
    let w := readWt (← geometry s m p.e.ctx)
    let a := w.ordinal w.layers
    let rows := joinRows c
    let st := match c.find? (·.part = 0) with | some x => x.state | none => {}
    let pages ← rows.mapM fun r => fetchBlobs s p.e.ctx r.refs
    let state ← fetchBlob s p.e.ctx st
    let bad := (pages ++ [state]).findSome? fun x => match x with | .inr k => some k | .inl _ => none
    match bad with
    | some k => return .inr (sessionFail s a p.e k)
    | none =>
      let bytes (x : Bytes ⊕ Nat) : Bytes := match x with | .inl b => b | .inr _ => []
      let store : Store :=
        { rows := (rows.zip pages).map fun x => readRow w (fmtOf s p.e.ctx) x.1 (bytes x.2), recState := readState (bytes state) }
      return .inl ({ e := p.e, kept := p.e.retained, flags := p.flags, state := st, groups := joinGroups c, rows := rows }, store)

/-! ### The whole restore -/

/-- Whether a member has registered a session of a handle, as far as this module knows: it holds the session, or a location
record of it (R363). -/
def registeredHere (s : State) (job : Nat) (h : Word) : Bool :=
  (match byHandle? s h with | some p => p.2.e.state ≠ .ash | none => false) ||
  (match job? s job with | some j => j.locRecs.any (·.handle = h) | none => false)

/-- What a restore from one manifest yields. -/
structure Found where
  sessions : List (CkpRec × Store) := []
  fails    : List FailEnt := []
deriving Repr

/-- Restore from one manifest the handles that meet a test (R385). -/
def restoreFrom (s : State) (q : RestoreReq) (m : Bytes) (want : Word → Bool) : Except CkpKey Found := do
  let shards := (mfShards m).filter fun e => meetsSlots s q e.slotLo e.slotHi
  let rs ← shards.mapM (readShard s q (mfStep m))
  let ps := rs.flatMap fun x => match x with | .inl p => p | .inr _ => []
  let bad := rs.filterMap fun x => match x with | .inl _ => none | .inr f => some f
  let hs := ((ps.map (·.e.handle)).eraseDups).filter fun h => want h && !registeredHere s q.job h
  let out ← hs.mapM fun h => do
    let ctx := match ps.find? (·.e.handle = h) with | some p => p.e.ctx | none => 0
    let w := readWt (← geometry s m ctx)
    let a := w.ordinal w.layers
    let all := copiesOf ps h
    match keptCopy all with
    | none => return (all.head?.bind (·.head?)).map fun p => (.inr (sessionFail s a p.e 5) : (CkpRec × Store) ⊕ FailEnt)
    | some c => if copyWhole a c then return some (← readSession s m c) else return none
  return { sessions := out.filterMap fun x => match x with | some (.inl y) => some y | _ => none,
           fails := bad ++ out.filterMap fun x => match x with | some (.inr f) => some f | _ => none }

/-- What a restore answers: a status where it restores nothing, the step used, its sessions and failures, the adapters
and weight sets to load. -/
structure Restored where
  status   : Option Nat := none
  step     : Nat := 0
  sessions : List (CkpRec × Store) := []
  fails    : List FailEnt := []
  adapters : List (Nat × Nat × Nat × Bytes) := []
  weights  : List (Nat × Bytes) := []
  sets     : List (Nat × Bytes) := []
deriving Repr

/-- The adapters of a manifest that this module does not hold (R388). -/
def restoreAdapters (s : State) (m : Bytes) : Except CkpKey (List (Nat × Nat × Nat × Bytes)) := do
  let miss := (mfAdapters m).filter fun a => !(s.stp.adapters.any fun x => x.ctx = a.1 && x.id = a.2.1 && x.ver = a.2.2.1)
  let bs ← miss.mapM fun a => fetchBlob s a.1 a.2.2.2
  return (miss.zip bs).filterMap fun x => match x.2 with
    | .inl b => if b.isEmpty then none else some (x.1.1, x.1.2.1, x.1.2.2.1, b)
    | .inr _ => none

/-- The weight sets of a manifest's contexts that meet a test. -/
def restoreWeights (s : State) (m : Bytes) (p : Nat → Bool) : Except CkpKey (List (Nat × Bytes)) := do
  let cs := (mfContexts m).filter fun c => p c.1
  let bs ← cs.mapM fun c => fetchBlob s c.1 c.2
  return (cs.zip bs).filterMap fun x => match x.2 with
    | .inl b => if b.isEmpty then none else some (x.1.1, b)
    | .inr _ => none

/-- A restore, with its fall back to the previous manifest (R385, R387). -/
def restorePlan (s : State) (q : RestoreReq) : Except CkpKey Restored := do
  let ms ← manifests s
  let cur := ms.head?.map (·.2)
  let prev := (ms[1]?).map (·.2)
  let chosen := if q.which = 0 then cur else prev
  let back := if q.which = 0 && bit q.flags 0 then prev.filter fun p => (checkManifest s q.job p).isNone else none
  match chosen with
  | none => return { status := some 0x6F }
  | some m =>
    let finish (m : Bytes) (f : Found) : Except CkpKey Restored := do
      let ads ← restoreAdapters s m
      let ws ← if bit q.flags 1 then restoreWeights s m (fun c => (ctxOf s c).state = 1) else pure []
      let used := (f.sessions.map (·.1.e.ctx)).eraseDups
      let sets ← restoreWeights s m (fun c => used.contains c && (ctxOf s c).weights.isEmpty)
      return { step := mfStep m, sessions := f.sessions, fails := f.fails, adapters := ads, weights := ws, sets := sets }
    match checkManifest s q.job m, back with
    | some st, none => return { status := some st }
    | some _, some p => finish p (← restoreFrom s q p fun _ => true)
    | none, none => finish m (← restoreFrom s q m fun _ => true)
    | none, some p =>
      let f ← restoreFrom s q m fun _ => true
      if f.fails.isEmpty then finish m f
      else
        let done := f.sessions.map (·.1.e.handle)
        let failed (h : Word) : Bool := !done.contains h && f.fails.any fun x => x.slotLo ≤ slotOf s h && slotOf s h ≤ x.slotHi
        let g ← restoreFrom s q p failed
        let mended (x : FailEnt) : Bool := !(g.fails.any fun y => y.slotLo ≤ x.slotHi && x.slotLo ≤ y.slotHi)
        finish m { sessions := f.sessions ++ g.sessions,
                   fails := f.fails.map fun x => if mended x then { x with source := 1 } else x }

/-! ### Applying (R386 to R388) -/

/-- The entry of a restored session. -/
def restoredEntry (e : Entry) (idx : Nat) : Entry :=
  { e with state := if e.pinned then .ember else .banked, kindled := false, restored := true, place := if e.pinned then 1 else 2, turnAdmitted := false, index := idx, lane := 0xFFFF,
           adapterVersion := 0, deadline := 0, ownerEpoch := e.ownerEpoch + 1, kindleAt := 0, forwardNode := 0 }

/-- A restored session is registered with its slot home; the restore waits for the home's answer (R352, R353). -/
def placeRestored (h : Word) (epoch : Nat) (job : Option Nat) (s : State) : State :=
  let n := s.wlt.outst.length + s.wlt.stalled.length
  let s := locate h epoch (.restored h) job s
  if n < s.wlt.outst.length + s.wlt.stalled.length then modCkp (fun c => { c with unplaced := c.unplaced ++ [h] }) s else s

/-- Restore one session: its entry and storage, and LOCATION; with no place for it, CAPACITY. -/
def restoreOne (job step : Nat) (x : CkpRec × Store) (s : State) : Option FailEnt × State :=
  let a := attnCount s x.1.e.ctx
  let fail : FailEnt := sessionFail s a x.1.e 6
  match freeIndex? s with
  | none => (some fail, s)
  | some idx =>
    let e := restoredEntry x.1.e idx
    let j := if job = 0 then none else some job
    let put (d : Option BankDesc) (st : Store) (s : State) : State :=
      let ses : Sess := { e := e, st := st, job := j, desc := d, fromCkp := true }
      let s := placeSess idx <| retile idx { labDropSess idx s with ses := { s.ses with table := putN idx ses s.ses.table } }
      let s := modCkp (fun c =>
        { c with restored := sat (c.restored + 1) 32,
                 working := if c.workStep = step then put' e.handle x.1 c.working else [(e.handle, x.1)], workStep := step }) s
      placeRestored e.handle e.ownerEpoch j s
    if e.pinned then (none, put none (placedIn a 1 x.2) s)
    else match bankT2 idx e x.2 s with
      | some (d, s) => (none, put (some d) (bankedIn (rowListBytes idx x.2.rows) x.2) s)
      | none => (some fail, s)
where
  /-- Give a handle its ledger record. -/
  put' (h : Word) (r : CkpRec) (l : List (Word × CkpRec)) : List (Word × CkpRec) := put h r l

/-- Load an adapter version that the restored manifest lists (R388). -/
def restoreAdapter (a : Nat × Nat × Nat × Bytes) (s : State) : State :=
  if s.stp.adapters.length ≥ 1024 then hit 22 s
  else
    let cur := (adapterIn s a.1 a.2.1 2).isNone
    let x : Adapter := { ctx := a.1, id := a.2.1, ver := a.2.2.1, digest := adDigest a.2.2.2, raw := a.2.2.2, state := if cur then 2 else 3,
                         loaded := true, hold := !cur }
    adapterEvent x x.state (holdContainer x.ctx x.raw { s with stp := { s.stp with adapters := s.stp.adapters ++ [x] } })

/-- The engine reads on towards a restore or a collection: it asks for the next range it needs. -/
def readOn {α : Type} (plan : Except CkpKey α) (s : State) : State :=
  if s.ckp.waiting then s
  else match plan with
    | .error k => askRead k s
    | .ok _ => s

/-- The next restore that R363 owes begins where the engine is IDLE. -/
def startOwed (s : State) : State :=
  match s.ckp.owed with
  | job :: l =>
    if s.ckp.st ≠ 0 then s
    else
      let q : RestoreReq := { hdr := none, job := job, which := 0, flags := 0, slotLo := 0, slotHi := 65535, buf := none }
      let s := modCkp (fun c => { c.idle with st := 5, job := job, owed := l, restore := some q, failCount := 0, cfg := s.regs.ckpCfg }) s
      readOn (restorePlan s q) s
  | [] => s

/-- A restore of a job's sessions by this slot home is owed, once (R363, R434). -/
def oweRestore (job : Nat) (s : State) : State :=
  startOwed (if s.ckp.owed.contains job then s else modCkp (fun c => { c with owed := c.owed ++ [job] }) s)

/-- A restore ends: the failure list is written, the tack completed, TABLE_FULL where a slot home had no room for a record (R353, R386 to
R388); the next one that is owed begins. -/
def finishRestore (q : RestoreReq) (step n : Nat) (fails : List FailEnt) (s : State) : State :=
  let hold := now s + wfield s.ckp.cfg 54 10 * 60000000000
  let full := s.ckp.homeFull
  let s := modCkp (fun c =>
    { c with failCount := fails.length, failedN := sat (c.failedN + fails.length) 32, holdEnd := some hold, placing := none, homeFull := false }) s
  let s := match q.hdr with
    | some h =>
      let s := match q.buf with
        | some b => if fails.isEmpty then s else rdmaWrite h.qp b.rkey b.addr (((fails.take (b.len / 24))).flatMap failBytes) s
        | none => s
      completeOp h 0x44 (if full then 0x10 else if fails.isEmpty then 0 else 0x6A) s { a := n, b := fails.length, c := step }
    | none =>
      match job? s q.job with
      | some j => if j.map.cobbler = selfNode s then logAll 2 7 (unitChip 0x40) 0x0505 (n + fails.length * 2 ^ 32) s else s
      | none => s
  startOwed (restage (modCkp Ckp.idle s))

/-- A restore whose records all have their answers ends. -/
def checkPlaced (s : State) : State :=
  match s.ckp.restore, s.ckp.placing with
  | some q, some (step, n, fails) => if s.ckp.unplaced.isEmpty then finishRestore q step n fails s else s
  | _, _ => s

/-- The slot home's answer to the location record of a restored session: refused, the session is not restored (R353). -/
def restorePlaced (h : Word) (status : Nat) (s : State) : State :=
  if !s.ckp.unplaced.contains h then s
  else
    let s := modCkp (fun c => { c with unplaced := c.unplaced.filter (· ≠ h) }) s
    let s := match byHandle? s h, s.ckp.placing, decide (status = 0) with
      | some (idx, x), some (step, n, fails), false =>
        let f := sessionFail s (attnCount s x.e.ctx) x.e 6
        freeEntry idx (modCkp (fun c => { c with placing := some (step, n - 1, fails ++ [f]), homeFull := true }) s)
      | _, _, _ => s
    checkPlaced s

/-- Stage a restored weight set as WEIGHTS_STAGE does (R256, R388): only one that is the context's, which then loads with AUTO_RELOAD. -/
def stageRestored (c : Nat) (raw : Bytes) (s : State) : State :=
  if (ctxCfg? s c).any (fun cfg => decide (sha256 raw = cfg.digest)) then
    let s := stageSource c raw s
    if (ctxOf s c).state = 1 && autoReload s c then startLoad c s else s
  else s

/-- A restore has read all it needs: it is applied, and ends once every slot home has answered (R353, R386 to R388). -/
def applyRestore (q : RestoreReq) (r : Restored) (s : State) : State :=
  let s := r.sets.foldl (fun s x => modCtx x.1 (fun c => { c with weights := x.2 }) s) s
  let (fails, s) := r.sessions.foldl (fun (acc : List FailEnt × State) x =>
    let (f, s) := restoreOne q.job r.step x acc.2
    (acc.1 ++ f.toList, s)) (r.fails, s)
  let s := r.adapters.foldl (fun s a => restoreAdapter a s) s
  let s := r.weights.foldl (fun s x => stageRestored x.1 x.2 s) s
  checkPlaced (modCkp (fun c => { c with step := if r.step = 0 then c.step else r.step, placing := some (r.step, r.sessions.length - (fails.length - r.fails.length), fails) }) s)

/-- RESTORE_COMPLETE: the reads are finished. A manifest that cannot be used restores nothing. -/
def restoreDone (s : State) : State :=
  match s.ckp.restore with
  | none => s
  | some q =>
    if s.ckp.st ≠ 5 || s.ckp.placing.isSome then s
    else match restorePlan s q with
      | .error _ => readOn (restorePlan s q) s
      | .ok r =>
        let s := readVersions s
        match r.status with
        | some st =>
          let s := match q.hdr with
            | some h => completeOp h 0x44 st s
            | none => s
          match q.hdr with
          | some _ => startOwed (modCkp Ckp.idle s)
          | none => applyRestore q {} s
        | none => applyRestore q r s

/-- RESTORE_COMPLETE. -/
def execRestoreComplete (s : State) : Host.Outcome State Fault Refusal := run restoreDone s

/-- CKP_RESTORE (R385, R391): the reads begin. -/
def ckpRestoreEff (h : TackHdr) (job which flags lo hi : Nat) (r : DataRef) (s : State) : State :=
  let b : TackBody := .ckpRestore job which flags lo hi r
  if s.ckp.st ≠ 0 then complete h b 0x60 s
  else if which > 1 || lo > hi then complete h b 0x0A s
  else if (regionOf s job 1 0).isNone then complete h b 0x61 s
  else
    let q : RestoreReq := { hdr := some h, job := job, which := which, flags := flags, slotLo := lo, slotHi := hi, buf := some r }
    let s := modCkp (fun c => { c.idle with st := 5, job := job, restore := some q, failCount := 0, cfg := s.regs.ckpCfg }) s
    readOn (restorePlan s q) s

/-- CKP_RESTORE. -/
def execCkpRestore (h : TackHdr) (job : Nat) (which : Nat) (flags : Nat) (slotLo : Nat) (slotHi : Nat) (r : DataRef) (s : State) :
    Host.Outcome State Fault Refusal :=
  run (tackRow h (.ckpRestore job which flags slotLo slotHi r) fun _ => ckpRestoreEff h job which flags slotLo slotHi r) s

/-! ### CKP_COLLECT (R384) -/

/-- The units of a region that a manifest's references and shards use. -/
def unitsOfRefs (node : Nat) (rs : List BlobRef) : Nat :=
  (rs.filter fun r => r.node = node && r.len ≠ 0).foldl (fun m r => markUnits m r.unit (unitsFor r.len)) 0

/-- The references of a manifest and its shards. -/
def refsOf (s : State) (q : RestoreReq) (m : Bytes) : Except CkpKey (Option (List BlobRef)) := do
  let rs ← (mfShards m).mapM (readShard s q (mfStep m))
  let bad := rs.any fun x => match x with | .inr _ => true | .inl _ => false
  let ps := rs.flatMap fun x => match x with | .inl p => p | .inr _ => []
  let shards := (mfShards m).map fun e => ({ node := e.writer, unit := e.unit, len := e.len } : BlobRef)
  let all := (mfContexts m).map (fun x => x.2) ++ (mfAdapters m).map (fun x => x.2.2.2) ++ shards ++
    ps.flatMap fun p => p.state :: p.rows.flatMap fun r => r.refs
  return if bad then none else some all

/-- A collection: for each member region its new free map and COLLECT_SEQ, and the count of regions that neither manifest
references; none where a shard cannot be read (log entry 23). -/
def collectPlan (s : State) (h : TackHdr) : Except CkpKey (Option (List (Region × Nat × Nat) × Nat)) := do
  let q : RestoreReq := { hdr := some h, job := s.ckp.job, which := 0, flags := 0, slotLo := 0, slotHi := 65535, buf := none }
  let ms ← manifests s
  let rs ← ms.mapM fun m => refsOf s q m.2
  let regions := s.ckp.regions.filter fun r => r.job = s.ckp.job && r.kind = 0
  let heads ← regions.mapM fun r => look s (0, r.node, 0, 4096)
  if rs.any (·.isNone) then return none
  else
    let all := rs.flatMap fun x => x.getD []
    let maps := (regions.zip heads).map fun x => (x.1, unitsOfRefs x.1.node all ||| x.1.emptyMap, leAt x.2 24 8 + 1)
    return some (maps, (regions.filter fun r => unitsOfRefs r.node all = 0).length)

/-- CKP_COLLECT: the reads begin. -/
def ckpCollectEff (h : TackHdr) (job : Nat) (s : State) : State :=
  let b : TackBody := .ckpCollect job
  if s.ckp.st ≠ 0 then complete h b 0x60 s
  else if (regionOf s job 1 0).isNone then complete h b 0x61 s
  else
    let s := modCkp (fun c => { c.idle with st := 6, job := job, collect := some h }) s
    readOn (collectPlan s h) s

/-- CKP_COLLECT. -/
def execCkpCollect (h : TackHdr) (job : Nat) (s : State) : Host.Outcome State Fault Refusal :=
  run (tackRow h (.ckpCollect job) fun _ => ckpCollectEff h job) s

/-- COLLECT_COMPLETE: each region's free map is written with COLLECT_SEQ increased by one (R384). -/
def collectDone (s : State) : State :=
  if s.ckp.st ≠ 6 then s
  else match s.ckp.collect with
    | none => startOwed (modCkp Ckp.idle s)
    | some h =>
      match collectPlan s h with
      | .error _ => readOn (collectPlan s h) s
      | .ok none => startOwed (modCkp Ckp.idle (completeOp h 0x46 0x68 (readVersions s)))
      | .ok (some (maps, n)) =>
        let s := readVersions s
        let s := maps.foldl (fun s x =>
          let r : Region := { x.1 with used := x.2.1, collectSeq := x.2.2 }
          storeWrite r 0 (regionHeader r) (writeFreeMap r s)) s
        startOwed (modCkp Ckp.idle (completeOp h 0x46 0 s { b := n }))

/-- COLLECT_COMPLETE. -/
def execCollectComplete (s : State) : Host.Outcome State Fault Refusal := run collectDone s

/-- A range of a store region has been read. -/
def ckpFetched (data : Bytes) (s : State) : State :=
  let s := ckpReadIn data s
  match s.ckp.st, s.ckp.restore, s.ckp.collect with
  | 5, some q, _ => readOn (restorePlan s q) s
  | 6, _, some h => readOn (collectPlan s h) s
  | _, _, _ => ckpGo s

end Sys2Proof.Machine
end

