-- ==== Sys2Proof/Machine/HostPort.lean ====
section
/-!
DEFINITION. Sys2Proof/Machine/HostPort.lean: the host port's commands: the link (R248, R274), received SENDs (R245, R250),
congestion and retries (R244), connection management (R246 to R248), rings (R260, R261) and the PTP clock (R266, R267).
-/
namespace Sys2Proof.Machine
open Sys2Proof

/-! ### The link -/

/-- The host link comes up: the port's virtual times start at 0 (R286). -/
def hostUp (s : State) : State :=
  if s.hst.linkUp || s.pwr.osfpHeld then s
  else
    let s := modPort 0 (fun p => { p with v := 0, maxF := 0, queues := p.queues.map fun q => (q.1, { q.2 with fLast := 0 }) }) s
    { s with hst := { s.hst with linkUp := true } }

/-- HOST_LINK_UP. -/
def execHostLinkUp (s : State) : Host.Outcome State Fault Refusal := run hostUp s

/-- The host link goes down; queue pairs keep their state for 1 s (R248). -/
def hostDown (s : State) : State :=
  if s.hst.linkUp then { s with hst := { s.hst with linkUp := false, downAt := now s } } else s

/-- HOST_LINK_DOWN. -/
def execHostLinkDown (s : State) : Host.Outcome State Fault Refusal := run hostDown s

/-- The link has been down for more than 1 s: every queue pair goes DOWN (R248). -/
def linkDownOver (s : State) : State :=
  if s.hst.linkUp then s
  else
    let s := advance (s.hst.downAt + 1000000000) s
    (s.hst.qps.filter (·.2.st ≠ 0)).foldl (fun s q => leaveReady q.1 0 s) s

/-- QP_LINK_DOWN_TIMEOUT. -/
def execQpLinkDownTimeout (s : State) : Host.Outcome State Fault Refusal := run linkDownOver s

/-! ### Received SENDs -/

/-- CREDITS_PER_QP as taken (R271). -/
def creditsPerQp (s : State) : Nat := max 1 (wfield s.regs.hstCfg 5 6)

/-- A CE-marked packet is answered with a CNP, at most one per CNP_INTERVAL_US (R244). -/
def noteCe (qp : Nat) (s : State) : State :=
  let due := match (qpOf s qp).lastCnpOut with
    | none => true
    | some t => decide (t + wfield s.regs.hstCfg 22 10 * 1000 ≤ now s)
  if due then pushCtl (.cnp qp) (roceLen s false 16) (modQp qp (fun q => { q with lastCnpOut := some (now s) }) s) else s

/-- The DSCP of the packet that carries byte `o` of a SEND whose packets carry `mtu` bytes each (R282); the last known one beyond the
packets given. -/
def dscpAt (dscps : List Nat) (mtu o : Nat) : Nat := dscps.getD (o / mtu) (dscps.getLastD 0)

/-- The tacks of a SEND, from byte `o` on (R250); `n` bounds them. `g` numbers the SEND, `k` counts the tacks that wait. -/
def takeTacks (qp : Nat) (dscps : List Nat) (g : Nat) : Nat → Nat → Bytes → Nat → State → Nat × State
  | 0, _, _, k, s => (k, s)
  | n + 1, o, b, k, s =>
    if b.isEmpty then (k, s)
    else
      let h := readTackHdr qp (dscpAt dscps (pathMtu s) o) b
      let op := leAt b 1 1
      if b.length < 32 || h.length < 32 || h.length % 8 ≠ 0 || b.length < h.length then
        (k, completeOp h op 0x01 (enterOrder h op s))
      else
        let body := readBody op h.flags (b.take h.length)
        let (go, s) := arrivalChecks h op body s
        let (k, s) := match go, body with
          | true, some x => (k + 1, enqueueTack h x g s)
          | _, _ => (k, s)
        takeTacks qp dscps g n (o + h.length) (b.drop h.length) k s

/-- The message credits a queue pair uses: its SENDs with tacks that wait. -/
def creditsUsed (s : State) (qp : Nat) : Nat :=
  ((s.shp.cls.flatMap fun c => (c.2.filter (·.hdr.qp = qp)).map (·.group)).eraseDups).length

/-- A SEND arrives on a READY queue pair (R244, R245, R250). One that comes in IP fragments is dropped and counted (R243). -/
def sendArrives (qp : Nat) (msg : Bytes) (dscps : List Nat) (ce frag : Bool) (s : State) : State :=
  if frag then { s with hst := { s.hst with fragments := s.hst.fragments + 1 } }
  else if (qpOf s qp).st ≠ 2 then s
  else
    let s := if ce then noteCe qp s else s
    if msg.length > 65536 then qpError qp (pushCtl (.nak qp 1) (roceLen s false 4) s)
    else if s.hst.poolUsed ≥ 1024 then rnrNak qp s
    else
      let s := if creditsUsed s qp ≥ creditsPerQp s then hit 8 s else s
      let (g, s) := takeBuffer s
      let s := pushCtl (.ack qp (creditsPerQp s)) (roceLen s false 4) s
      let (k, s) := takeTacks qp dscps g (msg.length / 32 + 1) 0 msg 0 s
      if k = 0 then { s with hst := { s.hst with poolUsed := s.hst.poolUsed - 1 } }
      else { s with shp := { s.shp with groupLeft := putN g k s.shp.groupLeft } }

/-- SEND_MESSAGE. -/
def execSendMessage (qp : Nat) (msg : Bytes) (pkts : Packets) (ce : Bool) (s : State) : Host.Outcome State Fault Refusal :=
  run (sendArrives qp msg pkts.dscps ce pkts.frag) s

/-- A request the module does not serve: RDMA READ, WRITE and atomics (0 to 2) receive NAK remote access error, SEND with
Immediate or Invalidate (3, 4) NAK invalid request (R243). -/
def peerRequest (qp kind : Nat) (s : State) : State :=
  if (qpOf s qp).st = 2 then pushCtl (.nak qp (if kind ≤ 2 then 2 else 1)) (roceLen s false 4) s else s

/-- PEER_RDMA_REQUEST. -/
def execPeerRdmaRequest (qp : Nat) (kind : Nat) (s : State) : Host.Outcome State Fault Refusal := run (peerRequest qp kind) s

/-! ### Congestion and retries (R243, R244) -/

/-- A PFC frame pauses each of its priorities for its quanta of 512 bit times, 0.64 ns each; 0 ends a pause. -/
def pfcPause (prios quanta : Nat) (s : State) : State :=
  let t := now s + ceilDiv (quanta * 64) 100
  { s with hst := { s.hst with pfc := (bitsOf prios 8).foldl (fun l p => putN p t l) s.hst.pfc } }

/-- PFC_FRAME. -/
def execPfcFrame (prios : Nat) (quanta : Nat) (s : State) : Host.Outcome State Fault Refusal := run (pfcPause prios quanta) s

/-- Line rate in bits per second. -/
def lineRate : Nat := 800000000000

/-- A CNP halves the send rate, down to 1 Gbit/s. -/
def cnpReceived (qp : Nat) (s : State) : State :=
  if (qpOf s qp).st = 2 then
    modQp qp (fun q => { q with rate := max 1000000000 (q.rate / 2), lastCnpIn := now s }) s
  else s

/-- CNP. -/
def execCnp (qp : Nat) (s : State) : Host.Outcome State Fault Refusal := run (cnpReceived qp) s

/-- 55 µs have passed without a CNP: 1/64 of line rate is added, up to line rate. -/
def rateRecovers (qp : Nat) (s : State) : State :=
  let q := qpOf s qp
  if q.st = 2 && q.rate < lineRate then
    let s := advance (q.lastCnpIn + 55000) s
    modQp qp (fun q => { q with rate := min lineRate (q.rate + lineRate / 64), lastCnpIn := now s }) s
  else s

/-- RATE_RECOVERY. -/
def execRateRecovery (qp : Nat) (s : State) : Host.Outcome State Fault Refusal := run (rateRecovers qp) s

/-- A request frame that is sent again waits in its egress queue as before. -/
def sendAgain (qp : Nat) (o : Out) (s : State) : State :=
  let len := match o with
    | .rdmaWrite _ _ _ b => roceLen s true b.length
    | _ => roceLen s true 0
  pushFrame 0 (egressQ s qp) { len := len, at_ := now s, outs := some o } s

/-- The local ACK timeout of ACK_TIMEOUT in the IB CM encoding, 4.096 µs × 2^n, in ns (R244). -/
def ackTimeoutNs (s : State) : Nat := 4096 * 2 ^ wfield s.regs.hstCfg 14 5

/-- No acknowledgement within the local ACK timeout of the last request sent: the module's requests are sent again, or, with the retries
exhausted, the queue pair enters ERROR. -/
def ackTimedOut (qp : Nat) (s : State) : State :=
  let q := qpOf s qp
  if q.st ≠ 2 || q.unacked.isEmpty then s
  else
    let s := advance (q.sentAt + ackTimeoutNs s) s
    if q.retries ≥ wfield s.regs.hstCfg 11 3 then qpError qp s
    else
      let s := modQp qp (fun q => { q with retries := q.retries + 1, unacked := [] }) s
      q.unacked.foldl (fun s o => sendAgain qp o s) s

/-- ACK_TIMEOUT. -/
def execAckTimeout (qp : Nat) (s : State) : Host.Outcome State Fault Refusal := run (ackTimedOut qp) s

/-- An ACK covers the first `n` of the module's unacknowledged requests. -/
def ackReceived (qp n : Nat) (s : State) : State :=
  if n = 0 || (qpOf s qp).st ≠ 2 then s else modQp qp (fun q => { q with unacked := q.unacked.drop n, retries := 0 }) s

/-- ROCE_ACK. -/
def execRoceAck (qp : Nat) (n : Nat) (s : State) : Host.Outcome State Fault Refusal := run (ackReceived qp n) s

/-- RDMA_NAK: the queue pair enters ERROR, and its tacks under way end without a record. -/
def execRdmaNak (qp : Nat) (s : State) : Host.Outcome State Fault Refusal := run (qpError qp) s

/-- The READs of a range have been answered. -/
def readsDone (qp addr len : Nat) (s : State) : State :=
  let covered (o : Out) : Bool := match o with
    | .rdmaRead _ _ a n => addr ≤ a && a + n ≤ addr + len
    | _ => false
  modQp qp (fun q => { q with unacked := q.unacked.filter fun o => !covered o, retries := 0 }) s

/-! ### Connection management (R246 to R248) -/

/-- A CM message on QP1 for the queue pair of a number: 1 REP, 3 REJ with its IB CM reason, 4 DREQ, 5 DREP. -/
def sendCm (qp kind : Nat) (b : Bytes) (s : State) (reason : Nat := 0) : State := pushCtl (.cm (qpNumber qp) b kind reason) 324 s

/-- A REQ is rejected with IB CM reason 28, consumer reject, and a private-data CODE (R246). -/
def rejectReq (qp code : Nat) (s : State) : State := sendCm qp 3 (le 0x4B434154 4 ++ le code 1) s 28

/-- A connection request: 4 for bad private data, then 1, 2 and 3 in the order of R246. -/
def cmRequest (p : Bytes) (remote cls flow : Nat) (s : State) : State :=
  let qp := leAt p 4 2
  let n := leAt p 6 1
  let vs := (List.range (min n 4)).map fun i => leAt p (8 + i) 1
  if !s.hst.txOn then s
  else if p.length < 12 || leAt p 0 4 ≠ 0x4B434154 || n = 0 || n > 4 || qp > 16383 then rejectReq qp 4 s
  else if (qpCfg? s qp).isNone then rejectReq qp 1 s
  else if !vs.any versionOk then
    rejectReq qp 2 (logAll 1 6 (unitChip 0x30) 0x0405 (vs.headD 0) s)
  else if (qpOf s qp).st ≠ 0 then rejectReq qp 3 s
  else
    let s := modQp qp (fun q =>
      { q with st := 1, gen := q.gen + 1, version := 0x48, remote := remote, tcls := cls, flow := flow, since := now s, rate := lineRate,
               lastCnpOut := none, lastCnpIn := now s }) s
    sendCm qp 1 (le 0x4B434154 4 ++ le qp 2 ++ le 0x48 1 ++ zeros 1 ++ le 65536 4 ++ le (creditsPerQp s) 2) s

/-- CM_REQ. -/
def execCmReq (priv : Bytes) (remote : Nat) (ip : IpFlow) (s : State) : Host.Outcome State Fault Refusal :=
  run (cmRequest priv remote ip.cls ip.flow) s

/-- Take a queue pair from one state to another. -/
def moveQp (qp from_ to_ : Nat) (s : State) : State :=
  if (qpOf s qp).st = from_ then modQp qp (fun q => { q with st := to_, since := now s }) s else s

/-- CM_RTU. -/
def execCmRtu (qp : Nat) (s : State) : Host.Outcome State Fault Refusal := run (moveQp qp 1 2) s

/-- A DREQ takes a READY queue pair DOWN. -/
def disconnect (qp : Nat) (s : State) : State :=
  if (qpOf s qp).st = 2 then sendCm qp 5 [] (leaveReady qp 0 s) else s

/-- CM_DREQ. -/
def execCmDreq (qp : Nat) (s : State) : Host.Outcome State Fault Refusal := run (disconnect qp) s

/-- CM_DREP. -/
def execCmDrep (qp : Nat) (s : State) : Host.Outcome State Fault Refusal := run (moveQp qp 3 0) s

/-- One second has passed since a queue pair entered a state: it goes DOWN. -/
def qpTimeout (qp from_ : Nat) (s : State) : State :=
  if (qpOf s qp).st = from_ then moveQp qp from_ 0 (advance ((qpOf s qp).since + 1000000000) s) else s

/-- CONNECT_TIMEOUT. -/
def execConnectTimeout (qp : Nat) (s : State) : Host.Outcome State Fault Refusal := run (qpTimeout qp 1) s

/-- QP_ERROR_TIMEOUT. -/
def execQpErrorTimeout (qp : Nat) (s : State) : Host.Outcome State Fault Refusal := run (qpTimeout qp 3) s

/-! ### NOP and the rings -/

/-- NOP. -/
def execNop (h : TackHdr) (s : State) : Host.Outcome State Fault Refusal := run (tackRow h .nop fun _ => complete h .nop 0) s

/-- RING_SETUP (R260). The ring comes into being with the tack's completion, in tack order. -/
def ringEff (h : TackHdr) (b : RingBody) (s : State) : State :=
  let slot := if b.kind = 0 then 64 else 32
  let eventQp := (tenant? s (tenantOf s h.qp)).map (·.eventQp)
  if b.kind = 1 && eventQp ≠ some h.qp then completeOp h 0x38 0x04 s
  else if b.kind > 1 || b.log2Slots < 6 || b.log2Slots > 20 || b.addr % slot ≠ 0 || b.consumerAddr % 8 ≠ 0 then
    completeOp h 0x38 0x51 s
  else completeOp h 0x38 0 s {} (some b)

/-- RING_SETUP. -/
def execRingSetup (h : TackHdr) (b : RingBody) (s : State) : Host.Outcome State Fault Refusal :=
  run (tackRow h (.ringSetup b) fun _ => ringEff h b) s

/-- The held records of a result ring meet its consumer count: written while there is room, lost beyond (R261). -/
def releaseHeld (qp : Nat) : List (ResultRec × Option (Nat × Nat)) → State → State
  | [], s => s
  | (r, m) :: l, s =>
    match (qpOf s qp).result with
    | none => s
    | some ring => releaseHeld qp l (if ring.prod - ring.cons ≥ ring.slots then loseRecord qp s else writeRecord qp ring r m s)

/-- A full ring's consumer count has been read: 0 result, 1 event, 2 audit ring (R12, R261, R416). -/
def consumerRead (qp kind count : Nat) (s : State) : State :=
  let seen (r : Ring) : Ring := { r with cons := count, reading := false, held := [] }
  let q := qpOf s qp
  let ring := match kind with | 0 => q.result | 1 => q.event | _ => q.audit
  match ring with
  | none => s
  | some r =>
    if !r.reading || q.readsDue.contains (r.rkey, r.consumerAddr) then s
    else
      let s := readsDone qp r.consumerAddr 8 s
      let read (f : Qp → Qp) (s : State) : State := launchReads qp (modQp qp f s)
      match kind with
      | 0 => drainBatch (flushQp qp (settleTurns (releaseHeld qp r.held (read (fun q => { q with result := some (seen r) }) s))))
      | 1 => deliverEvents 260 (tenantOf s qp) (read (fun q => { q with event := some (seen r) }) s)
      | _ => deliverAudit (tenantOf s qp) (read (fun q => { q with audit := some (seen r) }) s)

/-- RING_CONSUMER_READ. -/
def execRingConsumerRead (qp : Nat) (kind : Nat) (count : Nat) (s : State) : Host.Outcome State Fault Refusal :=
  run (consumerRead qp kind count) s

/-- EVENT_RING_DRAIN: the event ring of a tenant has room again (R12). -/
def execEventRingDrain (tenant : Nat) (consumed : Nat) (s : State) : Host.Outcome State Fault Refusal :=
  run (fun s => match eventRing? s tenant with
    | none => s
    | some (qp, r) => deliverEvents 260 tenant (modQp qp (fun q => { q with event := some { r with cons := consumed } }) s)) s

/-! ### HST_CTRL (R270) -/

/-- TX_ENABLE is written. -/
def txEnable (acc : Port) (on : Bool) (s : State) : State :=
  if on then
    if s.img.active.isNone then registerWarn acc 0x600000 3 s
    else { s with hst := { s.hst with txOn := powered s }, regs := { s.regs with hstCtrl := 1 } }
  else
    let s := allQpError s
    { s with hst := { s.hst with txOn := false }, regs := { s.regs with hstCtrl := 0 } }

/-- HOST_TX_ENABLE. -/
def execHostTxEnable (on : Bool) (s : State) : Host.Outcome State Fault Refusal :=
  run (gateWrite .owner 0x600000 (txEnable .owner on)) s

/-- CLEAR_COUNTS of HST_CTRL. -/
def hstClear (s : State) : State :=
  { s with hst := { s.hst with tacks := 0, refused := 0, rnrNaks := 0, noRing := 0,
                               qps := s.hst.qps.map fun q => (q.1, { q.2 with lost := 0 }) } }

/-- HST_CLEAR_COUNTS. -/
def execHstClearCounts (s : State) : Host.Outcome State Fault Refusal := run (gateWrite .owner 0x600000 hstClear) s

/-! ### The PTP clock (R266, R267) -/

/-- Change the clock. -/
def modClk (f : Clock → Clock) (s : State) : State := { s with clk := f s.clk }

/-- A signed number in 32 bits, saturating. -/
def satInt32 (n : Int) : Nat := ((max (-2147483648) (min 2147483647 n)) % 4294967296).toNat

/-- PTP_STATE. -/
def ptpEvent (s : State) : State :=
  logAll 1 6 (unitChip 0) 0x0602 (s.clk.state + satInt32 s.clk.offset * 2 ^ 32) s

/-- The master the clock follows: of those announced, the least priority, then the least identity; any, where none has
been announced (R266, log entry 21). -/
def followed (c : Clock) (src : Nat) : Bool :=
  match leastBy (fun (m : Nat × Nat) => [m.2, m.1]) c.masters with
  | none => true
  | some m => m.1 = src

/-- Whether a PTP message is of the domain and the transport that HST_CFG selects (R266, R271); others are not the module's. The reserved
PTP_TRANSPORT 3 selects none (log entry 139). -/
def ptpMine (s : State) (h : PtpHdr) : Bool := h.dom = wfield s.regs.hstCfg 32 8 && h.tr = wfield s.regs.hstCfg 40 2

/-- A PTP message that is the module's has its effect. -/
def onPtp (h : PtpHdr) (f : State → State) (s : State) : State := if ptpMine s h then f s else s

/-- A Sync: with its twoStepFlag 0 it is ignored and counted. -/
def syncArrives (sq : Nat) (twoStep : Bool) (rx src : Nat) (s : State) : State :=
  modClk (fun c =>
    if !twoStep then { c with ignored := c.ignored + 1 }
    else if followed c src then { c with pendSync := some (sq, rx) } else c) s

/-- PTP_SYNC. -/
def execPtpSync (hdr : PtpHdr) (twoStep : Bool) (rx : Nat) (src : Nat) (s : State) : Host.Outcome State Fault Refusal :=
  run (onPtp hdr (syncArrives hdr.sq twoStep rx src)) s

/-- What an offset measured in LOCKING or HOLDOVER does: sixteen in a row below 1 µs lock; at the first lock module
time steps to PTP time. -/
def Clock.locking (c : Clock) : Clock :=
  let c := { c with goodSyncs := if c.offset.natAbs < 1000 then c.goodSyncs + 1 else 0 }
  if c.goodSyncs < 16 then c
  else if c.everLocked then { c with state := 2, goodSyncs := 0 }
  else { c with state := 2, goodSyncs := 0, everLocked := true, nowPs := (Int.ofNat c.nowPs + c.corr * 1000).toNat, corr := 0 }

/-- A measured offset, in ns, and what it does to the clock. Before the first lock it moves the correction that the
lock will make; afterwards module time slews. -/
def Clock.offsetIs (off : Int) (c : Clock) : Clock :=
  let c := { c with offset := off }
  let c := if c.everLocked then { c with slewPs := -(off * 1000) } else { c with corr := c.corr - off }
  match c.state with
  | 1 | 3 => c.locking
  | _ => c

/-- A port's pending gate list starts at the first cycle start after the first lock (R291). -/
def GateList.firstStart (g : GateList) (t : Nat) : Nat :=
  if t ≤ g.base then g.base else g.base + ceilDiv (t - g.base) (max 1 g.cycle) * max 1 g.cycle

/-- The first lock sets every waiting gate list's start. -/
def startGates (s : State) : State :=
  let f (p : EPort) : EPort := match p.pend with
    | some (some g, _) => { p with pend := some (some g, g.firstStart (now s)) }
    | _ => p
  { s with shp := { s.shp with ports := s.shp.ports.map fun p => (p.1, f p.2) } }

/-- A Follow_Up completes a Sync: the offset is measured once a path delay is known. -/
def followUp (sq origin : Nat) (s : State) : State :=
  match s.clk.pendSync with
  | none => s
  | some (q, rx) =>
    if q ≠ sq then s
    else
      let s := modClk (fun c => { c with pendSync := none, lastT1T2 := some (origin, rx), lastSync := now s }) s
      if s.clk.state = 0 then s
      else
        let before := s.clk.everLocked
        let s := modClk (fun c => c.offsetIs (Int.ofNat rx + c.corr - Int.ofNat origin - Int.ofNat c.pathDelay)) s
        let s := if !before && s.clk.everLocked then lockInterval (startGates s) else s
        if before && s.clk.offset.natAbs > 1000000 then ptpEvent s else s

/-- PTP_FOLLOW_UP. -/
def execPtpFollowUp (hdr : PtpHdr) (origin : Nat) (s : State) : Host.Outcome State Fault Refusal :=
  run (onPtp hdr (followUp hdr.sq origin)) s

/-- A Delay_Resp: the mean path delay from t1 to t4. The first exchange takes the clock to LOCKING. -/
def delayResp (sq rx : Nat) (s : State) : State :=
  match s.clk.pendDelay, s.clk.lastT1T2 with
  | some (q, t3), some (t1, t2) =>
    if q ≠ sq then s
    else
      let a : Int := Int.ofNat t2 - Int.ofNat t1
      let b : Int := Int.ofNat rx - Int.ofNat t3
      let s := modClk (fun c => { c with pendDelay := none, pathDelay := ((a + b) / 2).toNat }) s
      if s.clk.state = 0 then
        let off := (a - b) / 2
        modClk (fun c => { c with state := 1, goodSyncs := 0, offset := off, corr := -off }) s
      else s
  | _, _ => s

/-- PTP_DELAY_RESP. -/
def execPtpDelayResp (hdr : PtpHdr) (rx : Nat) (s : State) : Host.Outcome State Fault Refusal :=
  run (onPtp hdr (delayResp hdr.sq rx)) s

/-- PTP_ANNOUNCE: a master and its priority. -/
def execPtpAnnounce (hdr : PtpHdr) (master : PtpMaster) (s : State) : Host.Outcome State Fault Refusal :=
  run (onPtp hdr (modClk fun c => { c with masters := putN master.src master.prio c.masters })) s

/-- The length of a Delay_Req frame with its FCS: 44 bytes in UDP over IPv4, in UDP over IPv6, or in an Ethernet frame of the least
length (R266). -/
def delayReqLen (tr : Nat) : Nat := match tr with | 0 => 90 | 1 => 110 | _ => 64

/-- A Delay_Req is sent with its timestamp, in the module's domain and over its transport (R266). -/
def delayReq (s : State) : State :=
  let dom := wfield s.regs.hstCfg 32 8
  let tr := wfield s.regs.hstCfg 40 2
  if tr = 3 then s else
  let sq := s.clk.delaySeq
  let s := modClk (fun c => { c with pendDelay := some (sq, now s), delaySeq := (sq + 1) % 65536 }) s
  pushCtl (.ptpDelayReq sq (now s) dom tr) (delayReqLen tr) s

/-- PTP_DELAY_REQ. -/
def execPtpDelayReq (s : State) : Host.Outcome State Fault Refusal := run delayReq s

/-- No Sync with Follow_Up for 2 s: HOLDOVER. -/
def holdover (s : State) : State :=
  if s.clk.state = 2 then
    let s := advance (s.clk.lastSync + 2000000000) s
    ptpEvent (modClk (fun c => { c with state := 3, goodSyncs := 0 }) s)
  else s

/-- PTP_HOLDOVER. -/
def execPtpHoldover (s : State) : Host.Outcome State Fault Refusal := run holdover s

end Sys2Proof.Machine
end

