-- ==== Sys2Proof/Machine/Shaping.lean ====
section
/-!
DEFINITION. Sys2Proof/Machine/Shaping.lean: fair queuing and time gates (R286 to R291), the histograms (R292, R301) and the
counts of R294.
-/
namespace Sys2Proof.Machine
open Sys2Proof

/-! ### Gate lists (R289 to R291) -/

/-- The entry that runs `o` ns into a cycle, from entry `i` on: its number and the ns it still runs. -/
def entryFrom : Nat → Nat → List (Nat × Nat) → Nat × Nat
  | i, _, [] => (i, 0)
  | i, o, (d, _) :: l => if o < d then (i, d - o) else entryFrom (i + 1) (o - d) l

/-- The entry of a list that runs at time `t`: its number, and when it ends. -/
def GateList.at_ (g : GateList) (t : Nat) : Nat × Nat :=
  let (i, d) := entryFrom 0 ((t - g.base) % max 1 g.cycle) g.entries
  (i, t + d)

/-- Whether entry `i` opens queue `q`. -/
def GateList.opens (g : GateList) (i q : Nat) : Bool := bit (g.entries.getD (i % max 1 g.entries.length) (0, 0)).2 q

/-- Whether every entry opens queue `q`. -/
def GateList.always (g : GateList) (q : Nat) : Bool := g.entries.all fun e => bit e.2 q

/-- How long queue `q` stays open from the start of entry `i` on, across at most `n` entries. -/
def GateList.runLen (g : GateList) (q : Nat) : Nat → Nat → Nat
  | 0, _ => 0
  | n + 1, i => if g.opens i q then (g.entries.getD (i % max 1 g.entries.length) (0, 0)).1 + g.runLen q n (i + 1) else 0

/-- The longest window of queue `q`. -/
def GateList.longest (g : GateList) (q : Nat) : Nat := maxN ((List.range g.entries.length).map (g.runLen q g.entries.length))

/-- The end of the window of queue `q` that is open at time `t` in entry `i`, which ends at `e`. -/
def GateList.windowEnd (g : GateList) (q i e : Nat) : Nat := e + g.runLen q g.entries.length (i + 1)

/-- The payload rate of a port in units of 10 Mbit/s (R289, R303). -/
def portRate (s : State) (p : Nat) : Nat :=
  if p = 0 then 80000
  else
    let k := linkOf s (p - 1)
    match k.encrypted, decide (k.lanes = 15) with
    | false, true => 46107
    | false, false => 23054
    | true, true => 44596
    | true, false => 22298

/-- Whether a frame of `len` bytes takes at most `w` ns on a port. -/
def fitsIn (s : State) (p len w : Nat) : Bool := (len + 20) * 800 ≤ w * portRate s p

/-- How long queue `q` has been open before entry `i` began, across at most `n` entries. -/
def GateList.openBefore (g : GateList) (q : Nat) : Nat → Nat → Nat
  | 0, _ => 0
  | n + 1, i =>
    let k := (i + g.entries.length - 1) % max 1 g.entries.length
    if g.opens k q then (g.entries.getD k (0, 0)).1 + g.openBefore q n k else 0

/-- When the window of queue `q` that is open in entry `i`, which ends at `e`, began. -/
def GateList.windowStart (g : GateList) (q i e : Nat) : Nat :=
  e - (g.entries.getD i (0, 0)).1 - g.openBefore q g.entries.length i

/-- Whether a port stands at the beginning of a window that began at `w`: no frame has started since (R290, log entry 52). -/
def EPort.atStart (x : EPort) (w : Nat) : Bool := match x.lastSend with | some t => decide (t < w) | none => true

/-- What the gates say of a frame at the head of queue `q` now: it may start, and whether it overruns its window. A frame longer than
its queue's longest window, and waiting since `since`, starts at the beginning of a window (R289, R290). -/
def gateLets (s : State) (p q len since : Nat) : Bool × Bool :=
  let x := portOf s p
  match x.running, x.gates with
  | true, some g =>
    let (i, e) := g.at_ (now s)
    if g.always q then (true, false)
    else if !g.opens i q then (false, false)
    else if fitsIn s p len (g.windowEnd q i e - now s) then (true, false)
    else if fitsIn s p len (g.longest q) then (false, false)
    else if since ≤ g.windowStart q i e && x.atStart (g.windowStart q i e) then (true, true) else (false, false)
  | _, _ => (true, false)

/-- A queue's head is tagged anew where its gate reopens while it holds frames (R287). -/
def EQueue.reopen (v : Nat) (q : EQueue) : EQueue :=
  match q.tag, q.frames with
  | some st, f :: _ =>
    let st' := laterTag v st
    { q with tag := some st', fLast := (st' + f.len * 65536 / max q.weight 1) % 2 ^ 64 }
  | _, _ => q

/-- The queues that `was` closed and `is` opens are reopened. -/
def EPort.reopen (was is : Nat → Bool) (p : EPort) : EPort :=
  let qs := p.queues.map fun x => if !was x.1 && is x.1 then (x.1, x.2.reopen p.v) else x
  { p with queues := qs, maxF := qs.foldl (fun m x => if x.2.tag.isSome then laterTag m x.2.fLast else m) p.maxF }

/-- Whether the entry a port last stood in, and every entry up to `i`, opens queue `q`. -/
def EPort.openThrough (p : EPort) (i q : Nat) : Bool :=
  match p.running, p.gates with
  | true, some g =>
    let n := max 1 g.entries.length
    (List.range ((i + n - p.entry % n) % n)).all fun k => g.opens (p.entry + k) q
  | _, _ => true

/-- A port's gates follow the time: a pending list comes into force, the running entry is found (R291). -/
def syncGates (p : Nat) (s : State) : State :=
  let t := now s
  let s := modPort p (fun x =>
    match x.pend with
    | some (g, st) =>
      if s.clk.everLocked && st ≤ t then
        let was := match x.running, x.gates with | true, some o => o.opens x.entry | _, _ => fun _ => true
        let i := match g with | some g => (g.at_ t).1 | none => 0
        let is := match g with | some g => g.opens i | none => fun _ => true
        ({ x with gates := g, running := g.isSome, startAt := st, pend := none, entry := i } : EPort).reopen was is
      else x
    | none => x) s
  modPort p (fun x =>
    match x.running, x.gates with
    | true, some g =>
      let i := (g.at_ t).1
      { x.reopen (x.openThrough i) (g.opens i) with entry := i }
    | _, _ => x) s

/-- A port is given the gate list of an image, or none (R46, R291). -/
def setGates (p : Nat) (g : Option GateList) (s : State) : State :=
  let x := portOf s p
  let now_ := match x.pend with | some (o, _) => o | none => x.gates
  if g = now_ then s
  else match g with
    | some l => modPort p (fun x => { x with pend := some (some l, if s.clk.everLocked then l.firstStart (now s) else 0) }) s
    | none =>
      let was := match x.running, x.gates with | true, some o => o.opens x.entry | _, _ => fun _ => true
      modPort p (fun x => ({ x with gates := none, running := false, pend := none } : EPort).reopen was fun _ => true) s

/-- When a port's next gate entry ends or its pending list starts (R289, R291). -/
def gateDue? (p : Nat) (s : State) : Option Nat :=
  let x := portOf s p
  let starts := match x.pend with | some (_, st) => if s.clk.everLocked then [max st (now s)] else [] | none => []
  let ends := match x.running, x.gates with | true, some g => [(g.at_ (now s)).2] | _, _ => []
  (starts ++ ends).min?

/-- The next boundary of a port's gate list comes, or the first cycle start of a pending one. -/
def gateEntry (p : Nat) (s : State) : State :=
  match gateDue? p s with
  | some t => syncGates p (advance t s)
  | none => s

/-- GATE_ENTRY. -/
def execGateEntry (port : Nat) (s : State) : Host.Outcome State Fault Refusal := runOn (port < 33) (gateEntry port) s

/-! ### Fair queuing (R286) -/

/-- The virtual channel that an egress frame waits for: on a Welt link that of its class, on the host port one for all (R312). -/
def EFrame.channel (e : EFrame) : Nat := match e.frame with | some f => vcOf (frameHdr f).cls | none => 0

/-- The first frame of a queue that may start: each virtual channel offers its first frame, and one that lacks its credits holds back
those of its own channel alone (R312). Its place in the queue is answered with it. -/
def EQueue.candidate (ok : EFrame → Bool) : Nat → List Nat → List EFrame → Option (Nat × EFrame)
  | _, _, [] => none
  | i, seen, f :: l =>
    if seen.contains f.channel then candidate ok (i + 1) seen l
    else if ok f then some (i, f) else candidate ok (i + 1) (f.channel :: seen) l

/-- What a port sends next from a queue: the queue, the frame's place, the frame, its start tag, and whether it overruns its window. -/
structure Pick where
  queue : Nat
  place : Nat
  frame : EFrame
  start : Nat
  late  : Bool

/-- Whether one choice goes before another: a frame that waited for the beginning of its window, then the least start tag (R286, R290). -/
def Pick.before (a b : Pick) : Bool := if a.late = b.late then precedes a.start b.start else a.late

/-- The choice among the eligible queues; `ok` is what the port asks of a frame beside its gates. -/
def leastQueue (s : State) (p : Nat) (ok : EFrame → Bool) : Option Pick :=
  (portOf s p).queues.foldl (fun (best : Option Pick) x =>
    match x.2.tag, EQueue.candidate (fun f => ok f && (gateLets s p x.1 f.len f.at_).1) 0 [] x.2.frames with
    | some st, some (i, f) =>
      let c : Pick := { queue := x.1, place := i, frame := f, start := st, late := (gateLets s p x.1 f.len f.at_).2 }
      match best with
      | some b => if c.before b then some c else best
      | none => some c
    | _, _ => best) none

/-- A frame leaves its queue, charged to the queue's start tag, and the next frame reaches the head (R286). Stalled issuers follow where
room frees (R288). -/
def EPort.pop (k : Nat) (c : Pick) (p : EPort) : EPort :=
  let x := findD c.queue p.queues {}
  let last := if c.place = 0 then x.fLast else (c.start + c.frame.len * 65536 / max x.weight 1) % 2 ^ 64
  let x' : EQueue := ({ x with frames := x.frames.eraseIdx c.place, fLast := last } : EQueue).tagHead c.start
  let p := { p with v := c.start, queues := putN c.queue x' p.queues, maxF := laterTag (laterTag p.maxF last) x'.fLast }
  p.settle.refill (egressRoom k) p.stalled

/-- A frame runs past its window (R290): counted, and logged at most once a second. -/
def overrun (p : Nat) (s : State) : State :=
  let x := portOf s p
  let ev := match x.warnAt with | some t => decide (t + 1000000000 ≤ now s) | none => true
  let s := modPort p (fun x => { x with overruns := sat (x.overruns + 1) 32, warnAt := if ev then some (now s) else x.warnAt }) s
  if ev then logAll 1 6 (if p = 0 then unitChip 0x30 else unitLink (p - 1)) 0x0603 p s else s

/-- Take the frame that a port sends next: control frames first, then the least start tag. -/
def takeFrame (p : Nat) (ctlOk : EFrame → Bool) (ok : EFrame → Bool) (s : State) : Option EFrame × State :=
  let s := syncGates p s
  let started (s : State) : State := modPort p (fun x => { x with lastSend := some (now s) }) s
  match (portOf s p).ctl with
  | f :: rest => if ctlOk f then (some f, started (modPort p (fun x => { x with ctl := rest }) s)) else (none, s)
  | [] =>
    match leastQueue s p ok with
    | none => (none, s)
    | some c =>
      let s := started (modPort p (·.pop p c) s)
      (some c.frame, if c.late then overrun p s else s)

/-- The queue pair of a frame on the host wire. -/
def outQp : Out → Option Nat
  | .rdmaWrite q _ _ _ | .rdmaRead q _ _ _ => some q
  | _ => none

/-- Whether a frame's priority is not paused (R243). A queue pair's priority is the top three bits of its traffic class
(log entry 22). -/
def unpaused (s : State) (f : EFrame) : Bool :=
  match f.outs.bind outQp with
  | some q => findD ((qpOf s q).tcls / 32 % 8) s.hst.pfc 0 ≤ now s
  | none => true

/-- Event records that wait for room in the egress buffer go to their rings as room frees (R12, R288). -/
def retryEvents (s : State) : State :=
  (s.hst.evs.filter fun e => !(e.2.held.isEmpty && e.2.reserve.isEmpty)).foldl (fun s e => deliverEvents 260 e.1 s) s

/-- A frame boundary of the host port. RDMA requests wait for their acknowledgement (R244). -/
def hostEgress (s : State) : State :=
  if !s.hst.linkUp || !s.hst.txOn then s
  else match takeFrame 0 (fun _ => true) (unpaused s) s with
    | (none, s) => s
    | (some f, s) =>
      let s := match f.outs with
        | some o =>
          let s := match outQp o with
            | some q => modQp q (fun q => { q with unacked := q.unacked ++ [o], sentAt := now s }) s
            | none => s
          emit o s
        | none => s
      retryEvents (match f.measure with
        | some m => tokenSent m s
        | none => s)

/-! ### Histograms (R292, R301) -/

/-- Count a value in the bins above 0 of a histogram. -/
def countHist (key : Nat × Nat × Nat) (v : Nat) (s : State) : State :=
  if v = 0 then s
  else
    let h := findD key s.shp.hist emptyBins
    { s with shp := { s.shp with hist := put key (h.modify (binOf v) (· + 1)) s.shp.hist } }

/-- One sample of every queue. A queue that holds nothing counts in bin 0. -/
def histSample (s : State) : State :=
  let s := advance ((s.shp.lastSample / 1000 + 1) * 1000) s
  let c := s.regs.shpCfg
  let s := { s with shp := { s.shp with lastSample := now s } }
  if !bit c.toNat 0 then s
  else
    let dUnit := 2 ^ wfield c 1 5
    let tUnit := 2 ^ wfield c 6 5
    let age (t : Nat) : Nat := (now s - t) / tUnit
    let s := { s with shp := { s.shp with samples := s.shp.samples + 1 } }
    let s := s.shp.ports.foldl (fun s p => p.2.queues.foldl (fun s q =>
      match q.2.frames with
      | [] => s
      | f :: _ =>
        countHist (p.1, q.1, 1) (age f.at_) (countHist (p.1, q.1, 0) (sumN (q.2.frames.map (·.len)) / dUnit) s)) s) s
    s.shp.cls.foldl (fun s c => match c.2 with
      | [] => s
      | x :: _ => countHist (0, 64 + c.1, 1) (age x.tArr) (countHist (0, 64 + c.1, 0) c.2.length s)) s

/-- HIST_SAMPLE. -/
def execHistSample (s : State) : Host.Outcome State Fault Refusal := run histSample s

/-- The bins of a histogram. -/
def histBins (s : State) (port q kind : Nat) : List Nat :=
  if port > 32 || q > 67 || (q > 63 && port ≠ 0) then emptyBins
  else
    let h := findD (port, q, kind) s.shp.hist emptyBins
    (h.set 0 (s.shp.samples - sumN (h.drop 1))).map fun n => sat n 32

/-- A write of SHP_HIST_SEL takes a snapshot. -/
def histSelect (acc : Port) (val : Word) (s : State) : State :=
  let v := val.toNat % 2 ^ 14
  modAcc acc (fun a => { a with histSel := v, histSnap := histBins s (field v 0 6) (field v 6 7) (field v 13 1) }) s

/-- SHP_HIST_SEL. -/
def execShpHistSel (acc : Port) (val : Word) (s : State) : Host.Outcome State Fault Refusal :=
  run (gateWrite acc 0x700058 (histSelect acc val)) s

/-- CLEAR_COUNTS of SHP_CTRL. -/
def shpClear (s : State) : State :=
  { s with shp := { s.shp with
    meters := s.shp.meters.map fun m => (m.1, { m.2 with green := 0, yellow := 0, yRef := 0, red := 0 }),
    ports := s.shp.ports.map fun p =>
      (p.1, { p.2 with overruns := 0, queues := p.2.queues.map fun q => (q.1, { q.2 with lost := 0 }) }) } }

/-- SHP_CLEAR_COUNTS. -/
def execShpClearCounts (acc : Port) (s : State) : Host.Outcome State Fault Refusal := run (gateWrite acc 0x700008 shpClear) s

/-- CLEAR_HIST. -/
def histClear (s : State) : State := { s with shp := { s.shp with hist := [], samples := 0 } }

/-- CLEAR_HIST of SHP_CTRL. -/
def execClearHist (acc : Port) (s : State) : Host.Outcome State Fault Refusal := run (gateWrite acc 0x700008 histClear) s

end Sys2Proof.Machine
end

