-- ==== Sys2Proof/Machine/Welt.lean ====
section
/-!
DEFINITION. Sys2Proof/Machine/Welt.lean: the fabric's commands but for flits and responses: training (R307 to R309), link
keys (R408), forwarding (R315), requests at their home (R320, R321, R325), time-outs (R323) and notices (R328).
-/
namespace Sys2Proof.Machine
open Sys2Proof

/-! ### Enabling (R308, R329) -/

/-- WLT_ENABLE is written. -/
def writeWltEnable (val : Word) (s : State) : State :=
  applyEnable { s with regs := { s.regs with wltEnable := BitVec.ofNat 64 (val.toNat % 2 ^ 32) } }

/-- WLT_ENABLE. -/
def execWltEnable (val : Word) (s : State) : Host.Outcome State Fault Refusal :=
  run (gateWrite .owner 0x800000 (writeWltEnable val)) s

/-! ### Training (R308, R309) -/

/-- A link enters a state now. -/
def enterLink (l st : Nat) (s : State) : State := modLink l (fun k => { k with st := st, since := now s }) s

/-- Lanes lock on a link in SIGNAL: all four, or L0–L1 or L2–L3 alone where DEGRADE_OK is 1. -/
def lanesLocked (l mask : Nat) (s : State) : State :=
  if (linkOf s l).st ≠ 1 then s
  else if mask = 15 then enterLink l 2 (modLink l (fun k => { k with lanes := 15 }) s)
  else if (mask = 3 || mask = 12) && bit s.regs.wltCfg.toNat 44 then
    let s := enterLink l 2 (modLink l (fun k => { k with lanes := mask, reason := 11 }) s)
    logAll 1 4 (unitLink l) 0x0502 0 s false
  else s

/-- LANE_LOCK. -/
def execLaneLock (link : Nat) (mask : Nat) (s : State) : Host.Outcome State Fault Refusal := runOn (link < 32) (lanesLocked link mask) s

/-- A time limit of a link's state passes: DOWN. -/
def linkTimeout (l st ns : Nat) (reason : Option Nat) (ev : Bool) (s : State) : State :=
  if (linkOf s l).st = st then linkDown l reason ev (advance ((linkOf s l).since + ns) s) else s

/-- SIGNAL_TIMEOUT. -/
def execSignalTimeout (link : Nat) (s : State) : Host.Outcome State Fault Refusal :=
  runOn (link < 32) (linkTimeout link 1 100000000 (some 1) false) s

/-- ALIGN_DONE. -/
def execAlignDone (link : Nat) (s : State) : Host.Outcome State Fault Refusal :=
  runOn (link < 32) (fun s => if (linkOf s link).st = 2 then enterLink link 3 s else s) s

/-- ALIGN_TIMEOUT. -/
def execAlignTimeout (link : Nat) (s : State) : Host.Outcome State Fault Refusal :=
  runOn (link < 32) (linkTimeout link 2 10000000 (some 2) true) s

/-- PARAM_TIMEOUT: no valid TRAIN; the last reason stands. -/
def execParamTimeout (link : Nat) (s : State) : Host.Outcome State Fault Refusal :=
  runOn (link < 32) (linkTimeout link 3 10000000 none false) s

/-- Whether LINKS[4] asks for encryption (R38). -/
def linkCrypt (s : State) (l : Nat) : Bool := bit ((topo s).links.getD l 0) 4

/-- SEED_CHECK of R307. -/
def seedCheck (s : State) : Nat := leAt (sha256 (le (seed s 1).toNat 8 ++ le (seed s 2).toNat 8)) 0 4

/-- This module's TRAIN on a link (R307). -/
def trainMsg (s : State) (l : Nat) : TrainMsg :=
  let t := topo s
  { versions := [0x48], laneMask := (linkOf s l).lanes, node := t.node, coords := t.coords, link := l, direction := linkDir s l,
    flags := placeB (linkCrypt s l) 0 + placeB (nodeState s = 1) 1, kind := t.kind, seedCheck := seedCheck s, dims := t.dims,
    incarnation := s.rom.incarnation }

/-- TRAIN_SEND: every 1 µs in PARAM. -/
def execTrainSend (link : Nat) (s : State) : Host.Outcome State Fault Refusal :=
  runOn (link < 32) (fun s =>
    if (linkOf s link).st = 3 then sendControl link (.train (ctlHdr s link) (trainMsg s link)) s else s) s

/-- The opposite of a direction entry. -/
def oppositeDir (d : Nat) : Nat := if d % 2 = 1 then d + 1 else d - 1

/-- Coordinates moved one step along a direction entry. -/
def stepCoords (t : Topology) (dir : Nat) : List Nat :=
  let d := (dir - 1) / 2
  let n := max 1 (t.dims.getD d 1)
  let c := t.coords.getD d 0
  t.coords.set d (if dir % 2 = 1 then (c + 1) % n else (c + n - 1) % n)

/-- The first check of R309 that a peer's TRAIN fails. -/
def trainFails (s : State) (l : Nat) (t : TrainMsg) : Option Nat :=
  let me := topo s
  if !t.versions.any versionOk then some 3
  else if t.seedCheck ≠ seedCheck s then some 4
  else if t.kind ≠ me.kind || t.dims ≠ me.dims || t.node = me.node then some 5
  else if t.direction ≠ oppositeDir (linkDir s l) || t.coords ≠ stepCoords me (linkDir s l) then some 5
  else if bit t.flags 0 ≠ linkCrypt s l then some 6
  else none

/-! ### Keys (R408) -/

/-- An end begins the next KEY_SEQ: it sends its NONCE. -/
def beginKey (l : Nat) (s : State) : State :=
  if (linkOf s l).myNonce.isSome then s
  else
    let (n, s) := freshBytes 32 s
    let s := modLink l (fun k => { k with myNonce := some n, nonceAt := now s, peerNonce := none, confirmSent := false,
                                          confirmGot := false, newKey := none }) s
    sendControl l (.key (ctlHdr s l) { step := 1, keySeq := (linkOf s l).keySeq + 1, nonce := n }) s

/-- The direction bit of an end (R306): 0 on the end of lower node number. -/
def directionBit (own peer : Nat) : Nat := if own < peer then 0 else 1

/-- The link key and the confirm key from both nonces. -/
def linkKeys (base : Bytes) (own ownLink : Nat) (mine : Bytes) (peer peerLink : Nat) (theirs : Bytes) (sq : Nat) : Bytes × Bytes :=
  let lo := own < peer
  let info := ascii "YLKS" ++ le (min own peer) 2 ++ le (max own peer) 2 ++ le (if lo then ownLink else peerLink) 1 ++
    le (if lo then peerLink else ownLink) 1 ++ le sq 4 ++ (if lo then mine ++ theirs else theirs ++ mine)
  let k := kdf base info 64
  (k.take 32, k.drop 32)

/-- The TAG of a CONFIRM sent by the end with direction bit `d`. -/
def confirmTag (ck : Bytes) (d sq : Nat) : Bytes := (hmac ck (ascii "YCONFIRM" ++ le d 1 ++ le sq 4)).take 16

/-- With both nonces held, the keys are derived and CONFIRM is sent. -/
def deriveKey (l : Nat) (s : State) : State :=
  let k := linkOf s l
  match k.myNonce, k.peerNonce, linkBase? s with
  | some m, some p, some base =>
    if k.newKey.isSome then s
    else
      let me := selfNode s
      let sq := k.keySeq + 1
      let ks := linkKeys base me l m k.peerNode k.peerLink p sq
      let s := modLink l (fun k => { k with newKey := some ks, confirmSent := true }) s
      sendControl l (.key (ctlHdr s l) { step := 2, keySeq := sq, nonce := zeros 32, tag := confirmTag ks.2 (directionBit me k.peerNode) sq }) s
  | _, _, _ => s

/-- The key is in force at both ends once the CONFIRM has left and the peer's has come. -/
def keyDone (l : Nat) (s : State) : State :=
  let k := linkOf s l
  match k.newKey with
  | none => s
  | some ks =>
    if k.confirmGot && k.txKey = some ks.1 then
      let s := modLink l (fun k => { k with
        keySeq := k.keySeq + 1, keyStart := k.txSeq, myNonce := none, peerNonce := none, confirmSent := false,
        confirmGot := false, newKey := none }) s
      if k.st = 4 then bringUp l s else s
    else s

/-- A KEY frame arrives. -/
def keyArrives (l : Nat) (m : KeyMsg) (s : State) : State :=
  let k := linkOf s l
  if !(k.st = 4 || (k.st = 5 && k.encrypted)) || m.keySeq ≠ k.keySeq + 1 then s
  else match m.step with
    | 1 => deriveKey l (modLink l (fun k => { k with peerNonce := some m.nonce }) (beginKey l s))
    | 2 =>
      match k.newKey with
      | none => s
      | some ks =>
        if m.tag = confirmTag ks.2 (directionBit k.peerNode (selfNode s)) m.keySeq then
          keyDone l (modLink l (fun k => { k with confirmGot := true, rxKey := some ks.1 }) s)
        else linkDown l (some 7) (k.st = 5) s
    | _ => s

/-- KEY. -/
def execKey (link : Nat) (k : KeyMsg) (s : State) : Host.Outcome State Fault Refusal := runOn (link < 32) (keyArrives link k) s

/-- A peer's TRAIN in PARAM: the first check that fails takes the link DOWN; else KEY, or UP (R308). Without a deployment
secret an encrypted link goes DOWN (R407). -/
def trainArrives (l : Nat) (t : TrainMsg) (s : State) : State :=
  if (linkOf s l).st ≠ 3 then s
  else match trainFails s l t with
    | some r => linkDown l (some r) (r = 3) s
    | none =>
      let s := modLink l (fun k => { k with version := 0x48, peerNode := t.node, peerLink := t.link, encrypted := linkCrypt s l }) s
      if linkCrypt s l then
        if (linkBase? s).isNone then linkDown l (some 7) false s else beginKey l (enterLink l 4 s)
      else bringUp l s

/-- TRAIN. -/
def execTrain (link : Nat) (t : TrainMsg) (s : State) : Host.Outcome State Fault Refusal := runOn (link < 32) (trainArrives link t) s

/-- No CONFIRM within 50 ms of the NONCE. -/
def confirmTimeout (l : Nat) (s : State) : State :=
  let k := linkOf s l
  if k.myNonce.isSome && !k.confirmGot then linkDown l (some 7) (k.st = 5) (advance (k.nonceAt + 50000000) s) else s

/-- KEY_CONFIRM_TIMEOUT. -/
def execKeyConfirmTimeout (link : Nat) (s : State) : Host.Outcome State Fault Refusal := runOn (link < 32) (confirmTimeout link) s

/-- Data flits sent since the current key took effect. -/
def sinceKey (k : Link) : Nat := (k.txSeq + 2 ^ 48 - k.keyStart % 2 ^ 48) % 2 ^ 48

/-- REKEY_START: FLIT_SEQ has advanced 2^39 under the current key. -/
def execRekeyStart (link : Nat) (s : State) : Host.Outcome State Fault Refusal :=
  runOn (link < 32) (fun s =>
    let k := linkOf s link
    if k.st = 5 && k.encrypted && sinceKey k ≥ 2 ^ 39 then beginKey link s else s) s

/-- REKEY_DEADLINE: the new key is not in force at 2^40. -/
def execRekeyDeadline (link : Nat) (s : State) : Host.Outcome State Fault Refusal :=
  runOn (link < 32) (fun s =>
    let k := linkOf s link
    if k.st = 5 && k.encrypted && sinceKey k ≥ 2 ^ 40 then linkDown link (some 7) true s else s) s

/-! ### Losses (R308) -/

/-- LANE_LOCK_LOSS: lane lock is lost on an UP link, or the peer gives notice that its end is DOWN (R308, log entry 137). -/
def execLaneLockLoss (loss : LinkLoss) (s : State) : Host.Outcome State Fault Refusal :=
  runOn (loss.link < 32) (fun s =>
    if linkUp s loss.link then linkDown loss.link (some (if loss.peer then 10 else 11)) true s else s) s

/-- A second's codewords: more than FEC_DOWN uncorrectable ones take an UP link DOWN. -/
def fecSecond (l corrected uncorrected : Nat) (s : State) : State :=
  let s := modLink l (fun k => { k with fecCorrected := sat (k.fecCorrected + corrected) 32,
                                        uncorrected := sat (k.uncorrected + uncorrected) 16 }) s
  if linkUp s l && uncorrected > wfield s.regs.wltCfg 18 16 then linkDown l (some 9) true s else s

/-- FEC_SECOND. -/
def execFecSecond (link : Nat) (corrected : Nat) (uncorrected : Nat) (s : State) : Host.Outcome State Fault Refusal :=
  runOn (link < 32) (fecSecond link corrected uncorrected) s

/-- RETRAIN_MS has passed in DOWN. -/
def retrain (l : Nat) (s : State) : State :=
  let k := linkOf s l
  if k.st = 6 && linkMay s l then
    let s := advance (k.since + max 1 (wfield s.regs.wltCfg 34 10) * 1000000) s
    modLink l (fun k => { k.fresh with st := 1, since := now s, retrains := sat (k.retrains + 1) 16 }) s
  else s

/-- RETRAIN_TIMER. -/
def execRetrainTimer (link : Nat) (s : State) : Host.Outcome State Fault Refusal := runOn (link < 32) (retrain link) s

/-- RETRAIN of WLT_CTRL: the selected link goes DOWN with reason PEER. -/
def retrainSelected (acc : Port) (s : State) : State :=
  let l := (accRegs s acc).linkSel
  let st := (linkOf s l).st
  if st = 0 || st = 6 then s else linkDown l (some 10) (st = 5) s

/-- WLT_RETRAIN. -/
def execWltRetrain (acc : Port) (s : State) : Host.Outcome State Fault Refusal :=
  run (gateWrite acc 0x800070 (retrainSelected acc)) s

/-- CLEAR_COUNTS of WLT_CTRL (R339). -/
def wltClear (s : State) : State :=
  { s with wlt := { s.wlt with
    duplicates := 0, gaps := 0, resends := 0, dead := 0, stale := 0,
    links := s.wlt.links.map fun k =>
      (k.1, { k.2 with fecCorrected := 0, replays := 0, uncorrected := 0, forwarded := 0, discarded := 0 }) } }

/-- WLT_CLEAR_COUNTS. -/
def execWltClearCounts (acc : Port) (s : State) : Host.Outcome State Fault Refusal := run (gateWrite acc 0x800070 wltClear) s

/-! ### Forwarding (R315) -/

/-- A frame for another node: it takes up the link's receive buffer until it leaves on another (R312, R315). -/
def forward (l : Nat) (f : Frame) (s : State) : State :=
  if isControl f || (frameHdr f).dest = selfNode s then s else routeFrame { inl := some l, held := some (bufferOf l f) } false f s

/-- FORWARD_FRAME. -/
def execForwardFrame (link : Nat) (f : Frame) (s : State) : Host.Outcome State Fault Refusal := runOn (link < 32) (onFabric (forward link f)) s

/-! ### Requests at their home (R320, R321, R325) -/

/-- A request of an operation reaches this module as its home; for another node it is forwarded. -/
def requestArrives (l op : Nat) (r : Request) (s : State) : State :=
  let r := { r with op := op }
  if r.hdr.dest ≠ selfNode s then forward l (.req r) s else (homeRequest l r (owe l (.req r) s)).2

/-- LOAD. -/
def execLoad (link : Nat) (r : Request) (s : State) : Host.Outcome State Fault Refusal := runOn (link < 32) (onFabric (requestArrives link 0x01 r)) s

/-- STORE. -/
def execStore (link : Nat) (r : Request) (s : State) : Host.Outcome State Fault Refusal := runOn (link < 32) (onFabric (requestArrives link 0x02 r)) s

/-- FADD. -/
def execFadd (link : Nat) (r : Request) (s : State) : Host.Outcome State Fault Refusal := runOn (link < 32) (onFabric (requestArrives link 0x10 r)) s

/-- SWAP. -/
def execSwap (link : Nat) (r : Request) (s : State) : Host.Outcome State Fault Refusal := runOn (link < 32) (onFabric (requestArrives link 0x11 r)) s

/-- CAS. -/
def execCas (link : Nat) (r : Request) (s : State) : Host.Outcome State Fault Refusal := runOn (link < 32) (onFabric (requestArrives link 0x12 r)) s

/-- FAND. -/
def execFand (link : Nat) (r : Request) (s : State) : Host.Outcome State Fault Refusal := runOn (link < 32) (onFabric (requestArrives link 0x13 r)) s

/-- FOR. -/
def execForOp (link : Nat) (r : Request) (s : State) : Host.Outcome State Fault Refusal := runOn (link < 32) (onFabric (requestArrives link 0x14 r)) s

/-- FXOR. -/
def execFxor (link : Nat) (r : Request) (s : State) : Host.Outcome State Fault Refusal := runOn (link < 32) (onFabric (requestArrives link 0x15 r)) s

/-- Twenty milliseconds after it was stored, an atomic's result is freed (R321). -/
def onceExpired (node stream sq : Nat) (s : State) : State :=
  let same (x : OnceRes) : Bool := x.node = node && x.stream = stream && x.seq = sq
  match s.wlt.once.find? same with
  | none => s
  | some x =>
    let s := advance (x.at_ + 20000000) s
    { s with wlt := { s.wlt with once := s.wlt.once.filter fun y => !same y } }

/-- ONCE_RESULT_EXPIRE. -/
def execOnceResultExpire (node : Nat) (stream : Nat) (sq : Nat) (s : State) : Host.Outcome State Fault Refusal :=
  run (onceExpired node stream sq) s

/-! ### Time-outs and notices -/

/-- No response within RESP_TIMEOUT_US: the request is sent again, until 10 ms after its first send (R323). -/
def respTimedOut (tag : Nat) (s : State) : State :=
  match s.wlt.outst.find? (·.req.tag = tag) with
  | none => s
  | some o =>
    let s := advance (o.last + respTimeout s) s
    if now s < o.first + 10000000 then resend [o] s else s

/-- RESP_TIMEOUT. -/
def execRespTimeout (tag : Nat) (s : State) : Host.Outcome State Fault Refusal := run (respTimedOut tag) s

/-- A NODE_STATE whose sequence has not been seen is recorded and passed on (R328). -/
def noticeArrives (l node sq : Nat) (s : State) : State :=
  let seen := match find? node s.wlt.states with | some n => decide (sq ≤ n) | none => false
  if seen || node = selfNode s then s
  else
    let s := { s with wlt := { s.wlt with states := putN node sq s.wlt.states } }
    ((upLinks s).filter (· ≠ l)).foldl (fun s k => sendControl k (.nodeState (ctlHdr s k) node sq) s) s

/-- A module that leaves service sends NODE_STATE on every UP link (R328). -/
def sendNotice (s : State) : State :=
  let sq := s.wlt.stateSeq + 1
  let s := { s with wlt := { s.wlt with stateSeq := sq } }
  (upLinks s).foldl (fun s k => sendControl k (.nodeState (ctlHdr s k) (selfNode s) sq) s) s

end Sys2Proof.Machine
end

