-- ==== Sys2Proof/Machine/Lace.lean ====
section
/-!
DEFINITION. Sys2Proof/Machine/Lace.lean: the lace protocol (R340 to R372): maps proposed, committed and applied, the
cobbler's lease and elections, teardown and recomposition, location records and composition requests.
-/
namespace Sys2Proof.Machine
open Sys2Proof

/-! ### Members and messages -/

/-- The voters of a map, in map order. -/
def voters (m : LaceMap) : List Nat := (m.members.filter fun x => bit x.roles 3).map (·.node)

/-- The nodes of a map. -/
def nodesOf (m : LaceMap) : List Nat := m.members.map (·.node)

/-- Whether some nodes hold a quorum of some voters (R347). -/
def quorum (vs acc : List Nat) : Bool := vs.length / 2 + 1 ≤ (vs.filter acc.contains).length

/-- Send a lace message to several nodes, this module left out. -/
def laceAll (nodes : List Nat) (ltype : Nat) (h : LaceHdr) (payload : Bytes) (s : State) : State :=
  (nodes.filter (· ≠ selfNode s)).foldl (fun s n => sendLace n ltype h payload s) s

/-- Send a long payload in parts of 4,064 bytes (R346). -/
def laceParts (nodes : List Nat) (ltype : Nat) (h : LaceHdr) (b : Bytes) (s : State) : State :=
  let n := max 1 (ceilDiv b.length 4064)
  (List.range n).foldl (fun s i => laceAll nodes ltype { h with part := i, parts := n } (slice b (4064 * i) 4064) s) s

/-- Whether this module is a job's cobbler and holds its lease (R347). -/
def leads (s : State) (j : Job) : Bool := j.map.cobbler = selfNode s && j.hasLease && now s < j.leaseEnd

/-- A job is a member's while its map is FORMING, ACTIVE or TORN_DOWN. -/
def Job.live (j : Job) : Bool := 1 ≤ j.map.state && j.map.state ≤ 3

/-- 7/8 of LEASE_MS, in ns. -/
def leaseNs (m : LaceMap) : Nat := m.leaseMs * 875000

/-- Change the composition unit's jobs list: a job is put in or taken out. -/
def setJob (n : Nat) (j : Option Job) (s : State) : State :=
  { s with map := { s.map with jobs := match j with | some x => putN n x s.map.jobs | none => erase n s.map.jobs } }

/-! ### Results of composition requests (R370) -/

/-- The result of an accessor's request. -/
def setResult (acc : Port) (code reason job epoch : Nat) (s : State) : State :=
  modAcc acc (fun a => { a with reqCode := code, reqReason := reason, reqJob := job, reqEpoch := epoch }) s

/-- Every accessor's request for a job that is PENDING has its result. -/
def settlePending (job code reason epoch : Nat) (s : State) : State :=
  let f (p : Port × AccRegs) : Port × AccRegs :=
    if p.2.reqCode = 9 && p.2.reqJob = job then (p.1, { p.2 with reqCode := code, reqReason := reason, reqEpoch := epoch }) else p
  { s with accs := s.accs.map f }

/-! ### Location records (R352, R353) -/

/-- The records of a job that lie in slots moved to a node, as a record list: kept ones and this module's own sessions. -/
def recordsFor (s : State) (j : Job) (old : LaceMap) (node : Nat) : List LocRec :=
  let moved (h : Word) : Bool := homeNode s old h = selfNode s && homeNode s j.map h = node
  let own := (s.ses.table.filter fun p => p.2.job = some j.map.job && p.2.e.state ≠ .free && p.2.e.state ≠ .ash).map fun p =>
    ({ handle := p.2.e.handle, owner := selfNode s, epoch := p.2.e.ownerEpoch } : LocRec)
  (j.locRecs ++ own).filter fun r => moved r.handle

/-- Send records to a node, at most 127 a message; the last message holds fewer, so that it ends the handover. -/
def sendRecords (job : Job) (node : Nat) (rs : List LocRec) (s : State) : State :=
  (List.range (rs.length / 127 + 1)).foldl (fun s i =>
    sendLace node 13 (ownHdr job) (((rs.drop (127 * i)).take 127).flatMap locBytes) s) s

/-- A member registers every session it holds of a job with its slot home (R352, R363). -/
def registerAll (job : Nat) (s : State) : State :=
  s.ses.table.foldl (fun s p =>
    if p.2.job = some job && p.2.e.state ≠ .free && p.2.e.state ≠ .ash then
      locate p.2.e.handle p.2.e.ownerEpoch (.lace 13) (some job) s
    else s) s

/-- Report every SUSPECT copy of a job to its slot home (R363, R66). -/
def reportSuspects (job : Nat) (s : State) : State :=
  s.ses.table.foldl (fun s p => if p.2.job = some job && p.2.e.state = .suspect then reportSuspect p.1 s else s) s

/-- A member has registered everything; with the last one, this module's own restore begins (R363). -/
def registeredBy (job node : Nat) (s : State) : State :=
  match job? s job with
  | none => s
  | some j =>
    let rs := if j.registered.contains node then j.registered else j.registered ++ [node]
    let s := modJob job (fun j => { j with registered := rs }) s
    if !j.registered.contains node && (nodesOf j.map).all rs.contains then
      oweRestore job s
    else s

/-! ### Applying a map (R351) -/

/-- The sessions of a job stay with this module outside any job. -/
def releaseSessions (job : Nat) (s : State) : State :=
  { s with ses := { s.ses with table := s.ses.table.map fun p => if p.2.job = some job then (p.1, { p.2 with job := none }) else p } }

/-- Sessions whose stripe lay in a pool that a new map does not keep unchanged are lost here (R361). -/
def dropPools (job : Nat) (old new : LaceMap) (s : State) : State :=
  let place (m : LaceMap) (p : Pool) : List (Nat × Nat) := p.members.map fun e => ((m.members.getD e.1 default).node, e.2.2.2)
  let kept (p : Pool) : Bool := new.pools.any fun q => q.id = p.id && q.units = p.units && place new q = place old p
  let gone := (old.pools.filter fun p => p.kind = 0 && !kept p).map (·.id)
  s.ses.table.foldl (fun s p =>
    match p.2.desc with
    | some d => if p.2.job = some job && d.tier = 3 && gone.contains (field d.addr 48 12) then loseSession p.1 s else s
    | none => s) s

/-- The nodes that were home of slots that a new map gives this module (R355). -/
def formerHomes (s : State) (old new : LaceMap) : List Nat :=
  let node (m : LaceMap) (i : Nat) : Nat := (m.members.getD i default).node
  (((old.slots.zip new.slots).filter fun x => node new x.2 = selfNode s && node old x.1 ≠ selfNode s).map fun x => node old x.1).eraseDups

/-- The nodes that are home under a new map of slots that were this module's. -/
def latterHomes (s : State) (old new : LaceMap) : List Nat :=
  let node (m : LaceMap) (i : Nat) : Nat := (m.members.getD i default).node
  (((old.slots.zip new.slots).filter fun x => node old x.1 = selfNode s && node new x.2 ≠ selfNode s).map fun x => node new x.2).eraseDups

/-- A member applies a committed map at once (R351, R363). -/
def applyMap (m : LaceMap) (s : State) : State :=
  let n := m.job
  let j := (job? s n).getD { map := { job := n } }
  let old := if j.live then some j.map else none
  let wasActive := match old with | some o => decide (o.state = 2) | none => false
  let wasDown := match old with | some o => decide (o.state ≠ 2) | none => false
  let hands := match old with | some o => if wasActive && m.state = 2 then formerHomes s o m else [] | none => []
  let own := m.members.any (·.node = selfNode s)
  let x : Job := { j with
    map := m, prev := if wasActive then old else none, commitAt := now s, drainOn := wasActive, removed := !own,
    term := max j.term m.term, accepted := none, proposal := none, candidate := false, inMaps := [],
    dead := if m.state = 2 then [] else j.dead, formDue := now s + m.formMs * 1000000, registered := [], forced := false,
    older := if wasActive then (j.older.filter fun o => now s < o.2) ++ (if j.drainOn then j.prev.toList else []).map fun o => (o, j.commitAt + j.map.drainUs * 1000)
             else [],
    hbSeq := if m.cobbler = selfNode s then j.hbSeq else 0, hbTimes := if m.cobbler = selfNode s then j.hbTimes else [],
    hbGot := if m.cobbler = selfNode s then (nodesOf m).map fun n => (n, findD n j.hbGot j.hbSeq) else [],
    handover := hands.filter fun h => !j.handed.contains (h, m.epoch), handed := [], lostCount := 0,
    lastAck := if old.isNone then now s else j.lastAck }
  let s := setJob n (some x) s
  let s := { s with map := { s.map with commits := sat (s.map.commits + 1) 16 },
                    wlt := { s.wlt with stopped := if m.state ≤ 2 then s.wlt.stopped.filter (· ≠ n) else s.wlt.stopped } }
  let s := match old with
    | some o => if wasDown then dropPools n o m s else s
    | none => s
  let s := match old with
    | some o =>
      if wasActive && m.state = 2 then (latterHomes s o m).foldl (fun s h => sendRecords x h (recordsFor s x o h) s) s else s
    | none => s
  let s := settlePending n 1 0 m.epoch s
  let s := if m.state = 4 then releaseSessions n s else s
  let s := if m.state = 2 && wasDown then
      let s := registerAll n s
      let s := reportSuspects n s
      let s := laceAll (nodesOf m) 11 (ownHdr x) (le 3 1 ++ zeros 1 ++ le (selfNode s) 2 ++ le 0 4) s
      registeredBy n (selfNode s) s
    else s
  releaseCatchUp n s

/-! ### Teardown (R360, R361) -/

/-- The job's transactions end (R361). -/
def endJobTx (job : Nat) (s : State) : State :=
  let mine := s.wlt.outst.filter fun o => o.req.hdr.job = job
  let s := mine.foldl (fun s o => endTx o s) s
  unstall { s with wlt := { s.wlt with stalled := s.wlt.stalled.filter (fun x => x.1.hdr.job ≠ job),
                                       stopped := if s.wlt.stopped.contains job then s.wlt.stopped else s.wlt.stopped ++ [job] } }

/-- A copy that a teardown leaves SUSPECT is reported to its slot home (R57). A slot home keeps its own copies until the registrations
(log entry 130). -/
def tellHome (idx : Nat) (s : State) : State :=
  match sess? s idx with
  | none => s
  | some x =>
    match x.job.bind (job? s) with
    | none => s
    | some j =>
      let home := homeNode s j.map x.e.handle
      if home = selfNode s then s else sendSession home j.map.job (.suspectReport x.e.handle) s

/-- Moves of a job in flight (R361). -/
def endMoves (job : Nat) (s : State) : State :=
  s.ses.table.foldl (fun s p =>
    match p.2.mv with
    | some m =>
      if m.job = job && p.2.e.state = .moving then
        (if !m.source && !m.ackSent then freeEntry p.1 s else tellHome p.1 (suspendKeep p.1 s))
      else s
    | none => s) s

/-- OPENs of a job whose location record has not been acknowledged, and disputes of it, end with SESSION_UNAVAILABLE. -/
def endWaits (job : Nat) (s : State) : State :=
  let mine := s.map.openWait.filter fun w => (sess? s w.2.2).any fun x => x.job = some job
  let s := { s with map := { s.map with openWait := s.map.openWait.filter fun w => !mine.contains w } }
  let s := mine.foldl (fun s w => completeOp w.2.1 1 0x14 (freeEntry w.2.2 s) { handle := some 0 }) s
  let ds := s.ses.disputes.filter (·.job = job)
  let s := { s with ses := { s.ses with disputes := s.ses.disputes.filter (·.job ≠ job) } }
  (ds.flatMap (·.waiting)).foldl (fun s t => complete t.1 t.2 0x14 s) s

/-- A member applies a teardown of a job at once. -/
def applyTeardown (job epoch term : Nat) (s : State) : State :=
  match job? s job with
  | none => s
  | some _ =>
    let s := modJob job (fun j => { j with
      map := { j.map with state := 3, epoch := epoch, term := max term j.map.term }, prev := none, older := [], drainOn := false,
      term := max term j.term, proposal := none, accepted := none, candidate := false, inMaps := [], registered := [],
      handover := [], handed := [], locRecs := [] }) s
    let s := endJobTx job s
    let s := endMoves job s
    let s := endWaits job s
    let s := if s.ckp.job = job && s.ckp.st ≠ 0 && s.ckp.st ≤ 4 then ckpFail 0x63 s else s
    let s := if s.ckp.job = job && s.ckp.st = 5 then checkPlaced (modCkp (fun c => { c with unplaced := [] }) s) else s
    let s := settlePending job 1 0 epoch s
    let s := { s with map := { s.map with teardowns := sat (s.map.teardowns + 1) 16 } }
    logAll 2 7 (unitChip 0x40) 0x0504 (job + epoch % 2 ^ 48 * 65536) s

/-- A node is named among the dead of a job. -/
def nameDead (job : Nat) (nodes : List Nat) (s : State) : State :=
  modJob job (fun j => { j with dead := (j.dead ++ nodes).eraseDups }) s

/-- The cobbler tears a job down (R360); a job that is torn down counts the trigger. -/
def tearDown (job : Nat) (nodes : List Nat) (s : State) : State :=
  match job? s job with
  | none => s
  | some j =>
    if !leads s j then s
    else if j.map.state = 3 then modJob job (fun j => { j with triggers := j.triggers + 1 }) (nameDead job nodes s)
    else if j.map.state = 1 || j.map.state = 2 then
      let e := j.map.epoch + 1
      let m := { j.map with state := 3, epoch := e, term := j.term }
      let s := laceAll (nodesOf j.map) 12 { job := job, term := j.term, epoch := e } (mapHeader m) s
      nameDead job nodes (applyTeardown job e j.term s)
    else s

/-! ### Committing a map (R349, R350) -/

/-- The first reason for which this module refuses a map (R349). `term` is the proposer's. -/
def refuseReason (s : State) (m : LaceMap) (term : Nat) : Option Nat :=
  let j := job? s m.job
  let stale := match j with
    | some j => term < j.term || (j.live && m.epoch ≠ j.map.epoch + 1)
    | none => false
  let me := ownMember s m
  let bound (x : Member) : Bool := (List.range x.qpCount).all fun i =>
    (qpCfg? s (x.qpFirst + i)).any fun c => c.tenant = m.tenant &&
    match jobOfQp s (x.qpFirst + i) with | some k => k = m.job | none => true
  let others := (s.map.jobs.filter fun k => k.1 ≠ m.job && k.2.live).length
  if stale then some 1
  else if m.seedCheck ≠ slotSeedCheck s then some 2
  else match me with
    | none => none
    | some x => if !bound x then some 3 else if x.coords ≠ (topo s).coords then some 4 else if others ≥ 64 then some 5 else none

/-- The proposal's map is committed: COMMIT to the members of both maps, then applied here. -/
def commitProposal (job : Nat) (p : Proposal) (s : State) : State :=
  match job? s job with
  | none => s
  | some j =>
    let nodes := (nodesOf p.map ++ (if j.live then nodesOf j.map else [])).eraseDups
    let s := laceAll nodes 4 { job := job, term := p.map.term, epoch := p.map.epoch, mapId := mapIdOf p.map } [] s
    let s := match p.requester with | some a => setResult a 1 0 job (p.map.epoch % 2 ^ 40) s | none => s
    applyMap p.map s

/-- Whether a proposal has the agreement it needs. -/
def agreed (j : Job) (p : Proposal) : Bool :=
  if p.unanimous then (nodesOf p.map).all p.accepted.contains
  else quorum (voters j.map) p.accepted && (voters p.map = voters j.map || quorum (voters p.map) p.accepted)

/-- A proposal ends without a commit: FORMING is not left, a job whose FORMING or ACTIVE map was refused is logged or torn
down (R341). -/
def dropProposal (job code reason : Nat) (s : State) : State :=
  match job? s job with
  | none => s
  | some j =>
    match j.proposal with
    | none => s
    | some p =>
      let s := match p.requester with | some a => setResult a code reason job 0 s | none => s
      if j.map.state = 0 then setJob job none s
      else
        let s := modJob job (fun j => { j with proposal := none }) s
        if j.map.state = 1 then tearDown job [] s
        else if j.map.state = 3 then logAll 2 7 (unitChip 0x40) 0x0504 (job + j.map.epoch % 2 ^ 48 * 65536) s
        else s

/-- Commit a proposal that has its agreement; end one that can no longer get it. -/
def checkProposal (job : Nat) (s : State) : State :=
  match job? s job with
  | none => s
  | some j =>
    match j.proposal with
    | none => s
    | some p =>
      let no := p.refused.map (·.1)
      let hopeless (vs : List Nat) : Bool := !quorum vs (vs.filter fun v => !no.contains v)
      let lost := if p.unanimous then !no.isEmpty else hopeless (voters j.map) || hopeless (voters p.map)
      if agreed j p then commitProposal job p s
      else if lost then dropProposal job 4 ((p.refused.head?.map (·.2)).getD 0) s
      else s

/-- The proposer sends a map to every member of the old and the new map; it accepts or refuses as a member itself. -/
def propose (m : LaceMap) (unanimous : Bool) (requester : Option Port) (s : State) : State :=
  let n := m.job
  let j := (job? s n).getD { map := { job := n }, term := m.term }
  let r := if m.epoch ≥ 2 ^ 48 then some 1 else refuseReason s m m.term
  match r with
  | some why =>
    let s := if why = 5 then hit 31 s else s
    match requester with | some a => setResult a 4 why n 0 s | none => s
  | none =>
    let p : Proposal := { map := m, due := now s + m.formMs * 1000000, accepted := [selfNode s], unanimous := unanimous, requester := requester }
    let s := setJob n (some { j with proposal := some p }) s
    let nodes := (nodesOf m ++ (if j.live then nodesOf j.map else [])).eraseDups
    let s := laceParts nodes 1 { job := n, term := m.term, epoch := m.epoch, mapId := mapIdOf m } (mapBytes m) s
    checkProposal n s

/-- Collect a part of a long payload; with the last part, the whole, where it is the map or request of its MAP_ID. -/
def collectPart (ltype : Nat) (l : LaceHdr) (part : Bytes) (s : State) : Option Bytes × State :=
  let j := (job? s l.job).getD { map := { job := l.job } }
  let key := (ltype, l.sender, l.mapId)
  let ps := putN l.part part (findD key j.inMaps [])
  if ps.length < l.parts then (none, setJob l.job (some { j with inMaps := put key ps j.inMaps }) s)
  else
    let b := ps.flatMap (·.2)
    (some b, setJob l.job (some { j with inMaps := erase key j.inMaps }) s)

/-- A job of which nothing is committed and nothing is under way is forgotten. -/
def forgetEmpty (job : Nat) (s : State) : State :=
  match job? s job with
  | some j => if j.map.state = 0 && j.accepted.isNone && j.inMaps.isEmpty && j.proposal.isNone then setJob job none s else s
  | none => s

/-- The complete map that parts of a lace message carried: its VERSION is one that R5 accepts, and MAP_ID digests its bytes as they came,
reserved ones with them (R4, R346). -/
def mapOf (l : LaceHdr) (b : Bytes) : Option LaceMap :=
  let m := readMap b
  if versionOk (leAt b 0 1) && (sha256 b).take 8 = l.mapId && m.job = l.job then some m else none

/-- PROPOSE: with its last part the map is accepted, or refused with the first reason (R349). -/
def proposed (l : LaceHdr) (part : Bytes) (s : State) : State :=
  match collectPart 1 l part s with
  | (none, s) => s
  | (some b, s) =>
    match mapOf l b with
    | none => forgetEmpty l.job (noteVersion 0x40 b 0 s)
    | some m =>
      let own : LaceHdr := match job? s l.job with | some j => ownHdr j | none => { job := l.job }
      match refuseReason s m l.term with
      | some r => forgetEmpty l.job (sendLace l.sender 3 own (le r 1 ++ zeros 7) (if r = 5 then hit 31 s else s))
      | none =>
        let s := modJob l.job (fun j => { j with accepted := some (l.mapId, m), term := max j.term l.term }) s
        sendLace l.sender 2 { own with term := l.term } [] s

/-- PROPOSE. -/
def execPropose (l : LaceHdr) (part : Bytes) (s : State) : Host.Outcome State Fault Refusal := run (onFabric (proposed l part)) s

/-- ACCEPT: recorded; with the agreement, COMMIT (R349, R350). -/
def accepted (l : LaceHdr) (s : State) : State :=
  match job? s l.job with
  | none => s
  | some j =>
    match j.proposal with
    | none => s
    | some p =>
      let known := (nodesOf p.map ++ nodesOf j.map).contains l.sender
      if known && l.term = p.map.term && !p.accepted.contains l.sender then
        checkProposal l.job (modJob l.job (fun j => { j with proposal := some { p with accepted := p.accepted ++ [l.sender] } }) s)
      else s

/-- ACCEPT. -/
def execAccept (l : LaceHdr) (s : State) : Host.Outcome State Fault Refusal := run (onFabric (accepted l)) s

/-- REFUSE: one from a voter with a higher term ends the proposal and its term applies (R349). -/
def refused (l : LaceHdr) (reason : Nat) (s : State) : State :=
  match job? s l.job with
  | none => s
  | some j =>
    match j.proposal with
    | none => s
    | some p =>
      if (voters j.map ++ voters p.map).contains l.sender && l.term > j.term then
        dropProposal l.job 4 reason (modJob l.job (fun j => { j with term := l.term, hasLease := false }) s)
      else if p.refused.any (·.1 = l.sender) then s
      else checkProposal l.job (modJob l.job (fun j => { j with proposal := some { p with refused := p.refused ++ [(l.sender, reason)] } }) s)

/-- REFUSE. -/
def execRefuse (l : LaceHdr) (reason : Nat) (s : State) : Host.Outcome State Fault Refusal := run (onFabric (refused l reason)) s

/-- COMMIT: the accepted map of MAP_ID is applied; a member that does not hold it asks for it (R351, R364). -/
def committed (l : LaceHdr) (s : State) : State :=
  match job? s l.job with
  | none => s
  | some j =>
    match j.accepted with
    | some (id, m) =>
      if id = l.mapId && m.epoch = l.epoch && (!j.live || j.map.epoch < m.epoch) then applyMap m s
      else if l.epoch > j.map.epoch then sendLace l.sender 9 (ownHdr j) [] s
      else s
    | none => if l.epoch > j.map.epoch || j.map.state = 0 then sendLace l.sender 9 (ownHdr j) [] s else s

/-- COMMIT. -/
def execCommit (l : LaceHdr) (s : State) : Host.Outcome State Fault Refusal := run (onFabric (committed l)) s

/-! ### The cobbler's lease and elections (R347, R348) -/

/-- Whether a quorum of the voters has acknowledged a job's `k`-th heartbeat, this module counted in (R347). A voter's acknowledgements come
in the order of the heartbeats (R346), so its n-th one since it was last level is for the n-th heartbeat since (log entry 165). -/
def Job.heldBy (self : Nat) (j : Job) (k : Nat) : Bool := quorum (voters j.map) (self :: (j.hbGot.filter fun g => k ≤ g.2).map (·.1))

/-- The lease that the latest heartbeat acknowledged by a quorum gives. -/
def grantLease (job : Nat) (s : State) : State :=
  match job? s job with
  | none => s
  | some j =>
    match (j.hbTimes.filter fun h => j.heldBy (selfNode s) h.1).getLast? with
    | some h => modJob job (fun j => { j with leaseEnd := max j.leaseEnd (h.2 + leaseNs j.map), hasLease := true }) s
    | none => s

/-- HEARTBEAT_MS has passed: the cobbler sends HEARTBEAT to every member. -/
def heartbeatDue (job : Nat) (s : State) : State :=
  match job? s job with
  | none => s
  | some j =>
    if j.map.cobbler ≠ selfNode s || !j.live then s
    else
      let s := if j.hbSeq = 0 then s else advance (j.hbSent + j.map.hbMs * 1000000) s
      let live (h : Nat × Nat) : Bool := now s < h.2 + leaseNs j.map
      let s := modJob job (fun j => { j with
        hbSent := now s, hbSeq := j.hbSeq + 1, hbTimes := j.hbTimes.filter live ++ [(j.hbSeq + 1, now s)], lastAck := now s }) s
      grantLease job (laceAll (nodesOf j.map) 5 (ownHdr j) [] s)

/-- HEARTBEAT_TIMER. -/
def execHeartbeatTimer (job : Nat) (s : State) : Host.Outcome State Fault Refusal := run (heartbeatDue job) s

/-- HEARTBEAT: a voter acknowledges one of its term or a later one and adopts the term; a member that is behind asks for
the map. -/
def heartbeatIn (l : LaceHdr) (s : State) : State :=
  match job? s l.job with
  | none => s
  | some j =>
    if l.term < j.term then s
    else
      let s := modJob l.job (fun j => { j with term := l.term }) s
      let s := if (voters j.map).contains (selfNode s) then
          let s := modJob l.job (fun j => { j with lastAck := now s, candidate := false }) s
          sendLace l.sender 6 { ownHdr j with term := l.term } [] s
        else s
      if j.map.epoch < l.epoch then sendLace l.sender 9 { ownHdr j with term := l.term } [] s else s

/-- HEARTBEAT. -/
def execHeartbeat (l : LaceHdr) (s : State) : Host.Outcome State Fault Refusal := run (onFabric (heartbeatIn l)) s

/-- HEARTBEAT_ACK: with a quorum the lease runs on. -/
def heartbeatAcked (l : LaceHdr) (s : State) : State :=
  match job? s l.job with
  | none => s
  | some j =>
    if j.map.cobbler = selfNode s && l.term = j.term then
      grantLease l.job (modJob l.job (fun j => { j with
        hbGot := putN l.sender (min j.hbSeq (findD l.sender j.hbGot 0 + 1)) j.hbGot,
        heard := putN l.sender (now s) j.heard }) s)
    else s

/-- HEARTBEAT_ACK. -/
def execHeartbeatAck (l : LaceHdr) (s : State) : Host.Outcome State Fault Refusal := run (onFabric (heartbeatAcked l)) s

/-- The lease ends. -/
def leaseOver (job : Nat) (s : State) : State :=
  match job? s job with
  | none => s
  | some j => if j.hasLease then modJob job (fun j => { j with hasLease := false }) (advance j.leaseEnd s) else s

/-- COBBLER_LEASE_EXPIRY. -/
def execCobblerLeaseExpiry (job : Nat) (s : State) : Host.Outcome State Fault Refusal := run (leaseOver job) s

/-- A candidate with a quorum is cobbler: it commits the same map with COBBLER and TERM changed, a map in FORMING with every member's
agreement (R350). Its lease runs from when it
stood (log entry 25). -/
def winElection (job : Nat) (s : State) : State :=
  match job? s job with
  | none => s
  | some j =>
    if j.candidate && quorum (voters j.map) j.votes then
      let s := modJob job (fun j => { j with candidate := false, hasLease := true, leaseEnd := j.candAt + leaseNs j.map }) s
      propose { j.map with cobbler := selfNode s, term := j.term, epoch := j.map.epoch + 1 } (decide (j.map.state = 1)) none s
    else s

/-- LEASE_MS and the rank delay have passed without an acknowledged heartbeat: a voter stands with the next term. -/
def stand (job : Nat) (s : State) : State :=
  match job? s job with
  | none => s
  | some j =>
    let vs := voters j.map
    let me := selfNode s
    if !vs.contains me || !j.live || j.candidate || leads s j then s
    else
      let s := advance (j.lastAck + j.map.leaseMs * 1000000 + vs.idxOf me * 5000000) s
      let t := j.term + 1
      let s := modJob job (fun j => { j with term := t, votedTerm := t, candidate := true, votes := [me], candAt := now s }) s
      let s := { s with map := { s.map with elections := sat (s.map.elections + 1) 16 } }
      winElection job (laceAll vs 7 { ownHdr j with term := t } [] s)

/-- ELECTION_TIMEOUT. -/
def execElectionTimeout (job : Nat) (s : State) : Host.Outcome State Fault Refusal := run (stand job) s

/-- VOTE_REQUEST: granted once a term, by a voter that has heard no cobbler for LEASE_MS, to a candidate whose epoch is not
behind. -/
def voteAsked (l : LaceHdr) (s : State) : State :=
  match job? s l.job with
  | none => s
  | some j =>
    if !(voters j.map).contains (selfNode s) then s
    else
      let ok := l.term > j.votedTerm && l.term ≥ j.term && j.lastAck + j.map.leaseMs * 1000000 ≤ now s &&
        l.epoch ≥ j.map.epoch && !leads s j
      let s := if ok then modJob l.job (fun j => { j with votedTerm := l.term, term := l.term, candidate := false }) s else s
      sendLace l.sender 8 { ownHdr j with term := l.term } (le (if ok then 1 else 0) 1 ++ zeros 7) s

/-- VOTE_REQUEST. -/
def execVoteRequest (l : LaceHdr) (s : State) : Host.Outcome State Fault Refusal := run (onFabric (voteAsked l)) s

/-- VOTE: a granted one of the candidate's term counts. -/
def voteIn (l : LaceHdr) (granted : Bool) (s : State) : State :=
  match job? s l.job with
  | none => s
  | some j =>
    if j.candidate && granted && l.term = j.term && !j.votes.contains l.sender then
      winElection l.job (modJob l.job (fun j => { j with votes := j.votes ++ [l.sender] }) s)
    else s

/-- VOTE. -/
def execVote (l : LaceHdr) (granted : Bool) (s : State) : Host.Outcome State Fault Refusal := run (onFabric (voteIn l granted)) s

/-- Twenty milliseconds without a quorum: the candidate waits its rank delay and stands again. -/
def candidateOver (job : Nat) (s : State) : State :=
  match job? s job with
  | none => s
  | some j =>
    if j.candidate then
      let s := advance (j.candAt + 20000000) s
      modJob job (fun j => { j with candidate := false, lastAck := now s - j.map.leaseMs * 1000000 }) s
    else s

/-- CANDIDATE_TIMEOUT. -/
def execCandidateTimeout (job : Nat) (s : State) : Host.Outcome State Fault Refusal := run (candidateOver job) s

/-! ### SYNC (R347) -/

/-- SYNC_REQUEST: answered with the committed map. -/
def syncAsked (l : LaceHdr) (s : State) : State :=
  match job? s l.job with
  | none => s
  | some j =>
    if j.map.state = 0 then s
    else laceParts [l.sender] 10 { ownHdr j with mapId := mapIdOf j.map } (mapBytes j.map) s

/-- SYNC_REQUEST. -/
def execSyncRequest (l : LaceHdr) (s : State) : Host.Outcome State Fault Refusal := run (onFabric (syncAsked l)) s

/-- SYNC: with its last part, a map later than the committed one is applied. -/
def synced (l : LaceHdr) (part : Bytes) (s : State) : State :=
  match job? s l.job with
  | none => s
  | some _ =>
    match collectPart 10 l part s with
    | (none, s) => s
    | (some b, s) =>
      match mapOf l b, job? s l.job with
      | some m, some j =>
        if j.live && m.epoch ≤ j.map.epoch then s
        else if m.state = 3 && j.live then applyTeardown m.job m.epoch m.term s
        else applyMap m s
      | _, _ => noteVersion 0x40 b 0 s

/-- SYNC. -/
def execSync (l : LaceHdr) (part : Bytes) (s : State) : Host.Outcome State Fault Refusal := run (onFabric (synced l part)) s

/-! ### REPORT, TEARDOWN, MEMBER_SILENT (R360, R361, R363) -/

/-- REPORT: a dead target, sessions lost, which this module restores where it is their slot home (R434, log entry 176), or a member's
registration complete. -/
def reported (l : LaceHdr) (kind node count : Nat) (s : State) : State :=
  match kind with
  | 1 => tearDown l.job [node] s
  | 2 =>
    let s := modJob l.job (fun j => { j with lostCount := j.lostCount + count }) s
    if (job? s l.job).any (fun j => j.map.state = 2) then oweRestore l.job s else s
  | 3 => registeredBy l.job l.sender s
  | _ => s

/-- REPORT. -/
def execReport (l : LaceHdr) (kind : Nat) (node : Nat) (count : Nat) (s : State) : Host.Outcome State Fault Refusal :=
  run (onFabric (reported l kind node count)) s

/-- TEARDOWN from a cobbler whose term is not behind, at a later epoch. -/
def tornDown (l : LaceHdr) (hdr : Bytes) (s : State) : State :=
  match job? s l.job with
  | none => s
  | some j =>
    let m := readMapHeader hdr
    if j.live && l.term ≥ j.term && l.epoch > j.map.epoch && m.state = 3 then applyTeardown l.job l.epoch l.term s else s

/-- TEARDOWN. -/
def execTeardown (l : LaceHdr) (hdr : Bytes) (s : State) : Host.Outcome State Fault Refusal := run (onFabric (tornDown l hdr)) s

/-- A member is silent for MEMBER_TIMEOUT_MS. -/
def silent (job node : Nat) (s : State) : State :=
  match job? s job with
  | none => s
  | some j =>
    if j.map.cobbler = selfNode s && node ≠ selfNode s && (nodesOf j.map).contains node then
      let s := match find? node j.heard with
        | some t => advance (t + j.map.memberMs * 1000000) s
        | none => s
      tearDown job [node] s
    else s

/-- MEMBER_SILENT. -/
def execMemberSilent (job : Nat) (node : Nat) (s : State) : Host.Outcome State Fault Refusal := run (silent job node) s

/-- A NODE_STATE notice for a member makes its cobbler tear the job down (R360). -/
def noticeJobs (node : Nat) (s : State) : State :=
  s.map.jobs.foldl (fun s j => if (nodesOf j.2.map).contains node then tearDown j.1 [node] s else s) s

/-- A NODE_STATE arrives (R328, R360). -/
def nodeStateIn (link node sq : Nat) (s : State) : State :=
  let new := match find? node s.wlt.states with | some n => decide (n < sq) | none => true
  let s := noticeArrives link node sq s
  if new && node ≠ selfNode s then noticeJobs node s else s

/-- NODE_STATE. -/
def execNodeState (link : Nat) (node : Nat) (sq : Nat) (s : State) : Host.Outcome State Fault Refusal :=
  runOn (link < 32) (onFabric (nodeStateIn link node sq)) s

/-! ### LOCATION (R353) -/

/-- What a home does with one record. -/
def placeLoc (job sender : Nat) (r : LocRec) (s : State) : State :=
  match job? s job with
  | none => s
  | some j =>
    let others := j.locRecs.filter (·.handle ≠ r.handle)
    let own := (byHandle? s r.handle).bind fun p => if p.2.e.state ≠ .ash && p.2.job = some job then some p.2.e.ownerEpoch else none
    if r.epoch = 0 then
      modJob job (fun j => { j with locRecs := j.locRecs.filter fun x => !(x.handle = r.handle && x.owner = sender) }) s
    else if r.owner = selfNode s then modJob job (fun j => { j with locRecs := others }) s
    else
      let held := match j.locRecs.find? (·.handle = r.handle) with
        | some x => some (x.owner, x.epoch)
        | none => own.map fun e => (selfNode s, e)
      match held with
      | none =>
        if poolUsedBytes s + 32 > poolSize then hit 20 s
        else modJob job (fun j => { j with locRecs := others ++ [r] }) s
      | some (o, e) =>
        if r.epoch > e then modJob job (fun j => { j with locRecs := others ++ [r] }) s
        else if r.owner ≠ o then openDispute r.handle job s
        else s

/-- LOCATION: records from an owner or, after a commit, from a slot's old home; a message of fewer than 127 records ends a
handover. -/
def located (l : LaceHdr) (recs : List LocRec) (s : State) : State :=
  match job? s l.job with
  | none => s
  | some j =>
    if j.map.state ≠ 1 && j.map.state ≠ 2 then s
    else
      let s := recs.foldl (fun s r => placeLoc l.job l.sender r s) s
      if recs.length ≥ 127 then s
      else if l.epoch > j.map.epoch then modJob l.job (fun j => { j with handed := (l.sender, l.epoch) :: j.handed }) s
      else if l.epoch = j.map.epoch then modJob l.job (fun j => { j with handover := j.handover.filter (· ≠ l.sender) }) s
      else s

/-- LOCATION. -/
def execLocation (l : LaceHdr) (recs : List LocRec) (s : State) : Host.Outcome State Fault Refusal := run (onFabric (located l recs)) s

/-! ### Recomposition (R362) and time limits -/

/-- A pool over the members of another map: entries of members that are not there go. -/
def movePool (old new : List Member) (p : Pool) : Pool :=
  { p with members := p.members.filterMap fun e =>
      (new.findIdx? fun m => m.node = (old.getD e.1 default).node).map fun i => (i, e.2) }

/-- The FORMING map of a job that is torn down: without the members named dead (R362). -/
def formingMap (s : State) (j : Job) : LaceMap :=
  let ms := j.map.members.filter fun m => !j.dead.contains m.node
  let ps := (j.map.pools.map (movePool j.map.members ms)).filter fun p => !p.members.isEmpty
  { j.map with state := 1, epoch := j.map.epoch + 1, term := j.term, cobbler := selfNode s, members := ms, pools := ps,
               slots := slotTable (seed s 3) ms }

/-- The cobbler proposes the next map of a recomposition: FORMING after a teardown, then ACTIVE with the same members. -/
def recompose (job : Nat) (s : State) : State :=
  match job? s job with
  | none => s
  | some j =>
    if !leads s j || j.proposal.isSome then s
    else if j.map.state = 3 && (bit j.map.flags 0 || j.forced) then propose (formingMap s j) true none s
    else if j.map.state = 1 then propose { j.map with state := 2, epoch := j.map.epoch + 1, term := j.term } true none s
    else s

/-- RECOMPOSE_PROPOSE. -/
def execRecomposePropose (job : Nat) (s : State) : Host.Outcome State Fault Refusal := run (recompose job) s

/-- FORM_TIMEOUT_MS has passed since the FORMING commit: TORN_DOWN again. -/
def formOver (job : Nat) (s : State) : State :=
  match job? s job with
  | none => s
  | some j =>
    if j.map.state = 1 then tearDown job [] (advance j.formDue s)
    else if j.map.state = 3 then
      match j.proposal with
      | some p => dropProposal job 5 0 (advance p.due s)
      | none => s
    else s

/-- FORM_TIMEOUT. -/
def execFormTimeout (job : Nat) (s : State) : Host.Outcome State Fault Refusal := run (formOver job) s

/-- A proposal has not reached its agreement within FORM_TIMEOUT_MS: abandoned with TIMEOUT. A request passed to the cobbler
and not committed ends so too. -/
def proposalOver (job : Nat) (s : State) : State :=
  match (job? s job).bind (·.proposal) with
  | some p => dropProposal job 5 0 (advance p.due s)
  | none => settlePending job 5 0 0 s

/-- PROPOSAL_TIMEOUT. -/
def execProposalTimeout (job : Nat) (s : State) : Host.Outcome State Fault Refusal := run (proposalOver job) s

/-- The drain window of a commit ends: kept windows and records go, and a member that the map removed leaves the job
(R351). -/
def drainOver (job : Nat) (s : State) : State :=
  match job? s job with
  | none => s
  | some j =>
    if !j.drainOn && !j.removed then s
    else
      let s := advance (j.commitAt + j.map.drainUs * 1000) s
      let s := modJob job (fun j => { j with
        drainOn := false, prev := none, older := [], locRecs := j.locRecs.filter fun r => homeNode s j.map r.handle = selfNode s }) s
      if j.removed then setJob job none (releaseSessions job s) else s

/-- DRAIN_WINDOW_END. -/
def execDrainWindowEnd (job : Nat) (s : State) : Host.Outcome State Fault Refusal := run (drainOver job) s

/-! ### Composition requests (R359, R365) -/

/-- A composition request, read. -/
structure ComposeReq where
  op      : Nat
  job     : Nat
  flags   : Nat
  drainUs : Nat
  hbMs    : Nat
  leaseMs : Nat
  memberMs : Nat
  formMs  : Nat
  members : List Member
  pools   : List Pool
deriving DecidableEq, Repr

/-- Read a request; none where its VERSION, OP, JOB or length is not valid. -/
def readCompose (b : Bytes) : Option ComposeReq :=
  let n := leAt b 4 2
  let np := leAt b 6 1
  let (ps, _) := readPools np (b.drop (32 + 16 * n))
  let len := 32 + 16 * n + sumN (ps.map fun p => 16 + 16 * p.members.length)
  let op := leAt b 1 1
  if b.length < 32 || !versionOk (leAt b 0 1) || op = 0 || op > 5 || leAt b 2 2 = 0 || b.length < len then none
  else
    some { op := op, job := leAt b 2 2, flags := leAt b 7 1 % 4, drainUs := leAt b 8 4, hbMs := leAt b 12 1, leaseMs := leAt b 14 2,
           memberMs := leAt b 16 2, formMs := leAt b 18 2, members := (List.range n).map fun i => readMember (slice b (32 + 16 * i) 16),
           pools := ps }

/-- A value with the one that a request of 0 gives (R342). -/
def orDefault (d n : Nat) : Nat := if n = 0 then d else n

/-- Whether a list of numbers strictly rises. -/
def rising : List Nat → Bool
  | a :: b :: l => a < b && rising (b :: l)
  | _ => true

/-- Whether a map keeps the limits of R340 and the ranges of R342 to R344. -/
def mapOk (m : LaceMap) : Bool :=
  let vs := m.members.filter fun x => bit x.roles 3
  let memberOk (x : Member) : Bool :=
    (bit x.roles 0 || (x.qpCount = 0 && !bit x.roles 3)) && x.roles < 16 && x.mstate ≤ 1
  let entryOk (p : Pool) (e : Nat × Nat × Nat × Nat) : Bool :=
    match m.members[e.1]? with
    | some x => if p.kind = 0 then bit x.roles 1 && e.2.2.2 % 65536 = 0 && e.2.1 = 0 && e.2.2.1 = 0 else bit x.roles 2
    | none => false
  let poolOk (p : Pool) : Bool := p.kind ≤ 1 && 1 ≤ p.members.length && p.members.length ≤ 4096 &&
    rising (p.members.map (·.1)) && p.members.all (entryOk p)
  1 ≤ m.members.length && m.members.length ≤ 4096 && rising (nodesOf m) && m.members.all memberOk &&
  m.members.any (fun x => bit x.roles 0) && 1 ≤ vs.length && vs.length ≤ 15 && m.pools.length ≤ 16 && m.pools.all poolOk &&
  (m.pools.map (·.id)).eraseDups.length = m.pools.length && 1 ≤ m.drainUs && m.drainUs ≤ 1000000 && 1 ≤ m.hbMs && m.hbMs ≤ 100 &&
  4 * m.hbMs ≤ m.leaseMs && m.leaseMs ≤ 10000 && m.leaseMs ≤ m.memberMs && 10 ≤ m.formMs && m.formMs ≤ 10000

/-- The map of a CREATE request. -/
def createMap (s : State) (r : ComposeReq) (tenant epoch term : Nat) : LaceMap :=
  { state := 2, job := r.job, flags := r.flags % 2, epoch := epoch, term := term, cobbler := selfNode s, tenant := tenant,
    drainUs := orDefault 1000 r.drainUs, seedCheck := slotSeedCheck s, hbMs := orDefault 5 r.hbMs,
    leaseMs := orDefault 50 r.leaseMs, memberMs := orDefault 100 r.memberMs, formMs := orDefault 200 r.formMs,
    members := r.members.map fun m => { m with mstate := 0 }, pools := r.pools,
    slots := slotTable (seed s 3) (r.members.map fun m => { m with mstate := 0 }) }

/-- The map after an ADD: members joined in NODE order, pools by the request's own where it names them. -/
def addMap (s : State) (j : Job) (r : ComposeReq) : LaceMap :=
  let ms := sortBy (fun (a b : Member) => decide (a.node ≤ b.node)) (j.map.members ++ r.members.map fun m => { m with mstate := 0 })
  let ps := ((j.map.pools.filter fun p => !(r.pools.any (·.id = p.id))).map (movePool j.map.members ms)) ++ r.pools
  { j.map with epoch := j.map.epoch + 1, term := j.term, members := ms, pools := ps, slots := slotTable (seed s 3) ms }

/-- The map after a REMOVE without FORCE: its members become LEAVING; those that are LEAVING go, and the lowest remaining
voter is COBBLER where the cobbler goes (R359, log entry 25). -/
def removeMap (s : State) (j : Job) (nodes : List Nat) : LaceMap :=
  let leaving (m : Member) : Bool := nodes.contains m.node && m.mstate = 1
  let ms := (j.map.members.filter fun m => !leaving m).map fun m => if nodes.contains m.node then { m with mstate := 1 } else m
  let ps := (j.map.pools.map (movePool j.map.members ms)).filter fun p => !p.members.isEmpty
  let cob := if (ms.map (·.node)).contains j.map.cobbler then j.map.cobbler
    else ((ms.find? fun m => bit m.roles 3).map (·.node)).getD j.map.cobbler
  { j.map with epoch := j.map.epoch + 1, term := j.term, cobbler := cob, members := ms, pools := ps, slots := slotTable (seed s 3) ms }

/-- Whether a LEAVING member is known to own sessions of the job still: its own table's, or those of the location records here (R359, log
entry 25). -/
def leavesWith (s : State) (j : Job) (node : Nat) : Bool :=
  j.map.members.any (fun m => m.node = node && m.mstate = 1) &&
  (j.locRecs.any (·.owner = node) || (node = selfNode s &&
    s.ses.table.any fun p => p.2.job = some j.map.job && p.2.e.state ≠ .free && p.2.e.state ≠ .ash))

/-- A request for a job that this module leads (R359, R360, R365). -/
def composeHere (r : ComposeReq) (acc : Option Port) (j : Job) (s : State) : State :=
  let answer (code reason epoch : Nat) (s : State) : State :=
    match acc with | some a => setResult a code reason r.job epoch s | none => s
  let nodes := r.members.map (·.node)
  let offer (m : LaceMap) (s : State) : State := if mapOk m then propose m false acc s else answer 3 0 0 s
  if !leads s j || j.proposal.isSome then answer 2 0 0 s
  else match r.op with
    | 2 =>
      if j.map.state ≠ 2 then answer 4 1 0 s
      else if nodes.any (nodesOf j.map).contains then answer 3 0 0 s
      else offer (addMap s j r) s
    | 3 =>
      if j.map.state ≠ 2 then answer 4 1 0 s
      else if !(nodes.all (nodesOf j.map).contains) || nodes.isEmpty then answer 3 0 0 s
      else if bit r.flags 1 then
        answer 1 0 (j.map.epoch + 1) (modJob r.job (fun j => { j with forced := true }) (tearDown r.job nodes s))
      else if nodes.any (fun n => leavesWith s j n) then answer 2 0 0 s
      else offer (removeMap s j nodes) s
    | 4 => answer 1 0 (j.map.epoch + 1) (tearDown r.job [] s)
    | _ =>
      if j.map.state = 1 then answer 2 0 0 s
      else propose { j.map with state := 4, epoch := j.map.epoch + 1, term := j.term } false acc s

/-- The tenant that a request of an accessor writes into a CREATE: its queue pair's; from the owner port, that of the first
queue pair the request gives this module. -/
def composeTenant (s : State) (acc : Port) (r : ComposeReq) : Nat :=
  match acc with
  | .host qp => tenantOf s qp
  | _ => match r.members.find? (·.node = selfNode s) with | some m => tenantOf s m.qpFirst | none => 0

/-- A composition request of an accessor (R365, R370). Before a Last image is active the module is no voter of any job, so a
request is NOT_PERMITTED (R1, log entry 120). -/
def compose (acc : Port) (b : Bytes) (s : State) : State :=
  match readCompose b with
  | none => setResult acc 3 0 (leAt b 2 2) 0 (noteVersion 0x40 b 0 s)
  | some r =>
    let s := setResult acc 9 0 r.job 0 s
    if !imageOn s then setResult acc 6 0 r.job 0 s
    else match job? s r.job with
    | some j =>
      if r.op = 1 then
        if j.map.state = 2 || j.map.state = 1 || j.proposal.isSome then setResult acc 8 0 r.job 0 s
        else
          let e := if j.map.state = 3 then j.map.epoch + 1 else 1
          createHere acc r (createMap s r (composeTenant s acc r) e (max 1 j.term)) s
      else if !j.live then setResult acc 7 0 r.job 0 s
      else
        let mine := match acc with | .host qp => tenantOf s qp = j.map.tenant | _ => true
        if !mine then setResult acc 7 0 r.job 0 s
        else if j.map.cobbler = selfNode s then composeHere r (some acc) j s
        else laceParts [j.map.cobbler] 14 { ownHdr j with mapId := (sha256 b).take 8 } b s
    | none =>
      if r.op = 1 then createHere acc r (createMap s r (composeTenant s acc r) 1 1) s else setResult acc 7 0 r.job 0 s
where
  /-- CREATE, on a module that the request lists as a voter. -/
  createHere (acc : Port) (r : ComposeReq) (m : LaceMap) (s : State) : State :=
    if !mapOk m then setResult acc 3 0 r.job 0 s
    else if !(voters m).contains (selfNode s) then setResult acc 6 0 r.job 0 s
    else propose m true (some acc) s

/-- COMPOSE: a request that another member passed on reaches the cobbler. -/
def composeIn (l : LaceHdr) (req : Bytes) (s : State) : State :=
  match job? s l.job with
  | none => s
  | some _ =>
    match collectPart 14 l req s with
    | (none, s) => s
    | (some b, s) =>
      match readCompose b, job? s l.job with
      | some r, some j => if r.job = l.job && r.op ≠ 1 && j.map.cobbler = selfNode s then composeHere r none j s else s
      | _, _ => noteVersion 0x40 b 0 s

/-- COMPOSE. -/
def execCompose (l : LaceHdr) (req : Bytes) (s : State) : Host.Outcome State Fault Refusal := run (onFabric (composeIn l req)) s

/-! ### MAP_REQ and MAP_CTRL (R369, R372) -/

/-- MAP_REQ_DATA stores eight bytes of a request, on the owner port and the control cores. The first takes a buffer of 2 MiB from the
metadata pool; where it has none the bytes go nowhere (log entry 166). -/
def mapReqData (acc : Port) (val : Word) (s : State) : State :=
  if !(accRegs s acc).reqOpen && poolUsedBytes s + 2 ^ 21 > poolSize then hit 20 s
  else
    modAcc acc (fun a =>
      let o := a.reqAddr % 2 ^ 21 / 8 * 8
      { a with reqOpen := true, reqBuf := writeBytes 0 o (le val.toNat 8) a.reqBuf, reqAddr := (o + 8) % 2 ^ 21 }) s

/-- MAP_REQ_DATA. -/
def execMapReqData (acc : Port) (val : Word) (s : State) : Host.Outcome State Fault Refusal :=
  run (gateWrite acc 0x900038 (mapReqData acc val)) s

/-- The stage of a fetch of a composition request. -/
def stageCompose : Nat := 21

/-- MAP_REQ_CMD: SUBMIT takes the request from the buffer, which goes back to the pool, or reads it from host memory (R369). -/
def mapReqSubmit (acc : Port) (val : Word) (s : State) : State :=
  let a := accRegs s acc
  if !bit val.toNat 0 then s
  else if a.reqCode = 9 then setResult acc 2 0 a.reqJob 0 s
  else match acc with
    | .host qp =>
      let n := field a.reqKey 32 22
      let r : DataRef := { addr := a.reqAddr, len := n, rkey := a.reqKey % 2 ^ 32 }
      if n > 2097152 || refRefused r then setResult acc 3 0 0 0 s
      else startFetch { qp := qp } .nop r stageCompose [] (setResult acc 9 0 0 0 s)
    | _ =>
      let n := wfield val 4 19
      let s := modAcc acc (fun a => { a with reqOpen := false, reqBuf := [] }) s
      if n > 262144 then setResult acc 3 0 0 0 s else compose acc (readBytes 0 0 (8 * n) a.reqBuf) s

/-- MAP_REQ_SUBMIT. -/
def execMapReqSubmit (acc : Port) (val : Word) (s : State) : Host.Outcome State Fault Refusal :=
  run (gateWrite acc 0x900040 (mapReqSubmit acc val)) s

/-- CLEAR_COUNTS of MAP_CTRL. -/
def mapClear (s : State) : State :=
  { s with map := { s.map with commits := 0, elections := 0, teardowns := 0, redirects := 0, forwards := 0, catchFails := 0 } }

/-- MAP_CLEAR_COUNTS. -/
def execMapClearCounts (s : State) : Host.Outcome State Fault Refusal := run (gateWrite .owner 0x900060 mapClear) s

/-- SYNC_NOW of MAP_CTRL: the selected job's cobbler is asked for its map. -/
def syncNow (acc : Port) (s : State) : State :=
  match job? s (accRegs s acc).jobSel with
  | none => s
  | some j => if j.live && j.map.cobbler ≠ selfNode s then sendLace j.map.cobbler 9 (ownHdr j) [] s else s

/-- SYNC_NOW. -/
def execSyncNow (s : State) : Host.Outcome State Fault Refusal := run (gateWrite .owner 0x900060 (syncNow .owner)) s

end Sys2Proof.Machine
end

