-- ==== Sys2Proof/Machine/Flits.lean ====
section
/-!
DEFINITION. Sys2Proof/Machine/Flits.lean: flits and link-level replay (R303 to R306), frame boundaries of the Welt links
(R285, R286, R312), frames as they arrive, responses at their requester (R322, R323) and dead targets (R327).
-/
namespace Sys2Proof.Machine
open Sys2Proof

/-! ### Lace messages as they arrive (R320, R346) -/

/-- The location records of a payload. -/
def readLocs (b : Bytes) : List LocRec := (List.range (b.length / 32)).map fun i => readLoc (slice b (32 * i) 32)

/-- A lace message reaches the lace agent. -/
def laceIn (body : Bytes) (s : State) : State :=
  let l := readLaceHdr body
  let p := body.drop 32
  if !versionOk (leAt body 0 1) then noteVersion 0x40 body 0 s
  else match leAt body 1 1 with
    | 1 => proposed l p s
    | 2 => accepted l s
    | 3 => refused l (leAt p 0 1) s
    | 4 => committed l s
    | 5 => heartbeatIn l s
    | 6 => heartbeatAcked l s
    | 7 => voteAsked l s
    | 8 => voteIn l (bit (leAt p 0 1) 0) s
    | 9 => syncAsked l s
    | 10 => synced l p s
    | 11 => reported l (leAt p 0 1) (leAt p 2 2 % 4096) (leAt p 4 4) s
    | 12 => tornDown l p s
    | 13 => located l (readLocs p) s
    | 14 => composeIn l p s
    | _ => s

/-- A request that its home has applied: a lace message goes to the lace agent. The body of a session-unit message has no
layout, so its effect is that message's own command (log entry 9). -/
def appliedRequest (r : Request) (s : State) : State := if r.op = 3 && r.msgKind = 2 then laceIn r.data s else s

/-- Whether a home has no room for the location records of a message (R353, log entry 25). -/
def noRoom (s : State) (r : Request) : Bool :=
  let l := readLaceHdr r.data
  let fresh (x : LocRec) : Bool :=
    x.epoch ≠ 0 && x.owner ≠ selfNode s && !((job? s l.job).any fun j => j.locRecs.any (·.handle = x.handle))
  let n := ((readLocs (r.data.drop 32)).filter fresh).length
  r.op = 3 && r.msgKind = 2 && leAt r.data 1 1 = 13 && n ≠ 0 && poolUsedBytes s + 32 * n > poolSize

/-- A request frame for this module. -/
def requestIn (l : Nat) (r : Request) (s : State) : State :=
  match homeRequest l r s (noRoom s r) with
  | (true, s) => appliedRequest r s
  | (false, s) => s

/-! ### Dead targets (R327) -/

/-- What ended with a transaction that will have no answer. -/
def purposeFailed (o : Outst) (status : Nat) (s : State) : State :=
  match o.purpose with
  | .ckp => ckpAnswer status [] s
  | .restored h => restorePlaced h 0 s
  | .none | .session _ | .lace _ | .location _ | .moved _ | .wake _ _ => s

/-- A transaction ends with TARGET_DEAD: its tag and credit are freed, its job is stopped, the cobbler is told and one event
logged. -/
def targetDead (o : Outst) (status : Nat) (s : State) : State :=
  let job := o.req.hdr.job
  let node := o.req.hdr.dest
  let s := endTx o s
  let s := { s with wlt := { s.wlt with
    dead := sat (s.wlt.dead + 1) 32, stalled := s.wlt.stalled.filter (fun x => x.1.hdr.job ≠ job || (x.1.op = 3 && x.1.msgKind = 2)),
    stopped := if s.wlt.stopped.contains job then s.wlt.stopped else s.wlt.stopped ++ [job] } }
  let s := match job? s job with
    | none => s
    | some j =>
      if j.map.cobbler = selfNode s then tearDown job [node] s
      else sendLace j.map.cobbler 11 (ownHdr j) (le 1 1 ++ zeros 1 ++ le node 2 ++ le 0 4) s
  let s := logAll 2 7 (unitChip 0x40) 0x0503 (job + node * 65536) s
  unstall (purposeFailed o status s)

/-- Ten milliseconds have passed since a transaction's first send. -/
def targetTimeout (tag : Nat) (s : State) : State :=
  match s.wlt.outst.find? (·.req.tag = tag) with
  | none => s
  | some o => targetDead o 3 (advance (o.first + 10000000) s)

/-- TARGET_DEAD. -/
def execTargetDead (tag : Nat) (s : State) : Host.Outcome State Fault Refusal := run (targetTimeout tag) s

/-! ### Responses (R322, R323) -/

/-- The location record of a new session is acknowledged or refused: its OPEN completes (R352). -/
def openAnswered (h : Word) (status : Nat) (s : State) : State :=
  match s.map.openWait.find? (·.1 = h) with
  | none => s
  | some w =>
    let s := { s with map := { s.map with openWait := s.map.openWait.filter (·.1 ≠ h) } }
    if status = 0 then completeOp w.2.1 1 0 s { handle := some h }
    else completeOp w.2.1 1 0x10 (freeEntry w.2.2 s) { handle := some 0 }

/-- What an answered transaction was for. -/
def purposeDone (o : Outst) (r : Response) (s : State) : State :=
  match o.purpose with
  | .location h => openAnswered h r.status s
  | .moved h => movePlaced h r.status s
  | .restored h => restorePlaced h r.status s
  | .ckp => ckpAnswer r.status r.data s
  | .wake idx i => modSess idx (fun x => { x with got := putN i r.data x.got }) s
  | .none | .session _ | .lace _ => s

/-- JOB_GONE: the requester treats the job as torn down (R326). -/
def jobGone (job : Nat) (s : State) : State :=
  match job? s job with
  | none => s
  | some j => if j.map.state = 1 || j.map.state = 2 then applyTeardown job j.map.epoch j.term s else s

/-- A response at its requester: one without an outstanding request of its tag and SEQ is discarded; GAP re-sends from
NEXT_SEQ in SEQ order. -/
def responseArrives (r : Response) (s : State) : State :=
  match s.wlt.outst.find? fun o => o.req.tag = r.tag && o.req.seq = r.seq && o.req.stream = r.stream with
  | none => s
  | some o =>
    match r.status with
    | 6 =>
      let os := s.wlt.outst.filter fun x =>
        x.req.stream = o.req.stream && x.req.hdr.dest = o.req.hdr.dest && !seqBefore x.req.seq r.nextSeq
      resend (sortBy (fun (a b : Outst) => !seqBefore b.req.seq a.req.seq) os) s
    | 3 | 4 => targetDead o r.status s
    | 5 => jobGone o.req.hdr.job (unstall (purposeFailed o 5 (endTx o s)))
    | _ => unstall (purposeDone o r (endTx o s))

/-- A response, whether it comes off a link or waits here for its requester. -/
def responseTaken (r : Response) (s : State) : State :=
  responseArrives r { s with wlt := { s.wlt with here := s.wlt.here.erase (.rsp r) } }

/-- FABRIC_RESPONSE. -/
def execFabricResponse (r : Response) (s : State) : Host.Outcome State Fault Refusal := run (onFabric (responseTaken r)) s

/-- The first frame that this module has sent to itself reaches its home or its requester (R313, R325). -/
def deliverHere (s : State) : State :=
  match s.wlt.here with
  | [] => s
  | f :: l =>
    let s := { s with wlt := { s.wlt with here := l } }
    match f with
    | .req r => requestIn 32 r s
    | .rsp r => responseArrives r s
    | .train _ _ | .key _ _ | .nodeState _ _ _ => s

/-- A line unit takes a request: of those that wait in the home's buffer, else the module's own (R325). -/
def acceptRequest (region : Nat) (s : State) : State :=
  match lineAccept region s with
  | (some r, s) => appliedRequest r s
  | (none, s) => match s.wlt.here with | .req _ :: _ => deliverHere s | _ => s

/-- LINE_UNIT_ACCEPT. -/
def execLineUnitAccept (region : Nat) (s : State) : Host.Outcome State Fault Refusal := runOn (region < 8) (acceptRequest region) s

/-! ### Frames as they arrive -/

/-- A frame has arrived whole on a link. -/
def frameArrives (l : Nat) (f : Frame) (s : State) : State :=
  match f with
  | .train _ t => trainArrives l t s
  | .key _ k => keyArrives l k s
  | .nodeState _ node sq => nodeStateIn l node sq s
  | .req r =>
    if r.hdr.dest ≠ selfNode s then forward l (.req r) s else requestIn l r (owe l (.req r) s)
  | .rsp r =>
    if r.hdr.dest ≠ selfNode s then forward l (.rsp r) s else responseArrives r (owe l (.rsp r) s)

/-! ### Sending flits (R304, R305) -/

/-- The data bytes of a flit (R304). -/
def flitRoom (k : Link) : Nat := if k.txKey.isSome then 472 else 488

/-- The flits that it takes to send a frame whole behind what already waits to fill a flit (R304). -/
def flitsOf (k : Link) (f : Frame) : Nat := ceilDiv (k.txPart.length + frameLen f) (flitRoom k)

/-- ACK_SEQ and CREDIT of the next flit of a link, and the link with the credits given. -/
def flitCredit (k : Link) : Nat × Link :=
  match k.owed.find? (·.2 ≠ 0) with
  | none => (0, k)
  | some (v, n) =>
    let c := min n (2 ^ 14 - 1)
    (v % 4 + c * 4, { k with owed := putN v (n - c) k.owed })

/-- The 16 header bytes of a flit. -/
def flitHeader (kind seq credit : Nat) (k : Link) : Bytes :=
  le kind 1 ++ le (placeB k.nak 0 + placeB (kind = 0 && k.txKey.isSome) 1) 1 ++ le seq 6 ++
  le ((k.rxNext + 2 ^ 48 - 1) % 2 ^ 48) 6 ++ le credit 2

/-- The nonce of R306. -/
def flitNonce (dir seq : Nat) : Bytes := le dir 4 ++ le seq 8

/-- The 512 bytes of a flit from its first 504. -/
def withCrc (b : Bytes) : Bytes := b ++ le (crc64 b).toNat 8

/-- The same flit with a wrong CRC (R441). -/
def badCrc (b : Bytes) : Bytes := b.take 504 ++ (b.drop 504).map (fun x => ~~~ x)

/-- A flit leaves on a link; an injected CRC error shows on the wire alone. -/
def emitFlit (l : Nat) (b : Bytes) (s : State) : State :=
  let n := (linkOf s l).crcInject
  if n = 0 then emit (.flit l b) s else emit (.flit l (badCrc b)) (modLink l (fun k => { k with crcInject := n - 1 }) s)

/-- Send one data flit and keep it in the replay buffer. `fs` are the frames that end in it. -/
def sendData (l : Nat) (data : Bytes) (fs : List Frame) (s : State) : State :=
  let k := linkOf s l
  let (c, k') := flitCredit k
  let h := flitHeader 0 k.txSeq c k
  let d := fit data (flitRoom k)
  let area := match k.txKey with
    | some key => fit (gcmSeal key (flitNonce (directionBit (selfNode s) k.peerNode) k.txSeq) h d) 488
    | none => d
  let b := withCrc (h ++ area)
  let e : SentFlit := { seq := k.txSeq, at_ := now s, raw := b, frames := fs }
  emitFlit l b (modLink l (fun _ => { k' with txSeq := (k.txSeq + 1) % 2 ^ 48, nak := false, replayBuf := k.replayBuf ++ [e] }) s)

/-- Send an idle flit. -/
def sendIdle (l : Nat) (s : State) : State :=
  let k := linkOf s l
  let (c, k') := flitCredit k
  emitFlit l (withCrc (flitHeader 1 0 c k ++ zeros 488)) (modLink l (fun _ => { k' with nak := false }) s)

/-- What waits to fill a flit is sent, padded (R304). -/
def flushFlit (l : Nat) (s : State) : State :=
  let k := linkOf s l
  if k.txPart.isEmpty then s else sendData l k.txPart k.txFrames (modLink l (fun k => { k with txPart := [], txFrames := [] }) s)

/-- Send a frame behind what waits to fill a flit: whole flits leave, the rest waits for the next frame (R304). -/
def packFrame (l : Nat) (f : Frame) (s : State) : State :=
  let k := linkOf s l
  let room := flitRoom k
  let b := k.txPart ++ frameBytes f
  let n := b.length / room
  let rest := b.drop (n * room)
  let ends (i : Nat) : List Frame := (if i = 0 then k.txFrames else []) ++ (if rest.isEmpty && i + 1 = n then [f] else [])
  let s := (List.range n).foldl (fun s i => sendData l (slice b (room * i) room) (ends i) s) s
  let left := if rest.isEmpty then [] else if n = 0 then k.txFrames ++ [f] else [f]
  modLink l (fun k => { k with txPart := rest, txFrames := left }) s

/-- Send a frame; its credits are used. After a CONFIRM the new key is in force for what is sent (R408): what waits goes out before. -/
def sendFrame (l : Nat) (f : Frame) (s : State) : State :=
  let s := if isControl f then s
    else
      let v := vcOf (frameHdr f).cls
      modLink l (fun k => { k with credits := putN v (findD v k.credits 4096 - ceilDiv (frameLen f) 64) k.credits }) s
  let s := packFrame l f s
  match f with
  | .key _ m =>
    let s := flushFlit l s
    match (linkOf s l).newKey, decide (m.step = 2) with
    | some ks, true =>
      keyDone l (modLink l (fun k => { k with txKey := some ks.1, prevKey := k.txKey.map fun o => (o, (k.txSeq + 2 ^ 48 - 1) % 2 ^ 48) }) s)
    | _, _ => s
  | _ => s

/-- Whether the replay buffer has room for the flits of a frame (R305). -/
def flitsFit (s : State) (l : Nat) (e : EFrame) : Bool :=
  match e.frame with
  | some f => flitsOf (linkOf s l) f ≤ 1024 - (linkOf s l).replayBuf.length
  | none => true

/-- Whether a link holds the credits of a whole frame (R312). -/
def hasCredit (s : State) (l : Nat) (e : EFrame) : Bool :=
  match e.frame with
  | some f => ceilDiv (frameLen f) 64 ≤ findD (vcOf (frameHdr f).cls) (linkOf s l).credits 4096
  | none => true

/-- What a link asks of a frame: UP, room in the replay buffer, credits. -/
def linkLets (s : State) (l : Nat) (e : EFrame) : Bool := (linkOf s l).st = 5 && flitsFit s l e && hasCredit s l e

/-- Whether another frame can follow at once in the flit that is being filled. -/
def moreFrames (s : State) (l : Nat) : Bool :=
  match (portOf s (l + 1)).ctl with
  | e :: _ => flitsFit s l e
  | [] => (leastQueue s (l + 1) (linkLets s l)).isSome

/-- A frame boundary of a Welt link: control frames first, then the eligible queue with the least start tag among those with a frame that
has its credits (R285, R286, R312). A frame is packed behind the one before it, and a flit that no frame follows is padded; with no frame
an idle flit (R304). A forwarded frame's receive buffer is free as it leaves. -/
def weltEgress (l : Nat) (s : State) : State :=
  let k := linkOf s l
  if k.st < 3 || k.st > 5 then s
  else
    let heads := (portOf s (l + 1)).queues.filterMap fun q => q.2.frames.head?
    match takeFrame (l + 1) (flitsFit s l) (linkLets s l) s with
    | (none, s) =>
      let full := (heads ++ (portOf s (l + 1)).ctl).any fun e => !flitsFit s l e
      let s := if full then hit 3 s else s
      let s := if k.st = 5 && heads.any fun e => !hasCredit s l e then hit 4 s else s
      if k.txPart.isEmpty then sendIdle l s else flushFlit l s
    | (some e, s) =>
      match e.frame with
      | some f =>
        let s := sendFrame l f (oweHeld e.held s)
        if moreFrames s l then s else flushFlit l s
      | none => s

/-- EGRESS_FRAME. -/
def execEgressFrame (port : Nat) (s : State) : Host.Outcome State Fault Refusal :=
  runOn (port < 33) (fun s => if port = 0 then hostEgress s else weltEgress (port - 1) s) s

/-! ### Replay (R305) -/

/-- Every unacknowledged flit is sent again, in order. A flit replayed REPLAY_LIMIT times takes the link DOWN. -/
def replayFlits (l : Nat) (s : State) : State :=
  let k := linkOf s l
  let again := k.replayBuf.map fun e => { e with times := e.times + 1, at_ := now s }
  let s := modLink l (fun k => { k with replayBuf := again, replays := sat (k.replays + again.length) 16 }) s
  let s := again.foldl (fun s e => emitFlit l e.raw s) s
  if again.any fun e => e.times ≥ replayLimit s then linkDown l (some 8) (k.st = 5) s else s

/-- A flit stays unacknowledged for 2 µs. -/
def ackTimeout (l : Nat) (s : State) : State :=
  match (linkOf s l).replayBuf.head? with
  | none => s
  | some e => replayFlits l (advance (e.at_ + 2000) s)

/-- FLIT_ACK_TIMEOUT. -/
def execFlitAckTimeout (link : Nat) (s : State) : Host.Outcome State Fault Refusal := runOn (link < 32) (ackTimeout link) s

/-! ### Receiving flits (R304 to R306) -/

/-- What ACK_SEQ covers leaves the replay buffer, and the previous key with the flit of its last use (R408). -/
def takeAck (a : Nat) (k : Link) : Link :=
  let n := (a + 1 + 2 ^ 48 - k.ackedTo % 2 ^ 48) % 2 ^ 48
  if n > k.replayBuf.length then k
  else
    let gone := k.replayBuf.take n
    let old := match k.prevKey with | some p => gone.any (·.seq = p.2) | none => false
    { k with ackedTo := (a + 1) % 2 ^ 48, replayBuf := k.replayBuf.drop n, prevKey := if old then none else k.prevKey }

/-- Credits come back for a virtual channel. -/
def takeCredit (c : Nat) (k : Link) : Link :=
  let n := c / 4 % 2 ^ 14
  if n = 0 then k else { k with credits := putN (c % 4) (min 4096 (findD (c % 4) k.credits 4096 + n)) k.credits }

/-- Acknowledgement, credits and NAK of a sound flit. -/
def flitControl (l : Nat) (raw : Bytes) (s : State) : State :=
  let s := modLink l (fun k => takeCredit (leAt raw 14 2) (takeAck (leAt raw 8 6) k)) s
  if bit (leAt raw 1 1) 0 then replayFlits l s else s

/-- Cut frames off received bytes: the frames that are whole, and what is left. A zero byte where a frame would begin pads
the rest; bytes that begin no frame are dropped. -/
def cutFrames : Nat → Bytes → List Frame → List Frame × Bytes
  | 0, b, fs => (fs, b)
  | n + 1, b, fs =>
    let len := leAt b 2 2
    if b.isEmpty || leAt b 0 1 = 0 then (fs, [])
    else if b.length < 4 then (fs, b)
    else if len < 16 || len > 4144 || len % 8 ≠ 0 then (fs, [])
    else if b.length < len then (fs, b)
    else match readFrame (b.take len) with
      | some f => cutFrames n (b.drop len) (fs ++ [f])
      | none => cutFrames n (b.drop len) fs

/-- A flit is discarded; NAK goes with the next one. -/
def nakFlit (l : Nat) (s : State) : State := modLink l (fun k => { k with nak := true }) s

/-- The data of an in-order flit; none where its tag fails. -/
def flitData (s : State) (l : Nat) (raw : Bytes) : Option Bytes :=
  let k := linkOf s l
  let enc := bit (leAt raw 1 1) 1
  match k.rxKey with
  | none => if enc then none else some (slice raw 16 488)
  | some key =>
    if !enc then none
    else gcmOpen key (flitNonce (directionBit k.peerNode (selfNode s)) (leAt raw 2 6)) (raw.take 16) (slice raw 16 488)

/-- A data flit that is next in order. -/
def dataFlit (l : Nat) (raw : Bytes) (s : State) : State :=
  match flitData s l raw with
  | none =>
    let s := nakFlit l (modLink l (fun k => { k with tagFails := k.tagFails + 1 }) s)
    if (linkOf s l).tagFails ≥ replayLimit s then linkDown l (some 7) ((linkOf s l).st = 5) s else s
  | some d =>
    let k := linkOf s l
    let (fs, rest) := cutFrames 64 (k.rxPart ++ d) []
    let s := modLink l (fun k => { k with rxNext := (k.rxNext + 1) % 2 ^ 48, rxPart := rest, tagFails := 0 }) s
    let s := flitControl l raw s
    fs.foldl (fun s f => frameArrives l f s) s

/-- A flit arrives. -/
def flitArrives (l : Nat) (raw : Bytes) (s : State) : State :=
  let k := linkOf s l
  if k.st < 3 || k.st > 5 then s
  else if raw.length ≠ 512 || leAt raw 504 8 ≠ (crc64 (raw.take 504)).toNat then nakFlit l s
  else match leAt raw 0 1 with
    | 0 => if leAt raw 2 6 ≠ k.rxNext then nakFlit l s else dataFlit l raw s
    | 1 => flitControl l raw s
    | _ => s

/-- FLIT. -/
def execFlit (link : Nat) (raw : Bytes) (s : State) : Host.Outcome State Fault Refusal := runOn (link < 32) (onFabric (flitArrives link raw)) s

end Sys2Proof.Machine
end

