-- ==== Sys2Proof/Machine/VecCore.lean ====
section
/-!
DEFINITION. Sys2Proof/Machine/VecCore.lean: vector indexes (R211 to R226): sketches and distances, visibility, the two searches,
what an index takes on its channels and the bytes it puts there, the work of the channel engines (R210, R227 to R229), publication,
and how a query ends (R223, R232).
-/
namespace Sys2Proof.Machine
open Sys2Proof

/-! ### Channels -/

/-- Whether an index is degraded: a channel of it is fenced, or its tables are lost (R234, R437). -/
def vecDegraded (s : State) (x : VIndex) : Bool := x.degraded || x.chans.any fun c => (chanOf s c).fenced

/-! ### Sketches and distances (R213, R215) -/

/-- SIGN(K, j, i) for every i below `n`. -/
def signs (key : Bytes) (j n : Nat) : List F32 :=
  ((List.range (ceilDiv n 128)).flatMap fun b =>
    let c := aes128 key (le j 4 ++ le b 4 ++ zeros 8)
    (List.range 128).map fun i => if bit ((c.getD (i / 8) 0).toNat) (i % 8) then fneg f32One else f32One).take n

/-- Bits packed eight to a byte, the least significant first. -/
def packBits (bs : List Bool) : Bytes :=
  (List.range (ceilDiv bs.length 8)).map fun i =>
    BitVec.ofNat 8 (sumN ((List.range 8).map fun j => if bs.getD (8 * i + j) false then 2 ^ j else 0))

/-- SKETCH(x). -/
def VIndex.sketch (x : VIndex) (v : List F32) : Bytes :=
  let y := if x.centre.isEmpty then v else v.zipWith fsub x.centre
  packBits ((List.range x.bits).map fun j => fle 0 (dot y (signs x.key j x.dim)))

/-- HAMMING(a, b). -/
def hamming (a b : Bytes) : Nat := sumN ((a.zipWith (· ^^^ ·) b).map fun c => popcount c.toNat 8)

/-- A vector normalised (R215). -/
def normalised (v : List F32) : List F32 :=
  let r := rsqrt (dot v v)
  v.map fun c => fmul c r

/-- A vector as a query of the index takes it: normalised under cosine. -/
def VIndex.asQuery (x : VIndex) (v : List F32) : List F32 := if x.metric = 2 then normalised v else v

/-- A vector rounded to VEC_FORMAT. -/
def VIndex.stored (x : VIndex) (v : List F32) : List F32 :=
  match x.format with
  | 1 => e4m3 v
  | 7 => v.map bf16
  | _ => v

/-- DIST(q, x) of R215, for a vector q that is normalised already where the metric is cosine: a query by `asQuery`, a stored vector at
its insert. -/
def VIndex.dist (x : VIndex) (q v : List F32) : F32 :=
  match x.metric with
  | 0 => fneg (dot q v)
  | 1 => let d := q.zipWith fsub v; dot d d
  | _ => fneg (dot q v)

/-- A distance as a sort key; a NaN comes last. -/
def distKey (d : F32) : Nat := if isNaN d then 2 ^ 40 else (frank d + 2 ^ 33).toNat

/-- Whether a vector may not be stored or asked for: a NaN or infinite value, or a zero vector under cosine. -/
def VIndex.badVector (x : VIndex) (v : List F32) : Bool :=
  v.any (fun c => match fpOf c with | .fin _ _ _ => false | _ => true) ||
  (x.metric = 2 && v.all fun c => feq c 0)

/-- DIM FP32 values at an offset. -/
def f32sAt (b : Bytes) (o n : Nat) : List F32 := (List.range n).map fun i => BitVec.ofNat 32 (leAt b (o + 4 * i) 4)

/-! ### Visibility (R219) -/

/-- DEL(r): the SEQ of the delete that names a slot and generation. -/
def VIndex.delSeq (x : VIndex) (r : VRec) : Option Nat := (x.dels.find? fun d => d.1 = r.slot && d.2.1 = r.gen).map (·.2.2)

/-- VISIBLE(r, S). -/
def VIndex.visible (x : VIndex) (snap : Nat) (r : VRec) : Bool :=
  r.seq ≤ snap && match x.delSeq r with | some d => decide (snap < d) | none => true

/-- The current node or record of a slot: of the newest generation. -/
def VIndex.node? (x : VIndex) (slot : Nat) : Option VRec :=
  (x.recs.filter (·.slot = slot)).foldl (fun o r => match o with
    | some y => if y.seq < r.seq then some r else o
    | none => some r) none

/-- LIST(n, S): the edges of the newest version at or before S. -/
def edgesAt (snap : Nat) (r : VRec) : List (Nat × Nat) := ((r.edges.find? fun e => e.1 ≤ snap).map (·.2)).getD []

/-- The entry slots at a snapshot: those of the newest version at or before it (log entry 159). -/
def VIndex.entriesAt (x : VIndex) (snap : Nat) : List Nat := ((x.entries.find? fun e => e.1 ≤ snap).map (·.2)).getD []

/-! ### Queries (R231) -/

/-- A query's fields as taken. -/
structure VAsk where
  index  : Nat := 0
  bulk   : Bool := false
  k      : Nat
  depth  : Nat
  nprobe : Nat
  limit  : Nat
  named  : Bool := false
  snap   : Nat := 0
  all    : Nat := 0
  any    : Nat := 0
  none_  : Nat := 0
  tag    : Nat := 0
deriving DecidableEq, Repr

/-- Read a query's header; RERANK_DEPTH 0 and PROBE_LIMIT 0 are taken as R231 says. -/
def readAsk (b : Bytes) : VAsk :=
  let k := leAt b 4 2
  let d := leAt b 6 2
  let n := leAt b 8 2
  let l := leAt b 10 2
  { index := leAt b 2 2, bulk := bit (leAt b 1 1) 0, k := k, depth := if d = 0 then max k 64 else d, nprobe := n,
    limit := if l = 0 then n else l, named := bit (leAt b 12 2) 0, snap := leAt b 16 8, all := leAt b 24 8, any := leAt b 32 8,
    none_ := leAt b 40 8, tag := leAt b 48 8 }

/-- Whether a filter is set (R223). -/
def VAsk.filtered (p : VAsk) : Bool := p.all ≠ 0 || p.any ≠ 0 || p.none_ ≠ 0

/-- MATCH(r, f) of R219. -/
def VAsk.hits (p : VAsk) (r : VRec) : Bool :=
  let a := r.attr.toNat
  a &&& p.all = p.all && (p.any = 0 || a &&& p.any ≠ 0) && a &&& p.none_ = 0

/-- A query's vector as the search takes it. -/
def VIndex.queryVec (x : VIndex) (raw : Bytes) : List F32 := x.asQuery (f32sAt raw 64 x.dim)

/-- A query's sketch: supplied under SKETCH_KIND 1, else computed. -/
def VIndex.querySketch (x : VIndex) (raw : Bytes) : Bytes :=
  if x.skKind = 1 then slice raw (64 + 4 * x.dim) x.skBytes else x.sketch (x.queryVec raw)

/-- Whether a query breaks R231 or R213 on an index, its result buffer too short among them (R257). -/
def VIndex.badAsk (x : VIndex) (raw : Bytes) (bufLen : Nat) : Bool :=
  let p := readAsk raw
  let need := 64 + 4 * x.dim + (if x.skKind = 1 then x.skBytes else 0)
  !versionOk (leAt raw 0 1) || p.k < 1 || 1024 < p.k || p.depth < p.k || 4096 < p.depth ||
  (if x.graph then p.nprobe < 16 || 4096 < p.nprobe else p.nprobe < 1 || x.cprobe < p.nprobe) ||
  raw.length < need || bufLen < 32 + 24 * p.k || x.badVector (f32sAt raw 64 x.dim)

/-- A record a search returns: its exact distance and its Hamming distance. -/
structure VHit where
  dist : F32
  ham  : Nat
  rcd  : VRec
deriving DecidableEq, Repr

/-- The order of results: distance, ID, SLOT. -/
def VHit.key (h : VHit) : List Nat := [distKey h.dist, h.rcd.id.toNat, h.rcd.slot]

/-- What a search finds: its hits in order, lists probed or nodes expanded, matching records seen; and the rounds of work that it takes. -/
structure VFound where
  hits   : List VHit := []
  probed : Nat := 0
  found  : Nat := 0
  rounds : List (List VJob) := []
deriving DecidableEq, Repr

/-- Sort by a key of numbers. -/
def sortKey {α : Type} (key : α → List Nat) (l : List α) : List α := sortBy (fun a b => lexLe (key a) (key b)) l

/-- The re-ranked members of a set of records: the nearest `depth` by sketch, with their exact distances. -/
def VIndex.rerank (x : VIndex) (q : List F32) (qs : Bytes) (depth : Nat) (m : List VRec) : List VHit :=
  ((sortKey (fun h => [h.ham, h.rcd.slot]) (m.map fun r => (⟨0, hamming qs r.sketch, r⟩ : VHit))).take depth).map fun h =>
    { h with dist := x.dist q h.rcd.vec }

/-! ### Searching an IVF index (R221) -/

/-- The CPROBE lists of least sketch distance, in order of their exact distance. -/
def VIndex.rankLists (x : VIndex) (q : List F32) (qs : Bytes) : List Nat :=
  let c := (sortKey (fun l => [hamming qs (x.csk.getD l []), l]) (List.range x.nlist)).take x.cprobe
  sortKey (fun l => [distKey (x.dist q (x.cents.getD l [])), l]) c

/-- The rounds of IVF_SEARCH; `n` bounds them. -/
def VIndex.probe (x : VIndex) (q : List F32) (qs : Bytes) (snap : Nat) (p : VAsk) (order : List Nat) (limit : Nat) : Nat → VFound → VFound
  | 0, f => f
  | n + 1, f =>
    let batch := (order.drop f.probed).take (min p.nprobe (limit - f.probed))
    let matching (l : Nat) : List VRec := x.recs.filter fun r => r.list = l && x.visible snap r && p.hits r
    let f := batch.foldl (fun (f : VFound) l =>
      let m := matching l
      { f with hits := f.hits ++ x.rerank q qs p.depth m, found := f.found + m.length }) f
    let reranks := (batch.filter fun l => !(matching l).isEmpty).map VJob.rerank
    let f : VFound := { f with probed := f.probed + batch.length, rounds := f.rounds ++ [batch.map VJob.scan, reranks] }
    if f.found ≥ p.k || f.probed ≥ limit then f else x.probe q qs snap p order limit n f

/-- IVF_SEARCH. -/
def VIndex.ivf (x : VIndex) (q : List F32) (qs : Bytes) (snap : Nat) (p : VAsk) : VFound :=
  let limit := min (max p.limit p.nprobe) x.cprobe
  let f := x.probe q qs snap p (x.rankLists q qs) limit limit {}
  { f with hits := (sortKey VHit.key f.hits).take p.k }

/-! ### Searching a graph index (R222) -/

/-- A graph search under way: slots visited, candidates, slots expanded, matching nodes seen, and the slots that each expansion visits
first. -/
structure VWalk where
  visited  : List Nat := []
  cand     : List VHit := []
  expanded : List Nat := []
  found    : Nat := 0
  reads    : List (List Nat) := []
deriving DecidableEq, Repr

/-- A node enters the candidates, counted where it is visible and matches. -/
def VIndex.meet (x : VIndex) (qs : Bytes) (snap : Nat) (p : VAsk) (r : VRec) (w : VWalk) : VWalk :=
  { w with cand := w.cand ++ [⟨0, hamming qs r.sketch, r⟩], found := if x.visible snap r && p.hits r then w.found + 1 else w.found }

/-- One edge of an expansion. -/
def VIndex.follow (x : VIndex) (qs : Bytes) (snap : Nat) (p : VAsk) (w : VWalk) (e : Nat × Nat) : VWalk :=
  if w.visited.contains e.1 then w
  else
    let w : VWalk := { w with visited := w.visited ++ [e.1] }
    match x.node? e.1 with
    | some r => if r.gen = e.2 && r.seq ≤ snap then x.meet qs snap p r w else w
    | none => w

/-- The expansions of GRAPH_SEARCH; `n` bounds them. -/
def VIndex.expand (x : VIndex) (qs : Bytes) (snap : Nat) (p : VAsk) : Nat → VWalk → VWalk
  | 0, w => w
  | n + 1, w =>
    let order := sortKey (fun h => [h.ham, h.rcd.slot]) w.cand
    let fresh (h : VHit) : Bool := !w.expanded.contains h.rcd.slot
    let pick := match (order.take p.nprobe).find? fresh with
      | some h => some h
      | none => if w.found < p.k then order.find? fresh else none
    match pick with
    | none => w
    | some h =>
      if w.expanded.length = max p.limit p.nprobe then w
      else
        let y := (edgesAt snap h.rcd).foldl (x.follow qs snap p) w
        x.expand qs snap p n
          { y with expanded := w.expanded ++ [h.rcd.slot], reads := w.reads ++ [y.visited.drop w.visited.length] }

/-- GRAPH_SEARCH. -/
def VIndex.walk (x : VIndex) (q : List F32) (qs : Bytes) (snap : Nat) (p : VAsk) : VFound :=
  let entries := sortKey (fun e => [e]) (x.entriesAt snap)
  let start := entries.foldl (fun (w : VWalk) e =>
    match x.node? e with
    | some r => if r.seq ≤ snap && !w.visited.contains e then x.meet qs snap p r { w with visited := w.visited ++ [e] } else w
    | none => w) {}
  let w := x.expand qs snap p (x.recs.length + 1) start
  let m := w.visited.filterMap fun v => (x.node? v).bind fun r => if x.visible snap r && p.hits r then some r else none
  let ranked := x.rerank q qs p.depth m
  let chans := (ranked.map fun h => x.chanOf h.rcd.slot).eraseDups
  { hits := (sortKey VHit.key ranked).take p.k, probed := w.expanded.length, found := w.found,
    rounds := (entries :: w.reads).map (·.map VJob.node) ++ [chans.map VJob.rerank] }

/-- The channel of a piece of a search's work: of its list, of its slot's node, or of the vectors that a graph query re-ranks there. -/
def VIndex.jobChan (x : VIndex) : VJob → Nat
  | .scan l => x.chanOf l
  | .node v => x.chanOf v
  | .rerank k => if x.graph then k else x.chanOf k
  | .write => x.chanOf 0

/-- The search of an index's kind. -/
def VIndex.search (x : VIndex) (q : List F32) (qs : Bytes) (snap : Nat) (p : VAsk) : VFound :=
  if x.graph then x.walk q qs snap p else x.ivf q qs snap p

/-! ### What an index takes on its channels (R216, R217) -/

/-- Records of a size that a 64 KiB tile holds after its header. -/
def perTile (n : Nat) : Nat := 65472 / max 1 n

/-- Bytes of a sketch record. -/
def VIndex.recBytes (x : VIndex) : Nat := 64 * ceilDiv (32 + x.skBytes) 64

/-- Vectors that a tile of a graph's vector area holds: rows without a header (R217; log entry 160). -/
def VIndex.areaPer (x : VIndex) : Nat := 65536 / max 1 x.vecBytes

/-- The row of a slot in the vector area of its channel (R217). -/
def VIndex.areaRow (x : VIndex) (slot : Nat) : Nat := slot / max 1 x.chans.length

/-- The records of a list, in the order of its runs. -/
def VIndex.listRecs (x : VIndex) (l : Nat) : List VRec := x.recs.filter (·.list = l)

/-- 64 KiB blocks that an index takes on a channel, replaced runs among them. The descriptor and rows lie on its first channel (log entry
160). -/
def VIndex.blocksOn (x : VIndex) (ch : Nat) : Nat :=
  if !bit x.mask ch then 0
  else
    let head := (if x.chanOf 0 = ch then ceilDiv x.headBytes 65536 else 0) + (x.stale.flatMap (·.tiles)).countP (·.ch = ch)
    if x.graph then
      let mine := x.recs.filter fun r => x.chanOf r.slot = ch
      head + ((x.units.filter (·.ch = ch)).map (·.unit / 16)).eraseDups.length +
        (mine.map fun r => x.areaRow r.slot / x.areaPer).eraseDups.length
    else
      let lists := (List.range x.nlist).filter fun l => x.chanOf l = ch
      let n (l : Nat) : Nat := (x.listRecs l).length
      head + sumN (lists.map fun l => ceilDiv (n l) (perTile x.recBytes) + ceilDiv (n l) (perTile x.vecBytes))

/-- The node versions of a graph take 4 KiB units of their slots' channels, each the lowest free one; those of versions that there are
no more are free (R217). -/
def VIndex.placeUnits (x : VIndex) : VIndex :=
  let all := x.recs.flatMap fun r => r.edges.reverse.map fun e => (r.slot, r.gen, e.1)
  let key (u : VUnit) : Nat × Nat × Nat := (u.slot, u.gen, u.seq)
  let kept := x.units.filter fun u => all.contains (key u)
  let fresh := all.filter fun v => !kept.any fun u => key u = v
  { x with units := fresh.foldl (fun (us : List VUnit) v =>
      let ch := x.chanOf v.1
      us ++ [{ ch := ch, unit := leastOut ((us.filter (·.ch = ch)).map (·.unit)) us.length 0, slot := v.1, gen := v.2.1, seq := v.2.2 }]) kept }

/-! ### The bytes of an index in T2 (R216, R217) -/

/-- Whether an update is durable. -/
def VIndex.isDone (x : VIndex) (seq : Nat) : Bool := !x.waiting.any fun u => u.seq = seq && !u.durable

/-- The records of a list that its programmed tiles hold: up to the last durable one. -/
def VIndex.listDone (x : VIndex) (l : Nat) : List VRec :=
  let rs := x.listRecs l
  rs.take (rs.foldl (fun (a : Nat × Nat) r => (a.1 + 1, if x.isDone r.seq then a.1 + 1 else a.2)) (0, 0)).2

/-- The tiles that what is durable of an index takes: channel, part, place in the part. -/
def VIndex.wanted (x : VIndex) : List (Nat × VPart × Nat) :=
  let run (ch : Nat) (p : VPart) (n : Nat) : List (Nat × VPart × Nat) := (List.range n).map fun k => (ch, p, k)
  run (x.chanOf 0) .head (ceilDiv x.headBytes 65536) ++
  (if x.graph then
    ((x.units.filter fun u => x.isDone u.seq).map fun u => (u.ch, VPart.nodes, u.unit / 16)).eraseDups ++
    ((x.recs.filter fun r => x.isDone r.seq).map fun r => (x.chanOf r.slot, VPart.area, x.areaRow r.slot / x.areaPer)).eraseDups
   else (List.range x.nlist).flatMap fun l =>
    let n := (x.listDone l).length
    run (x.chanOf l) (.sketch l) (ceilDiv n (perTile x.recBytes)) ++ run (x.chanOf l) (.vector l) (ceilDiv n (perTile x.vecBytes)))

/-- Offsets 0 to 31 of a record or a node (R216, R217). -/
def VRec.fixed (r : VRec) : Bytes :=
  le r.id.toNat 8 ++ le r.slot 4 ++ le r.gen 3 ++ zeros 1 ++ le r.seq 8 ++ le r.attr.toNat 8

/-- A sketch record (R216). -/
def VIndex.recordOf (x : VIndex) (r : VRec) : Bytes := fit (r.fixed ++ r.sketch) x.recBytes

/-- A tile of a run: its header and its items (R216). -/
def VIndex.runTile (x : VIndex) (kind l : Nat) (items : List Bytes) : Bytes :=
  fit (le 0x48 1 ++ le kind 1 ++ le items.length 2 ++ le x.id 2 ++ le l 4) 64 ++ items.flatten

/-- The channel address of a unit: the bytes of the channel before it; 0 where its tile has no block yet (R217). -/
def VIndex.unitAddr (x : VIndex) (u : VUnit) : Nat :=
  match x.tiles.find? fun t => t.ch = u.ch && decide (t.part = .nodes) && t.k = u.unit / 16 with
  | some t => t.block * 65536 + u.unit % 16 * 4096
  | none => 0

/-- The unit of a version of a node. -/
def VIndex.unitOf (x : VIndex) (r : VRec) (seq : Nat) : Option VUnit :=
  x.units.find? fun u => u.slot = r.slot && u.gen = r.gen && u.seq = seq

/-- The slot directory's word for a slot: the channel address of its newest version (R217). -/
def VIndex.directory (x : VIndex) (slot : Nat) : Nat :=
  match x.node? slot with
  | some r => (((r.edges.head?.bind fun e => x.unitOf r e.1).map x.unitAddr).getD 0)
  | none => 0

/-- A version of a node in its unit (R217). -/
def VIndex.nodeUnit (x : VIndex) (u : VUnit) : Bytes :=
  match x.recs.find? fun r => r.slot = u.slot && r.gen = u.gen with
  | none => zeros 4096
  | some r =>
    let es := edgesAt u.seq r
    let prev := ((r.edges.find? fun e => e.1 < u.seq).bind fun e => x.unitOf r e.1).map x.unitAddr
    fit (fit (r.fixed ++ le u.seq 8 ++ le es.length 1 ++ zeros 7 ++ le (prev.getD 0) 8) 64 ++
      fit (es.flatMap fun e => le e.1 4 ++ le e.2 3 ++ zeros 1) 512 ++ r.sketch) 4096

/-- A stored vector's row, padded to 64 bytes (R196, R216). -/
def VIndex.vecRow (x : VIndex) (r : VRec) : Bytes := rowOf x.format r.vec

/-- The bytes of a tile of an index. -/
def VIndex.tileBytes (x : VIndex) (t : VTile) : Bytes :=
  match t.part with
  | .head => slice x.head (65536 * t.k) 65536
  | .sketch l => x.runTile 0 l ((((x.listDone l).drop (perTile x.recBytes * t.k)).take (perTile x.recBytes)).map x.recordOf)
  | .vector l => x.runTile 1 l ((((x.listDone l).drop (perTile x.vecBytes * t.k)).take (perTile x.vecBytes)).map x.vecRow)
  | .nodes => (List.range 16).flatMap fun i =>
      match x.units.find? fun u => u.ch = t.ch && u.unit = 16 * t.k + i && x.isDone u.seq with
      | some u => x.nodeUnit u
      | none => zeros 4096
  | .area => (List.range x.areaPer).flatMap fun i =>
      let slot := (x.areaPer * t.k + i) * max 1 x.chans.length + x.chans.idxOf t.ch
      match (x.node? slot).filter fun r => x.isDone r.seq with
      | some r => x.vecRow r
      | none => zeros x.vecBytes

/-- The SEQs of the updates that a tile holds. -/
def VIndex.seqsIn (x : VIndex) (t : VTile) : List Nat :=
  let run (l per : Nat) : List Nat := (((x.listDone l).drop (per * t.k)).take per).map (·.seq)
  match t.part with
  | .head => []
  | .sketch l => run l (perTile x.recBytes)
  | .vector l => run l (perTile x.vecBytes)
  | .nodes => (x.units.filter fun u => u.ch = t.ch && u.unit / 16 = t.k).map (·.seq)
  | .area => (x.recs.filter fun r => x.chanOf r.slot = t.ch && x.areaRow r.slot / x.areaPer = t.k).map (·.seq)

/-- The index of a number. -/
def vindex? (s : State) (id : Nat) : Option VIndex := s.vec.idxs.find? (·.id = id)

/-- Change an index. -/
def modIndex (id : Nat) (f : VIndex → VIndex) (s : State) : State :=
  { s with vec := { s.vec with idxs := s.vec.idxs.map fun y => if y.id = id then f y else y } }

/-- The channels account for an index that changes from `a` to `b`. -/
def accountVec (a b : Option VIndex) (s : State) : State :=
  let on (x : Option VIndex) (c : Nat) : Nat := match x with | some x => x.blocksOn c | none => 0
  (List.range 32).foldl (fun s c =>
    if on a c = on b c then s else modChan c (fun y => { y with vecUsed := y.vecUsed + on b c - on a c }) s) s

/-- Whether the vector share and T1 take an index that changes from `a` to `b` (R173, R206). -/
def vecRoom (s : State) (a : Option VIndex) (b : VIndex) : Bool :=
  let on (c : Nat) : Nat := match a with | some x => x.blocksOn c | none => 0
  let held (r : Nat) : Nat := match a with | some x => x.t1Tiles s r | none => 0
  ((List.range 32).all fun c => b.blocksOn c ≤ on c || (chanOf s c).vecUsed + b.blocksOn c - on c ≤ vecShare s) &&
  (List.range 8).all fun r => b.t1Tiles s r ≤ held r + t1FreeIn s r

/-- Give an index its new value. -/
def setIndex (x : VIndex) (s : State) : State := modIndex x.id (fun _ => x) (accountVec (vindex? s x.id) (some x) s)

/-- Tiles of an index are freed in T2. -/
def eraseTiles (ts : List VTile) (s : State) : State := ts.foldl (fun s t => eraseT2 t.ch t.block s) s

/-- A tile of an index takes a free logical block of its channel. -/
def takeTile (id : Nat) (w : Nat × VPart × Nat) (s : State) : State :=
  match t2Run s w.1 1 with
  | some b => modIndex id (fun x => { x with tiles := x.tiles ++ [{ ch := w.1, part := w.2.1, k := w.2.2, block := b }] }) s
  | none => s

/-- A tile is programmed, encrypted under the tenant's key (R189, R211, R407). -/
def writeTile (x : VIndex) (t : VTile) (s : State) : State :=
  writeT2 (tenantKey s x.tenant) t.ch t.block (x.tileBytes t) (modChan t.ch (fun c => { c with wear := c.wear + 1 }) s)

/-- T2 holds what is durable of an index: its tiles take their blocks, those that hold an update of `seqs` or are new are programmed, and
those that hold nothing any more are freed (R216, R217, R224). -/
def program (id : Nat) (seqs : List Nat) (s : State) : State :=
  match vindex? s id with
  | none => s
  | some x =>
    let want := x.wanted
    let kept := x.tiles.filter fun t => want.contains (t.ch, t.part, t.k)
    let s := modIndex id (fun x => { x with tiles := kept }) (eraseTiles (x.tiles.filter fun t => !kept.contains t) s)
    let s := (want.filter fun w => !kept.any fun t => (t.ch, t.part, t.k) = w).foldl (fun s w => takeTile id w s) s
    match vindex? s id with
    | none => s
    | some y =>
      (y.tiles.filter fun t => !kept.contains t || (y.seqsIn t).any seqs.contains).foldl (fun s t => writeTile y t s) s

/-- An index leaves the module: its storage is freed. -/
def freeIndex (x : VIndex) (s : State) : State :=
  let s := eraseTiles (x.tiles ++ x.stale.flatMap (·.tiles)) (accountVec (some x) none s)
  { s with vec := { s.vec with idxs := s.vec.idxs.filter (·.id ≠ x.id) } }

/-- Dropped indexes without a query left are freed (R212). -/
def reapIndexes (s : State) : State :=
  (s.vec.idxs.filter fun x => x.dropped && x.queries.isEmpty).foldl (fun s x => freeIndex x s) s

/-! ### The work of the channel engines (R210, R227 to R229) -/

/-- Change the first element of a list that equals another. -/
def replaceFirst {α : Type} [DecidableEq α] (a b : α) : List α → List α
  | [] => []
  | x :: l => if x = a then b :: l else x :: replaceFirst a b l

/-- A piece of work takes a stage. -/
def setStage (w : VWork) (st : VStage) (s : State) : State :=
  { s with vec := { s.vec with work := replaceFirst w { w with stage := st } s.vec.work } }

/-- Pieces of work come to the engines. -/
def addWork (ws : List VWork) (s : State) : State := { s with vec := { s.vec with work := s.vec.work ++ ws } }

/-- A channel engine. -/
def engOf (s : State) (ch : Nat) : VEng := findD ch s.vec.engs {}

/-- BULK_MIN_PCT as taken (R235). -/
def bulkMin (s : State) : Nat := min 90 (wfield s.regs.vecCfg 0 7)

/-- The commands that an engine has granted in the last 1 ms. -/
def VEng.recent (e : VEng) (t : Nat) : List (Nat × Bool) := e.grants.filter fun g => t < g.1 + 1000000

/-- Whether bulk work has had less than BULK_MIN_PCT of the channel's bus time over the last 1 ms (R227). A command is taken as one tile of
64 KiB at 3,600 MB/s: 18,204 ns (log entry 161). -/
def bulkOwed (s : State) (e : VEng) : Bool :=
  (((e.recent (now s)).filter (·.2)).length * 18204 * 100 : Nat) < bulkMin s * 1000000

/-- How far a context lies behind an engine's pointer. -/
def VWork.behind (ptr : Nat) (w : VWork) : Nat := ((w.ctx?.getD 0) + 1024 - ptr % 1024) % 1024

/-- The context that issues an engine's next NAND command: interactive contexts first, bulk ones first while bulk is owed bus time, each by
the rotating pointer; a context has one command outstanding (R227). -/
def nextRead (s : State) (ch : Nat) : Option VWork :=
  let ws := engWork s ch
  let busy := (ws.filter VWork.reads).filterMap VWork.ctx?
  let ready := ws.filter fun w => match w.stage with | .ready c => !busy.contains c | _ => false
  let bulk := ready.filter (·.bulk)
  let inter := ready.filter (!·.bulk)
  let e := engOf s ch
  leastBy (fun w => [w.behind e.ptr]) (if !bulk.isEmpty && (inter.isEmpty || bulkOwed s e) then bulk else inter)

/-- An engine's contexts issue their NAND commands, up to 256 outstanding on the channel; `n` bounds them. -/
def issueNand (ch : Nat) : Nat → State → State
  | 0, s => s
  | n + 1, s =>
    match nextRead s ch with
    | none => s
    | some w =>
      if nandCmds s ch ≥ 256 then hit 26 s
      else
        let c := w.ctx?.getD 0
        let e := engOf s ch
        let e : VEng := { ptr := (c + 1) % 1024, grants := e.recent (now s) ++ [(now s, w.bulk)] }
        let s := setStage w (.reading c) s
        issueNand ch n { s with vec := { s.vec with engs := putN ch e s.vec.engs } }

/-- Every engine's contexts issue their commands. -/
def issueAll (s : State) : State := (List.range 32).foldl (fun s ch => issueNand ch 256 s) s

/-- The work of an index's query, update, pass or batch. -/
def workOf (s : State) (id : Nat) (o : VOwner) : List VWork := s.vec.work.filter fun w => w.idx = id && decide (w.owner = o)

/-- Owners whose scans or re-ranks of a list are in flight. -/
def scanning (s : State) (id list : Nat) : List VOwner :=
  (s.vec.work.filter fun w => w.idx = id && w.ctx?.isSome && (decide (w.job = .scan list) || decide (w.job = .rerank list))).map (·.owner)

/-- Replaced runs that no scan in flight reads any more are freed (R226). -/
def releaseStale (id : Nat) (s : State) : State :=
  match vindex? s id with
  | none => s
  | some x =>
    let held (t : VStale) : Bool := t.owners.any (scanning s id t.list).contains
    let gone := x.stale.filter fun t => !held t
    if gone.isEmpty then s else eraseTiles (gone.flatMap (·.tiles)) (setIndex { x with stale := x.stale.filter held } s)

/-- A closed batch whose pass is complete has served its requests. -/
def endBatch (id num : Nat) (s : State) : State :=
  let s := modIndex id (fun x => { x with batches := x.batches.filter (·.num ≠ num) }) s
  { s with vec := { s.vec with work := s.vec.work.filter fun w => !(w.idx = id && decide (w.stage = .batched num)) } }

/-- Outstanding commands of some work complete, and with each the piece of work that issued it (log entry 161); contexts that stalled
issue theirs. -/
def endReads (p : VWork → Bool) (s : State) : State :=
  let done := s.vec.work.filter fun w => w.reads && p w
  let s := { s with vec := { s.vec with work := s.vec.work.filter fun w => !(w.reads && p w) } }
  let s := done.foldl (fun s w => match w.owner with | .batch n => endBatch w.idx n s | _ => s) s
  issueAll ((done.map (·.idx)).eraseDups.foldl (fun s id => releaseStale id s) s)

/-- A batch closes: its pass is forwarded to the list's engine (R229). -/
def closeBatch (x : VIndex) (b : VBatch) (s : State) : State :=
  let s := modIndex x.id (fun x => { x with batches := x.batches.map fun y => if y.num = b.num then { y with closed := true } else y }) s
  addWork [{ idx := x.id, owner := .batch b.num, bulk := true, ch := x.chanOf b.list, own := false, job := .scan b.list, stage := .queued }]
    { s with vec := { s.vec with passes := sat (s.vec.passes + 1) 32 } }

/-- A scan joins the open bulk batch of its list, or opens one; the 512th request closes it (R229). -/
def joinBatch (x : VIndex) (qseq list : Nat) (w : VWork) (s : State) : State :=
  match x.batches.find? fun b => b.list = list && !b.closed with
  | none =>
    let n := s.vec.batchNo
    let s := modIndex x.id (fun x => { x with batches := x.batches ++ [{ num := n, list := list, opened := now s, reqs := [qseq] }] }) s
    setStage w (.batched n) { s with vec := { s.vec with batchNo := n + 1 } }
  | some b =>
    let c : VBatch := { b with reqs := b.reqs ++ [qseq] }
    let s := setStage w (.batched b.num)
      (modIndex x.id (fun x => { x with batches := x.batches.map fun y => if y.num = b.num then c else y }) s)
    if c.reqs.length ≥ 512 then closeBatch x c s else s

/-- A piece of a query's work is sent: a bulk list scan to the batch of its list, the coordinator's own to its context, any other to the
forward queue of its engine, in arrival order (R210, R228, R229). -/
def sendItem (x : VIndex) (q : VQuery) (w : VWork) (s : State) : State :=
  match w.job, q.bulk with
  | .scan l, true => joinBatch ((vindex? s x.id).getD x) q.qseq l w s
  | _, _ => setStage w (if w.own then .ready q.ctx else .queued) s

/-- A coordinator context sends the work that it holds, with at most 64 items of forwarded work outstanding (R228). -/
def sendHeld (x : VIndex) (q : VQuery) (s : State) : State :=
  ((workOf s x.id (.query q.qseq)).filter fun w => decide (w.stage = .held)).foldl (fun s w =>
    if w.own || outWork s x.id q.qseq < 64 then sendItem x q w s else hit 25 s) s

/-- The rounds of work of a query: those of its search; the pass of a bulk batch re-ranks what it scans (R229). -/
def VIndex.plan (x : VIndex) (q : VQuery) : List (List VJob) :=
  let f := x.search (x.queryVec q.raw) (x.querySketch q.raw) q.snap (readAsk q.raw)
  let kept (j : VJob) : Bool := match j with | .rerank _ => !q.bulk || x.graph | _ => true
  (f.rounds.map (·.filter kept)).filter (!·.isEmpty)

/-- A query goes on: it sends what it still holds, or, where all it sent is done, its next round. -/
def goOn (id qseq : Nat) (s : State) : State :=
  match vindex? s id with
  | none => s
  | some x =>
    match x.queries.find? fun q => q.qseq = qseq && q.active with
    | none => s
    | some q =>
      if !(workOf s id (.query qseq)).isEmpty then issueAll (sendHeld x q s)
      else match (x.plan q)[q.round]? with
        | none => s
        | some jobs =>
          let item (j : VJob) : VWork :=
            { idx := id, owner := .query qseq, bulk := q.bulk, ch := x.jobChan j, own := decide (x.jobChan j = q.ch), job := j, stage := .held }
          let s := modIndex id (fun y => { y with queries := y.queries.map fun p => if p.qseq = qseq then { p with round := q.round + 1 } else p }) s
          issueAll (sendHeld x q (addWork (jobs.map item) s))

/-- Whether all of a query's rounds have been sent and done. -/
def queryThrough (s : State) (x : VIndex) (q : VQuery) : Bool :=
  (workOf s x.id (.query q.qseq)).isEmpty && (x.plan q).length ≤ q.round

/-- What an engine of a closed batch reads for a query, or for the query alone. -/
def worksFor (x : VIndex) (qseq : Nat) (w : VWork) : Bool :=
  w.idx = x.id && match w.owner with
    | .query n => n = qseq
    | .batch n => x.batches.any fun b => b.num = n && b.reqs.contains qseq
    | _ => false

/-- A query's work in contexts completes, round after round, until some of it waits for an engine or a batch; `n` bounds the rounds. -/
def finishWork (id qseq : Nat) : Nat → State → State
  | 0, s => s
  | n + 1, s =>
    match vindex? s id with
    | none => s
    | some x =>
      if s.vec.work.any (fun w => worksFor x qseq w && w.reads) || (workOf s id (.query qseq)).isEmpty then
        finishWork id qseq n (goOn id qseq (endReads (worksFor x qseq) s))
      else s

/-- The engines go on while no command waits: the outstanding NAND commands complete, and the queries go on (log entry 161). -/
def engines (s : State) : State :=
  if s.vec.work.isEmpty then s
  else (s.vec.idxs.flatMap fun x => (x.queries.filter (·.active)).map fun q => (x.id, q.qseq)).foldl (fun s p => goOn p.1 p.2 s)
    (endReads (fun _ => true) s)

/-- An engine takes the first item of its forward queue into a forwarded-work context (R228). -/
def takeWork (ch : Nat) (s : State) : State :=
  if engFwd s ch ≥ 768 then hit 23 s
  else match (engWork s ch).find? fun w => decide (w.stage = .queued) with
    | none => s
    | some w =>
      let used := ((engWork s ch).filter (!·.own)).filterMap VWork.ctx?
      issueNand ch 256 (setStage w (.ready (leastOut used 768 256)) s)

/-- Whether work of an owner waits for an engine. -/
def workWaits (s : State) (id : Nat) (o : VOwner) : Bool := (workOf s id o).any (!·.reads)

/-- The writes of an update or a pass are forwarded to the engines of some channels (R210). -/
def sendWrites (x : VIndex) (o : VOwner) (bulk : Bool) (chans : List Nat) (s : State) : State :=
  addWork (chans.map fun ch => { idx := x.id, owner := o, bulk := bulk, ch := ch, own := false, job := .write, stage := .queued }) s

/-! ### Publication (R218) -/

/-- Whether the tiles of a graph insert have filled: those of the node versions that it wrote, and that of its vector. -/
def VIndex.graphFull (x : VIndex) (slot seq : Nat) : Bool :=
  let full (u : VUnit) : Bool := decide ((x.units.countP fun v => v.ch = u.ch && v.unit / 16 = u.unit / 16) = 16)
  (x.units.filter (·.seq = seq)).all full &&
  decide (((x.areaRow slot / x.areaPer + 1) * x.areaPer - 1) * max 1 x.chans.length + slot % max 1 x.chans.length < x.gens.length)

/-- Whether the tiles of an update are being programmed: an insert whose tail has been flushed or whose tiles have filled; every other
update (R224). -/
def VIndex.programming (x : VIndex) (u : VUpd) : Bool :=
  match u.pos with
  | none => true
  | some k =>
    let n := (x.listRecs u.list).length
    let full (per : Nat) : Bool := k < n / per * per
    u.flushed || (if x.graph then x.graphFull k u.seq else full (perTile x.recBytes) && full (perTile x.vecBytes))

/-- PUBLISHED_SEQ: every update at or below it is durable. -/
def VIndex.published (x : VIndex) : Nat :=
  match ((x.waiting.filter (!·.durable)).map (·.seq)).min? with
  | some u => u - 1
  | none => x.updates

/-- Answer an update with its own words, or with a failure. -/
def answerUpd (st : Nat) (u : VUpd) (s : State) : State :=
  match u.answer with
  | none => s
  | some (h, op, a, b, c) => if st = 0 then completeOp h op 0 s { a := a, b := b, c := c } else completeOp h op st s

/-- PUBLISHED_SEQ advances and what it covers is answered, in SEQ order. -/
def publish (id : Nat) (s : State) : State :=
  match vindex? s id with
  | none => s
  | some x =>
    let p := x.published
    let done := sortKey (fun u => [u.seq]) (x.waiting.filter (·.seq ≤ p))
    let log := if p = x.pub then x.pubLog else x.pubLog ++ [(now s, p)]
    let s := setIndex { x with pub := p, waiting := x.waiting.filter (p < ·.seq), pubLog := log } s
    done.foldl (fun s u => answerUpd 0 u s) s

/-! ### How a query ends (R223, R232) -/

/-- The header and entries of a result. -/
def resultOf (x : VIndex) (p : VAsk) (snap st : Nat) (f : VFound) : Bytes :=
  le 0x48 1 ++ le st 1 ++ le f.hits.length 2 ++ le x.id 2 ++ le (sat f.probed 16) 2 ++ le p.tag 8 ++ le snap 8 ++ le (sat f.found 32) 4 ++
  zeros 4 ++ f.hits.flatMap fun h =>
    le h.rcd.id.toNat 8 ++ le h.rcd.slot 4 ++ le h.rcd.gen 3 ++ zeros 1 ++ le h.dist.toNat 4 ++ le h.ham 2 ++ zeros 2

/-- Bytes go to a query's result buffer: host memory, or the staging window of the node that forwarded it (R257, R358). -/
def writeResult (q : VQuery) (b : Bytes) (s : State) : State :=
  match q.hdr.fwd with
  | none => rdmaWrite q.hdr.qp q.buf.rkey q.buf.addr b s
  | some (node, job) =>
    (List.range (ceilDiv b.length 128)).foldl (fun s i =>
      let line := slice b (128 * i) 128
      issue 2 0 node job { op := 2, addr := node * 2 ^ 48 + q.buf.addr + 128 * i, mask := 2 ^ line.length - 1, data := fit line 128 } .none s) s

/-- A query leaves its index; a dropped index without queries is freed. -/
def leaveIndex (id qseq : Nat) (s : State) : State :=
  match vindex? s id with
  | none => s
  | some x =>
    let bs := (x.batches.map fun b => { b with reqs := b.reqs.filter (· ≠ qseq) }).filter (!·.reqs.isEmpty)
    let s := sweepWork (setIndex { x with queries := x.queries.filter (·.qseq ≠ qseq), batches := bs } s)
    reapIndexes (issueAll (releaseStale id s))

/-- A query ends: an admitted one writes its result; then its completion (R257, R263). -/
def endQuery (x : VIndex) (q : VQuery) (st : Nat) (f : VFound) (s : State) : State :=
  let short := st = 0x40 || st = 0x41
  if q.active then
    let b := resultOf x (readAsk q.raw) q.snap st f
    let s := { s with vec := { s.vec with queries := sat (s.vec.queries + 1) 32,
                                          short := if short then sat (s.vec.short + 1) 32 else s.vec.short } }
    let s := writeResult q b s
    let s := leaveIndex x.id q.qseq s
    completeOp q.hdr 0x24 st s { a := f.hits.length, b := b.length, c := q.snap }
  else completeOp q.hdr 0x24 st (leaveIndex x.id q.qseq s)

/-- Everything in flight on the indexes that are degraded ends with INDEX_DEGRADED (R234). The updates never become durable. -/
def endDegraded (s : State) : State :=
  (s.vec.idxs.filter (vecDegraded s)).foldl (fun s x =>
    let s := x.waiting.foldl (fun s u => answerUpd 0x45 u s) (setIndex { x with waiting := x.waiting.map fun u => { u with answer := none } } s)
    x.queries.foldl (fun s q => endQuery x q 0x45 {} s) s) s

/-- An index without what an insert did, its slot free again: the insert counts as durable with nothing to show (log entry 162). -/
def VIndex.undo (x : VIndex) (u : VUpd) : VIndex :=
  let gone := (x.recs.filter (·.seq = u.seq)).map (·.slot)
  let shift (v : VUpd) : VUpd :=
    if v.seq = u.seq then { v with durable := true, answer := none }
    else if !x.graph && v.list = u.list then { v with pos := v.pos.map fun k => if u.pos.getD k < k then k - 1 else k }
    else v
  ({ x with recs := (x.recs.filter (·.seq ≠ u.seq)).map fun (r : VRec) => { r with edges := r.edges.filter (·.1 ≠ u.seq) }
            entries := (x.entries.filter (·.1 ≠ u.seq)).map fun e => (e.1, e.2.filter fun v => !gone.contains v)
            freeSlots := x.freeSlots ++ gone, waiting := x.waiting.map shift } : VIndex).placeUnits

/-- A query, update or pass that issued a read that failed ends: VECTOR_READ_FAIL; a batch's read is every request's (R234). -/
def ownerFails (x : VIndex) (o : VOwner) (s : State) : State :=
  match o with
  | .query n => ((x.queries.filter (·.qseq = n)).foldl (fun s q => endQuery x q 0x4C {} s) s)
  | .batch n =>
    let reqs := (x.batches.filter (·.num = n)).flatMap (·.reqs)
    (x.queries.filter fun q => reqs.contains q.qseq).foldl (fun s q => endQuery x q 0x4C {} s) s
  | .update n =>
    (x.waiting.filter (·.seq = n)).foldl (fun s u => publish x.id (answerUpd 0x4C u (sweepWork (setIndex (x.undo u) s)))) s
  | .repair => issueAll (sweepWork (setIndex { x with repairing := none } s))

/-- An uncorrectable read on a channel ends what issued it (R234): of the work in the contexts of its engine, that on the index that holds
the block. Which of these it was the command does not say (log entry 3). -/
def vecReadFail (ch block : Nat) (s : State) : State :=
  let holds (x : VIndex) : Bool := x.tiles.any fun t => t.ch = ch && t.block = block
  let ws := (engWork s ch).filter fun w => w.ctx?.isSome
  let cands := if s.vec.idxs.any holds then ws.filter fun w => ((vindex? s w.idx).map holds).getD false else ws
  match cands[Config.nandReader ch block % (cands.length + 1)]? with
  | none => s
  | some w =>
    match vindex? s w.idx with
    | none => s
    | some x => ownerFails x w.owner (logTo [x.tenant] 2 4 (unitChannel ch) 0x0701 x.id s)

end Sys2Proof.Machine
end

