-- ==== Sys2Proof/Machine/Fence.lean ====
section
/-!
DEFINITION. Sys2Proof/Machine/Fence.lean: what is fenced and what that costs (R28, R69, R70, R191, R430 to R438): the shared
operations that every detection of a fault and every injection ends in.
-/
namespace Sys2Proof.Machine
open Sys2Proof

/-! ### Placement (R28) -/

/-- The placement that R28 gives for the fenced tiles under an image: its kind and index; none where it gives none. -/
def placementFor (i : Image) (tiles : List Nat) : Option (Nat × Nat) :=
  match tiles with
  | [] => some (0, 0)
  | [t] => if i.tileLoss.any (·.1 = t) then some (1, t) else none
  | t :: l =>
    if l.all (fun u => u / 6 = t / 6) && i.regionLoss.any (·.1 = t / 6) then some (2, t / 6) else none

/-- Whether the active image, where there is one, has a placement for the fenced tiles. -/
def placeable (s : State) : Bool :=
  match s.img.active with
  | some i => (placementFor i s.err.tiles).isSome
  | none => true

/-- Put a number in a rising list without repeats. -/
def addTo (n : Nat) : List Nat → List Nat
  | [] => [n]
  | m :: l => if n = m then m :: l else if n < m then n :: m :: l else m :: addTo n l

/-! ### Leaving service (R438) -/

/-- What waits on the host port for a queue pair that is READY leaves before the queue pairs move to ERROR: R438 has the event logged
first (log entry 29). -/
def lastRecords (s : State) : State :=
  let p := portOf s 0
  let up := (s.hst.qps.filter (·.2.st = 2)).map (·.1)
  if s.hst.linkUp && s.hst.txOn then
    ((p.queues.flatMap (·.2.frames)).filter fun f => up.any fun qp => frameOfQp qp f).foldl (fun s f => match f.outs with
      | some o => emit o s
      | none => s) s
  else s

/-- The module leaves service at chip level. -/
def leaveService (cause : Nat) (sound : Bool) (s : State) : State :=
  if s.err.chipOut then s
  else
    let s := logAll 3 6 (unitChip 0) 0x0206 cause s
    let s := { s with err := { s.err with chipOut := true, unsound := !sound }, pwr := { s.pwr with bootStage := 12 } }
    let s := allQpError (lastRecords s)
    if sound then sendNotice s
    else (List.range 32).foldl (fun s l =>
      let st := (linkOf s l).st
      if st = 0 || st = 6 then s else linkDown l (some 10) (st = 5) s) s

/-! ### Sessions lost (R434) -/

/-- The jobs whose sessions, lost here, this module restores: those it is the cobbler of, and those whose lost handle it is the slot home
of, while the job is ACTIVE (R434, log entry 176). -/
def jobsToRestore (xs : List Sess) (s : State) : List Nat :=
  (xs.filterMap fun x => (x.job.bind (job? s)).bind fun j =>
    if j.map.state = 2 && (j.map.cobbler = selfNode s || homeNode s j.map x.e.handle = selfNode s) then some j.map.job else none).eraseDups

/-- Sessions were lost locally: a capture that still had to read one of them fails (R442), and what this module is to restore is owed. -/
def afterLoss (xs : List Sess) (s : State) : State :=
  let s := if xs.any fun x => captureReads s x.e.handle then ckpFail 0x63 s else s
  (jobsToRestore xs s).foldl (fun s j => oweRestore j s) s

/-- Sessions are lost locally; one event carries their count. -/
def loseMany (idxs : List Nat) (unit level : Nat) (s : State) : State :=
  let alive := idxs.filter fun i => (sess? s i).any fun x => x.e.state ≠ .ash
  let xs := alive.filterMap (sess? s)
  let s := alive.foldl (fun s i => loseSession i s) s
  if alive.isEmpty then s else afterLoss xs (logAll 2 level unit 0x0208 alive.length s)

/-! ### The hardware session table (R69, R70) -/

/-- The order in which the tracker adopts entries. -/
def adoptGroup (e : Entry) : Nat :=
  match e.state with
  | .live => 0
  | .waking | .banking | .moving => 1
  | .ember => if e.pinned then 2 else 3
  | .suspect => if e.pinned then 2 else 4
  | .banked => if e.pinned then 2 else 5
  | .ash | .free => 6

/-- The entries the tracker adopts, each at the INDEX it had in the hardware table (R70 gives it none; DESIGN CHOICE, log entry 131): from the 65,536 most recently used ones of the cache, or from the surviving copy of the
table where both cache banks are lost. -/
def adopted (s : State) : List Nat :=
  let key (p : Nat × Sess) : List Nat := [adoptGroup p.2.e, 2 ^ 64 - p.2.e.lastUse, p.1]
  let recent := (sortBy (fun a b => lexLe [2 ^ 64 - a.2.e.lastUse, a.1] [2 ^ 64 - b.2.e.lastUse, b.1]) s.ses.table).take 65536
  let from_ := if s.ses.cacheLost.length ≥ 2 then s.ses.table else recent
  (((sortBy (fun a b => lexLe (key a) (key b)) from_).filter fun p => adoptGroup p.2.e < 6).take 4096).map (·.1)

/-- A session that the tracker does not adopt is lost locally and answers SESSION_UNAVAILABLE. -/
def notAdopted (idx : Nat) (s : State) : State :=
  match sess? s idx with
  | none => s
  | some x =>
    if x.e.state = .ash then freeEntry idx s
    else
      let s := freeEntry idx (reclaim idx (loseSession idx s))
      { s with ses := { s.ses with unavailable := s.ses.unavailable ++ [x.e.handle] } }

/-- The hardware session table is fenced: the tracker takes over, or the module leaves service. -/
def fenceTable (s : State) : State :=
  if s.ses.tableFenced then s
  else
    let s := logAll 2 6 (unitChip 0x35) 0x020B 0 { s with ses := { s.ses with tableFenced := true } } false
    match s.img.active with
    | none => s
    | some i =>
      if i.log2 = 0 then s
      else if !i.tracker then leaveService 12 true s
      else
        let keep := adopted s
        let gone := (s.ses.table.map (·.1)).filter fun k => !keep.contains k
        let xs := (s.ses.table.filter fun p => gone.contains p.1 && p.2.e.state ≠ .ash).map (·.2)
        let n := xs.length
        let s := gone.foldl (fun s k => notAdopted k s) s
        afterLoss xs (logAll 2 6 (unitChip 0x35) 0x0208 n { s with ses := { s.ses with tracker := 1 } })

/-- A USE 5 bank is lost: with the second the table is fenced (R29, R433). -/
def loseCache (bank : Nat) (s : State) : State :=
  let l := addTo bank s.ses.cacheLost
  let s := { s with ses := { s.ses with cacheLost := l } }
  if l.length ≥ 2 then fenceTable s else s

/-- The USE 5 banks of a tile. -/
def cacheBanks (s : State) (t : Nat) : List Nat := ((List.range 64).map (64 * t + ·)).filter fun b => (bankOf s b).home = 5

/-! ### Regions (R436) -/

/-- Whether a session is held in a region (R175): all of its committed state must lie in T0 on tiles of other regions. -/
def heldIn (s : State) (r : Nat) (p : Nat × Sess) : Bool :=
  let x := p.2
  match x.e.state with
  | .free | .ash => false
  | _ => x.e.place ≠ 0 || x.st.rows.any (fun r => r.pages.any fun q => q.tier ≠ 0) || (List.range 6).any fun i => 0 < sessOn s p.1 x (6 * r + i)

/-- The jobs whose window on this module meets a region. -/
def windowJobs (s : State) (r : Nat) : List Nat :=
  let meets (w : Nat × Nat × Nat × Nat × Nat) : Bool := w.2.1 < (r + 1) * 0x3000000000 && r * 0x3000000000 < w.2.1 + w.2.2.1 * 4096
  (s.map.jobs.map (·.1)).filter fun j => (windows s j).any meets

/-- REPORT kind 1 naming this module goes to a job's cobbler. -/
def reportSelf (job : Nat) (s : State) : State :=
  match job? s job with
  | none => s
  | some j =>
    let me := selfNode s
    if j.map.cobbler = me then tearDown job [me] s else sendLace j.map.cobbler 11 (ownHdr j) (le 1 1 ++ zeros 1 ++ le me 2 ++ le 0 4) s

/-- The tiles of a region. -/
def sixTiles (r : Nat) : List Nat := (List.range 6).map (6 * r + ·)

/-- A region and the tiles of it that were not fenced yet are recorded, counted and logged; its NAND channels go with it, and MIRROR_DEGRADED
is set where it holds a mirrored copy (R199). -/
def markRegion (r cause : Nat) (s : State) : State :=
  let new := (sixTiles r).filter fun t => !s.err.tiles.contains t
  let s := { s with
    err := { s.err with
      regions := addTo r s.err.regions, tiles := (sixTiles r).foldl (fun l t => addTo t l) s.err.tiles,
      tileFences := sat (s.err.tileFences + new.length) 16 },
    atn := { s.atn with lab := s.atn.lab.filter fun e => e.tile / 6 ≠ r } }
  let out (k : Nat) : Bool := s.err.regions.contains k
  let s := { s with mem := { s.mem with degraded := s.mem.degraded || (s.img.active.isSome && (out s.mem.mirrorA || out s.mem.mirrorB)) } }
  let s := logAll 2 4 (unitRegion 0x24 r 0) 0x0205 cause s
  let s := new.foldl (fun s t => logAll 2 3 (unitTile t) 0x0202 cause s) s
  endDegraded ((List.range 4).foldl (fun s i => modChan (4 * r + i) (fun c => { c with fenced := true }) s) s)

/-- The units whose backing lies in tiles that are lost are dirty (R175). -/
def loseBacking (w : Wt) (fmt : Nat) (lost : List Nat) (st : Store) : Store :=
  let gone (u : Nat) : Bool := lost.contains (u / 16)
  let page (p : Page) : Page :=
    match p.tier, p.slot with
    | 0, some k =>
      { p with dirty := (List.range (unitsPerPage w fmt)).filter fun u => p.dirty.contains u || gone (slotUnit w fmt k + u) }
    | _, _ => p
  { st with rows := st.rows.map (fun r => { r with pages := r.pages.map page }),
            recDirty := if st.recBacked then (List.range (stateUnits w)).filter fun u => st.recDirty.contains u || gone u else [] }

/-- What a region held is lost. Units of T0 whose backing lay in the region are dirty; their backing is to have tiles in another (R175).
`lost` gives the tiles of each session that lay there. -/
def regionSessions (r : Nat) (held : List Nat) (lost : List (Nat × List Nat)) (s : State) : State :=
  let s := loseMany held (unitRegion 0x24 r 0) 4 s
  lost.foldl (fun s (p : Nat × List Nat) =>
    match sess? s p.1 with
    | none => s
    | some x =>
      if x.e.place ≠ 0 || p.2.isEmpty then s
      else
        let s := modSess p.1 (fun x => { x with st := loseBacking (wtOf s x.e.ctx) (fmtOf s x.e.ctx) p.2 x.st }) s
        retile p.1 (setT1 p.1 ((t1Held s p.1).filter fun k => !p.2.contains k) s)) s

/-- The tiles that each session holds in a region. -/
def backedIn (s : State) (r : Nat) : List (Nat × List Nat) :=
  s.mem.t1Tiles.map fun p => (p.1, p.2.filter fun k => tileRegion s p.1 k = r)

/-- The four links of a region go DOWN. -/
def regionLinks (r : Nat) (s : State) : State :=
  (List.range 4).foldl (fun s i =>
    let st := (linkOf s (4 * r + i)).st
    if st = 0 || st = 6 then s else linkDown (4 * r + i) (some 10) (st = 5) s) s

/-- A copy of the session table and the cache banks that lay in the region are lost. -/
def regionTable (r : Nat) (s : State) : State :=
  let a := s.err.regions.contains s.mem.mirrorA
  let b := s.err.regions.contains s.mem.mirrorB
  let s := ((sixTiles r).flatMap (cacheBanks s)).foldl (fun s k => loseCache k s) s
  if a && b then fenceTable s else s

/-- A region is fenced: its six tiles with it; the module continues on the region-loss placement or leaves service. -/
def fenceRegion (r cause : Nat) (s : State) : State :=
  if s.err.regions.contains r then s
  else
    let held := (s.ses.table.filter (heldIn s r)).map (·.1)
    let jobs := windowJobs s r
    let lost := backedIn s r
    let s := markRegion r cause s
    if s.img.active.isNone then s
    else if !placeable s then leaveService 11 true s
    else
      let s := { s with stp := { s.stp with tileHits := (sixTiles r).foldl (fun l t => addTo t l) s.stp.tileHits } }
      regionTable r (regionLinks r (jobs.foldl (fun s j => reportSelf j s) (regionSessions r held lost s)))

/-! ### Tiles (R435) -/

/-- A tile is fenced. What follows for its contexts is done at the boundary of the step. -/
def fenceTile (t cause : Nat) (s : State) : State :=
  if s.err.tiles.contains t then s
  else
    let s := { s with
      err := { s.err with tiles := addTo t s.err.tiles, tileFences := sat (s.err.tileFences + 1) 16 },
      atn := { s.atn with lab := s.atn.lab.filter fun e => e.tile ≠ t } }
    let s := logAll 2 3 (unitTile t) 0x0202 cause s
    let caches := cacheBanks s t
    if s.img.active.isNone then s
    else if (s.err.tiles.filter (· / 6 = t / 6)).length ≥ 2 then fenceRegion (t / 6) 11 s
    else if !placeable s then leaveService 11 true s
    else caches.foldl (fun s k => loseCache k s) { s with stp := { s.stp with tileHits := addTo t s.stp.tileHits } }

/-! ### Cells (R433) -/

/-- Whether a session's recurrent state has a unit that T1 does not hold (R176). -/
def stateDirty (x : Sess) : Bool := !x.st.recState.isEmpty && (!x.st.recBacked || !x.st.recDirty.isEmpty)

/-- Whether a bank holds a unit of a session's committed state that has no other copy (R434). -/
def onlyIn (s : State) (bank : Nat) (p : Nat × Sess) : Bool :=
  let x := p.2
  let c := x.e.ctx
  let t := bank / 64
  let w := wtOf s c
  let state : Bool := (recLayersOf w).any fun l =>
    pageTile (partTiles s c 1 l) 0 p.1 = some t && storageBank s t c p.1 65536 l = some bank
  inT0 x && x.e.state ≠ .ash &&
  (x.st.rows.any (fun r => r.pages.any fun q => pageInBank bank q && !pageClean q) || (stateDirty x && state))

/-- Whether a context has a part on a tile, in the placement in force. -/
def partOn (s : State) (c t : Nat) : Bool := (placementNow s).any fun e => e.ctx = c && bit e.mask t

/-- The tiles of each attention layer of a context, in the placement in force. -/
def attnTiles (s : State) (c : Nat) : List (List Nat) := (attnLayersOf (wtOf s c)).map (partTiles s c 0)

/-- Whether a tile computes a chunk of a session: one with a retained row, or the one it writes next (R154). -/
def walksOn (s : State) (c idx t : Nat) : Bool :=
  let chunks := match sess? s idx with
    | some x => (x.e.length / 4096) :: x.st.rows.map fun (r : Row) => r.v / 32
    | none => []
  (attnTiles s c).any fun ts => chunks.any fun k => pageTile ts k idx = some t

/-- Whether the MERGE trees of a session run on a tile (R154). -/
def mergesOn (s : State) (c idx t : Nat) : Bool := (attnTiles s c).any fun ts => mergeTile ts idx = some t

/-- The contexts that a fault of a cell meets (R98): that of the bank's weights or KV; for a staging bank, whose CONTEXT field R29 leaves
uninterpreted, those with a resident adapter whose matrices it holds, which is a free value (log entries 3 and 126); for another
cell, those with work of the running step on it: a page-walk cell looks up the pages of the tile's chunks and the merge cell of t_(s mod n)
runs session s's MERGE trees (R154); any cell but these two has a share of every part on its tile (log entry 152). -/
def cellCtxs (s : State) (t c : Nat) : List Nat :=
  let live (d : Nat) : Bool := 3 ≤ (ctxOf s d).state && (ctxOf s d).state ≤ 5
  if 6 ≤ c && c < 70 then
    let b := bankOf s (64 * t + (c - 6))
    if (b.use = 1 || b.use = 2) && live b.ctx then [b.ctx]
    else if b.use = 3 then
      (List.range 4).filter fun d => live d && partOn s d t && s.stp.adapters.any fun a =>
        a.ctx = d && (a.state = 2 || a.state = 3) && Config.stagedIn (64 * t + (c - 6)) d a.id a.ver
    else []
  else
    (List.range 4).filter fun d =>
      live d && partOn s d t && s.stp.running && s.stp.lanes.any fun l =>
        l.2.turn.ctx = d && l.2.work > 0 && !l.2.paused &&
        (if c = 70 then walksOn s d l.2.turn.idx t else if c = 71 then mergesOn s d l.2.turn.idx t else true)

/-- Whether a tile lacks what R431 asks of it. -/
def tileLacks (s : State) (t : Nat) : Bool :=
  let out (c : Nat) : Bool := cellFenced s t c
  let banks := ((List.range 64).filter fun i => out (6 + i)).length
  out 70 || out 71 || (out 4 && out 5) || (out 0 && out 1 && out 2 && out 3) || (out 72 && out 73) ||
  banks ≥ max 1 (wfield s.regs.errCfg 18 7)

/-- The reserve bank that takes over for a fenced weight bank: a USE 4 bank of the same tile and context. -/
def reserveFor (s : State) (t c : Nat) : Option Nat :=
  ((List.range 64).map (64 * t + ·)).find? fun b =>
    (bankOf s b).home = 4 && (bankOf s b).homeCtx = c && (bankOf s b).use ≠ 1 && !bankFenced s b

/-- A fenced weight bank's place goes to a reserve bank; without one the tile is fenced. -/
def replaceWeights (bank : Nat) (s : State) : State :=
  let b := bankOf s bank
  if b.home ≠ 1 then s
  else match reserveFor s (bank / 64) b.homeCtx with
    | some k => modBank k (fun x => { x with use := 1, home := 1, ctx := b.homeCtx, owner := b.owner }) (returnBank k s)
    | none => fenceTile (bank / 64) 8 s

/-- A handover under way on a bank that is fenced ends with PROTECTED (R442). -/
def endHandover (bank : Nat) (s : State) : State :=
  match (bankOf s bank).pending with
  | none => s
  | some (acc, _) =>
    modBank bank (fun b => { b with pending := none }) (modAcc acc (fun a => { a with bankCode := 4, bankNo := bank, bankDone := false }) s)

/-- The backing of the pages that a fenced bank held is read in place of the lost copies (R434). -/
def readBacking (bank : Nat) (s : State) : State :=
  (pagesIn s bank).foldl (fun s idx => retile idx (modPages idx (fun _ p => pageInBank bank p && pageClean p) pageLanded s)) s

/-- A checkpoint whose capture still has to read evicted pages that only a fenced bank held fails (R376, R442). -/
def loseCapture (bank : Nat) (s : State) : State :=
  if s.ses.table.any fun p => p.2.st.kept.any fun r => r.pages.any fun q => pageInBank bank q && !pageClean q then ckpFail 0x63 s else s

/-- A cell is fenced: it leaves every arbiter, its context is faulted at the boundary (R98), what only it held is lost. -/
def fenceCell (t c cause : Nat) (s : State) : State :=
  if cellFenced s t c then s
  else
    let bank := 64 * t + (c - 6)
    let isBank := 6 ≤ c && c < 70
    let lost := if isBank then (s.ses.table.filter (onlyIn s bank)).map (·.1) else []
    let ctxs := cellCtxs s t c
    let s := { s with err := { s.err with
      cells := put (t, c) cause s.err.cells, cellFences := sat (s.err.cellFences + 1) 16 } }
    let s := logAll 2 2 (unitCell t c) 0x0201 cause s
    let s := ctxs.foldl (fun s d => modCtx d (fun x => { x with fault := x.fault.orElse fun _ => some (t, c) }) s) s
    let s := if isBank then
        let s := readBacking bank (loseMany lost (unitCell t c) 3 (loseCapture bank (endHandover bank s)))
        let s := if (bankOf s bank).home = 5 then loseCache bank s else s
        replaceWeights bank s
      else s
    if tileLacks s t then fenceTile t 8 s else s

/-! ### Salvage (R435) -/

/-- Whether a bank of a tile under salvage holds a dirty page of a session. -/
def salvageOnly (bank : Nat) (p : Nat × Sess) : Bool := p.2.st.rows.any fun r => r.pages.any fun q => pageInBank bank q && !pageClean q

/-- A salvage read meets an uncorrectable error: the sessions with units there follow R434 (R442). -/
def salvageUnreadable (bank : Nat) (s : State) : State :=
  let t := bank / 64
  let due := (s.err.salvage.filter (·.1 = t)).flatMap (·.2.2)
  let lost := (s.ses.table.filter fun p => due.contains p.1 && salvageOnly bank p).map (·.1)
  let drop (x : Nat × Nat × List Nat) : Nat × Nat × List Nat := (x.1, x.2.1, x.2.2.filter fun i => !lost.contains i)
  loseMany lost (unitCell t (6 + bank % 64)) 3 { s with err := { s.err with salvage := s.err.salvage.map drop } }

/-! ### NAND channels (R191) -/

/-- Whether a session has a unit on a channel without another readable copy. -/
def heldOn (ch : Nat) (x : Sess) : Bool :=
  match x.e.state with
  | .free | .ash => false
  | _ =>
    (match x.desc with
      | some d => d.tier = 2 && x.e.place = 2 && tileCount d.tiles ch ≠ 0
      | none => false) ||
    x.st.rows.any fun r => r.v % 32 = ch && r.pages.any fun q => q.tier = 2

/-- A channel is fenced. -/
def fenceChannel (ch : Nat) (s : State) : State :=
  if (chanOf s ch).fenced then s
  else
    let s := modChan ch (fun c => { c with fenced := true }) s
    let s := { s with err := { s.err with channels := addTo ch s.err.channels } }
    let s := endDegraded (logAll 2 4 (unitChannel ch) 0x020A ch s)
    loseMany ((s.ses.table.filter fun p => heldOn ch p.2).map (·.1)) (unitChannel ch) 4 s

/-! ### T1 (R437) -/

/-- The UNIT of the LPDDR5X channel of a T1 address. -/
def unitT1 (s : State) (a : Nat) : Nat := unitRegion 0x21 (t1Map s a).1 (t1Map s a).2.1

/-- The package of a T1 address (R171). -/
def packageOf (s : State) (a : Nat) : Nat := 3 * (t1Map s a).1 + (t1Map s a).2.1 / 4

/-- A weight source is freed; a load from it is discarded (R437). -/
def loseSource (c : Nat) (s : State) : State :=
  let s := match (ctxOf s c).source.bind (obj? s) with
    | some o => dropObj o s
    | none => s
  if (ctxOf s c).state = 2 then becomeUnloaded c false s else s

/-- An adapter container is unreadable: the version is freed, when its turns end where any bind it (R437). -/
def loseAdapter (c id ver : Nat) (s : State) : State :=
  match s.stp.adapters.find? fun a => a.ctx = c && a.id = id && a.ver = ver with
  | none => s
  | some a => if a.state ≠ 1 && adapterBound s a then setAdapter a 3 s else setAdapter a 0 s

/-- What an uncorrectable T1 read costs, by the area it hits (R437). -/
def areaLost (area : T1Area) (addr unit : Nat) (s : State) : State :=
  match area with
  | .mirrored => if s.mem.degraded then fenceTable s else logAll 0 4 unit 0x0106 addr s
  | .session idx | .pool idx => loseMany [idx] unit 4 s
  | .weightSource c => loseSource c s
  | .adapter c id ver => loseAdapter c id ver s
  | .once node stream =>
    let h := findD (node, stream) s.wlt.homes {}
    { s with wlt := { s.wlt with homes := put (node, stream) { h with lost := true } s.wlt.homes } }
  | .auditLog t =>
    let n := (audOf s t).log.length
    let s := setAud t { audOf s t with log := [] } s
    if n = 0 then s else noRingRecord t n s
  | .vecTable i =>
    endDegraded { s with vec := { s.vec with idxs := s.vec.idxs.map fun x => if x.id = i then { x with degraded := true } else x } }
  | .unused => s

/-- An uncorrectable T1 read: counted toward the package's threshold, else handled by its area. -/
def t1Fails (addr : Nat) (area : T1Area) (cause : Nat) (s : State) : State :=
  let r := (t1Map s addr).1
  let p := packageOf s addr
  let unit := unitT1 s addr
  let recent := (s.err.t1Ues.filter fun x => now s < x.2 + 1000000000) ++ [(p, now s)]
  let s := { s with err := { s.err with t1Ues := recent }, mem := { s.mem with t1Ue := sat (s.mem.t1Ue + 1) 24 } }
  let s := logAll 2 4 unit 0x0104 addr s
  if (recent.filter fun x => x.1 = p).length ≥ max 1 (wfield s.regs.errCfg 10 8) then fenceRegion r cause s
  else areaLost area addr unit s

end Sys2Proof.Machine
end

