-- ==== Sys2Proof/Machine/Activate.lean ====
section
/-!
DEFINITION. Sys2Proof/Machine/Activate.lean: a checked image takes effect at a step boundary (R28, R29, R43 to R46, R91,
R183, R460), and the reserve banks that a fallback placement claims.
-/
namespace Sys2Proof.Machine
open Sys2Proof

/-! ### Banks -/

/-- A bank takes an entry of an image (R29). A bank whose entry stays keeps what it is in use for: lent, or claimed by the fallback in
force (R46). Where the entry changes, a loan ends first, a handover that waits ends, and the bank
is cleared where its context changes or it becomes free (R46, R182, R183). -/
def setBankEntry (k e : Nat) (s : State) : State :=
  let o := field e 0 7
  let c := field e 7 2
  let u := field e 9 3
  let b := bankOf s k
  if b.owner = o && b.homeCtx = c && b.home = u then s
  else
    let s := endHandover k (returnBank k s)
    let s := modBank k (fun b => { b with owner := o, ctx := c, use := u, home := u, homeCtx := c, lent := false }) s
    let s := if b.homeCtx ≠ c || u ≠ 2 then emptyBank k s else s
    if b.homeCtx ≠ c || u = 0 then clearBank k s else s

/-- Banks `k`, `k + 1` and on take the entries of an image. -/
def setBanks : Nat → List Nat → State → State
  | _, [], s => s
  | k, e :: l, s => setBanks (k + 1) l (setBankEntry k e s)

/-- The USE 5 banks of a list of entries, by bank number. -/
def cacheOf (banks : List Nat) : List Nat := (List.range banks.length).filter fun k => bankUse (banks.getD k 0) = 5

/-- Weight banks that are fenced are stood in for by reserve banks (R433). -/
def standIn (s : State) : State :=
  (banksHome s fun k b => b.home = 1 && bankFenced s k).foldl (fun s k => replaceWeights k s) s

/-- Weight KiB that the placement in force adds to a tile for a context, relative to the primary placement (R30). -/
def addedKib (s : State) (c t : Nat) : Nat :=
  match s.img.active with
  | none => 0
  | some i =>
    let of (pl : List PlEntry) : Nat := tileKib (pl.filter (·.ctx = c)) t
    of (placementNow s) - of i.primary

/-- A fallback placement claims the reserve banks of a context on every tile to which it adds weights; lent ones are returned
first (R28, R435). -/
def claimReserve (c : Nat) (s : State) : State :=
  (List.range 48).foldl (fun s t =>
    let n := ceilDiv (addedKib s c t) 32768
    let mine := banksHome s fun k b => k / 64 = t && b.home = 4 && b.homeCtx = c && !bankFenced s k
    let have_ := (mine.filter fun k => (bankOf s k).use = 1).length
    ((mine.filter fun k => (bankOf s k).use ≠ 1).take (n - have_)).foldl (fun s k =>
      modBank k (fun b => { b with use := 1, ctx := c }) (returnBank k s)) s) s

/-- Reserve banks that no fallback needs any more are reserve again. -/
def freeReserve (s : State) : State :=
  (banksHome s fun _ b => b.home = 4 && b.use = 1).foldl (fun s k => modBank k (fun b => { b with use := 4 }) (clearBank k s)) s

/-! ### Placement in force -/

/-- The placement that R28 gives comes into force, with a region-loss placement the rest of its region fenced; none where it gives
none, and then the module leaves service. -/
def choosePlacement (s : State) : State :=
  match s.img.active with
  | none => s
  | some i =>
    match placementFor i s.err.tiles with
    | some (k, x) =>
      let s := { s with img := { s.img with placeKind := k, placeIdx := x } }
      if k = 2 then fenceRegion x 11 s else s
    | none => leaveService 11 true s

/-! ### Shaping -/

/-- A port's queues take their weights (R37). -/
def setWeights (p : Nat) (w : List Nat) (s : State) : State :=
  modPort p (fun x => { x with queues := (List.range 64).foldl (fun qs q =>
    putN q { (findD q qs {}) with weight := w.getD q 1 } qs) x.queues }) s

/-- A port without EGRESS_QUEUES weights every queue 1. -/
def plainWeights (p : Nat) (s : State) : State :=
  modPort p (fun x => { x with queues := x.queues.map fun q => (q.1, { q.2 with weight := 1 }) }) s

/-- Meters start with full buckets (R43); their counts stand. -/
def fillMeters (cfgs : List MeterCfg) (t : Nat) (ms : List (Nat × Meter)) : List (Nat × Meter) :=
  (List.range cfgs.length).foldl (fun ms n =>
    let old := findD n ms {}
    let m := Meter.full (cfgs.getD n default) t
    putN n { old with tc := m.tc, tp := m.tp, last := m.last } ms) ms

/-! ### Queue pairs and contexts -/

/-- A queue pair that an image removes enters the error state (R43). -/
def dropQps (i : Image) (s : State) : State :=
  s.hst.qps.foldl (fun s p =>
    let stays := i.qps.any fun c => c.idx = p.1
    if stays then s
    else if p.2.st = 1 then leaveReady p.1 0 s
    else qpError p.1 s) s

/-- What an activation does to a context (R96). `was` is the placement and the entry in force before it. -/
def ctxActivated (was : List PlEntry) (old : Option CtxCfg) (c : Nat) (s : State) : State :=
  let x := ctxOf s c
  match ctxCfg? s c with
  | none => if x.state = 0 then s else modCtx c (fun x => { source := x.source }) (dropLoad c s)
  | some n =>
    let own (pl : List PlEntry) : List PlEntry := pl.filter (·.ctx = c)
    if x.state = 0 then becomeUnloaded c true s
    else if (old.map (·.digest)) ≠ some n.digest then
      becomeUnloaded c true (modCtx c (fun x => { x with weights := [] }) s)
    else if own was ≠ own (placementNow s) && (x.state = 3 || x.state = 5) then
      modCtx c (fun x => { x with state := 5, ready := false }) s
    else s

/-! ### Activation -/

/-- The stage lock is released and the buffer cleared (R40). The offset register of the owner port stays as it is (R51). -/
def ImgCtl.emptied (i : ImgCtl) : ImgCtl := { i with st := 0, source := 0, stageQp := 0, staged := 0, buf := [] }

/-- IMAGE_ACTIVE. -/
def imageActive (rev : Nat) (s : State) : State := logAll 0 6 (unitChip 0) 0x0402 rev s

/-- Events raised before any image was active go to the tenants that read registers (R265, R454). -/
def releasePreEvents (s : State) : State :=
  let evs := s.hst.preEvs.held ++ s.hst.preEvs.reserve
  let s := { s with hst := { s.hst with preEvs := {} } }
  evs.foldl (fun s e => (readers s).foldl (eventTo e) s) s

/-- The hardware session table or the tracker takes the sessions; ASH entries at or above a smaller size are dropped (R43,
R69). With the hardware table fenced, an image whose TRACKER[0] is 0 takes the module out of service. The tracker runs on the control core
that holds the chip-level duties (R15, R69). -/
def sizeTable (i : Image) (s : State) : State :=
  let gone := (s.ses.table.filter fun p => p.1 ≥ tableSize i.log2 && p.2.e.state = .ash).map (·.1)
  let s := gone.foldl (fun s k => freeEntry k s) s
  if i.log2 ≠ 0 && s.ses.tableFenced && !i.tracker then leaveService 12 true s
  else { s with ses := { s.ses with tracker := if i.log2 = 0 || s.ses.tableFenced then 1 else 0 } }

/-- The regions of the two USE 5 banks, and the cache copies and mirrored copies that are lost already (R29, R173, R433). -/
def placeMirrors (i : Image) (s : State) : State :=
  let cs := cacheOf i.banks
  let a := cs.getD 0 0 / 384
  let b := cs.getD 1 0 / 384
  let out (r : Nat) : Bool := s.err.regions.contains r
  let s := { s with
    mem := { s.mem with mirrorA := a, mirrorB := b, degraded := out a || out b },
    ses := { s.ses with cacheLost := cs.filter (bankFenced s) } }
  if s.ses.cacheLost.length ≥ 2 || (out a && out b) then fenceTable s else s

/-- Bytes go into the SPI NOR. -/
def norWrite (a : Nat) (b : Bytes) (s : State) : State :=
  { s with pwr := { s.pwr with nor := writeBytes Config.norDefault a b s.pwr.nor } }

/-- A persist begins: VALID of the image store is cleared (R44, R458). -/
def beginPersist (s : State) : State :=
  if s.img.persist then norWrite 0x1000009 [readByte Config.norDefault 0x1000009 s.pwr.nor &&& 0xFE] s else s

/-- Waiting audit records of tenants that an image no longer binds are discarded and counted (R421). -/
def dropAudits (i : Image) (s : State) : State :=
  (s.sec.aud.filter fun a => !a.2.log.isEmpty && !(i.tenants.any (·.id = a.1))).foldl (fun s a =>
    noRingRecord a.1 a.2.log.length (setAud a.1 { a.2 with log := [] } s)) s

/-- Where the active image names a NODE and NODE_EPOCH other than the stored pair, the pair is replaced and issue starts at 0 (R53). -/
def issuePair (s : State) : State :=
  let pair := ((topo s).node, (topo s).nodeEpoch)
  if s.rom.issueNode = some pair then s
  else { s with rom := { s.rom with issueNode := some pair, issueEnd := 0 }, ses := { s.ses with issueNext := 0, issueEnd := 0 } }

/-- A full image takes effect (R43). -/
def activateFull (i : Image) (s : State) : State :=
  let first := s.img.active.isNone
  let revs := match s.img.active with | some o => decide (o.revision ≠ i.revision) | none => false
  let was := placementNow s
  let olds := (List.range 4).map (ctxCfg? s)
  let s := beginPersist (dropAudits i (dropQps i s))
  let img := s.img.emptied
  let s := { s with img := { img with
    active := some i, next := none, partials := [], isSealed := i.sealAct || img.sealHeld, sealHeld := false,
    draining := false, drainOver := false, storing := if img.persist then some i else img.storing,
    persistAuto := if img.persist then img.auto else img.persistAuto } }
  let s := choosePlacement (sizeTable i (issuePair s))
  let s := setBanks 0 i.banks (freeReserve s)
  let s := standIn (placeMirrors i s)
  let s := { s with shp := { s.shp with meters := fillMeters i.meters (now s) s.shp.meters } }
  let s := (List.range 33).foldl (fun s p => setGates p (find? p i.gates) s) s
  let s := (List.range 33).foldl (fun s p =>
    match find? p i.weights with
    | some w => setWeights p w s
    | none => plainWeights p s) s
  let s := (List.range 4).foldl (fun s c => ctxActivated was (olds.getD c none) c s) s
  let s := (List.range 4).foldl (fun s c => claimReserve c s) s
  let moved (c : Nat) : Bool := decide (was.filter (·.ctx = c) ≠ (placementNow s).filter (·.ctx = c))
  let s := replacePages ((List.range 4).filter moved) (lendReserve s)
  let s := if first then releasePreEvents s else s
  let s := imageActive i.revision s
  let s := if revs then { s with sec := { s.sec with revChanged := true } } else s
  let s := applyEnable s
  if first then
    { s with
      sec := { s.sec with nextEnd := (now s / 250000000 + 1) * 250000000 },
      pwr := { s.pwr with bootStage := if s.pwr.bootStage = 12 then 12 else 11 } }
  else s

/-- A partial image takes effect on its region (R45, R46). A port that it does not list keeps its gates and weights. A SEAL that the same
SEC_IMG_CMD held seals when the partial image takes effect, and FLAGS[1] of the partial image is not looked at: of R45's sentences (an
activation whose FLAGS[1] is 1 seals; the held seal is applied; a partial reload leaves the seal as it was) the model follows the second
for the command and the third for the image (DESIGN CHOICE, log entry 129). -/
def activatePartial (r : Nat) (i : Image) (s : State) : State :=
  match s.img.active with
  | none => s
  | some o =>
    let gates := i.gates.foldl (fun l p => putN p.1 p.2 l) o.gates
    let weights := i.weights.foldl (fun l p => putN p.1 p.2 l) o.weights
    let act : Image := { o with
      banks := o.banks.take (384 * r) ++ i.banks ++ o.banks.drop (384 * r + 384),
      gates := gates, weights := weights }
    let img := s.img.emptied
    let s := { s with img := { img with
      active := some act, next := none, partials := img.partials ++ [i.measured], isSealed := img.isSealed || img.sealHeld,
      sealHeld := false, draining := false, drainOver := false } }
    let s := setBanks (384 * r) i.banks s
    let s := i.gates.foldl (fun s p => setGates p.1 (some p.2) s) s
    let s := i.weights.foldl (fun s p => setWeights p.1 p.2 s) s
    imageActive i.revision (lendReserve s)

/-- Whether a checked image can take effect at this boundary: no drain is under way, or no turn is left. -/
def imageReady (s : State) : Bool :=
  s.img.st = 4 && (!s.img.draining || (s.stp.lanes.isEmpty && s.stp.queue.isEmpty))

/-- The image that is ready takes effect. -/
def activateImage (s : State) : State :=
  if imageReady s then
    match s.img.next with
    | none => s
    | some i =>
      match i.part with
      | some r => activatePartial r i s
      | none => activateFull i s
  else s

end Sys2Proof.Machine
end

