-- ==== Sys2Proof/Machine/StepEngine.lean ====
section
/-!
DEFINITION. Sys2Proof/Machine/StepEngine.lean: the step boundary (R76 to R91, R96 to R98, R390, R412, R413, R435) and the
building of a step (R84 to R86, R159, R417).
-/
namespace Sys2Proof.Machine
open Sys2Proof

/-! ### What a lane computes in a step -/

/-- What a lane's work in a step comes to: where it starts, the ids written, the storage after them, the positions sampled. -/
structure LaneRun where
  first    : Nat := 0
  ids      : List Nat := []
  st       : Store := {}
  samples  : List (Nat × Sampled) := []
  evicted  : List Row := []
  nans     : Nat := 0
  oov      : Nat := 0
  diverged : Bool := false
deriving DecidableEq, Repr, Inhabited

/-- The ids that a lane's work writes (R79, R84). -/
def Lane.ids (l : Lane) : List Nat :=
  if l.work = 0 then []
  else match l.phase with
    | .prefill => (l.turn.input.drop l.turn.inputDone).take l.work
    | .decode | .closing => l.turn.held.toList

/-- Whether the position of a turn's k-th id is sampled (R79, R390). -/
def Lane.samplesAt (l : Lane) (k : Nat) : Bool :=
  match l.turn.replay with
  | some r => (decide (r.first ≤ k) && decide (k + 1 < r.ids.length)) || (r.sampleLast && decide (k + 1 = r.ids.length))
  | none =>
    match l.phase with
    | .prefill => decide (k + 1 = l.turn.input.length)
    | .decode => true
    | .closing => false

/-- The id that a replay's sample at its k-th id must equal (R390). -/
def Lane.expects (l : Lane) (k : Nat) : Option Nat :=
  l.turn.replay.map fun r => if k + 1 < r.ids.length then r.ids.getD (k + 1) 0 else r.expectLast

/-- Write ids from position `p` on; `k` counts them within the turn. A differing sample ends the run (R390). -/
def runIds (w : Wt) (c : CtxCfg) (ad : Option Bytes) (budget : Nat) (key : Bytes) (l : Lane) :
    List Nat → Nat → Nat → LaneRun → LaneRun
  | [], _, _, r => r
  | id :: ids, p, k, r =>
    let o := writePos w c ad budget p id r.st
    let r1 : LaneRun := { r with
      ids := r.ids ++ [id], st := o.st, nans := r.nans + o.nans, oov := r.oov + (if id < w.vocab then 0 else 1),
      evicted := r.evicted ++ (match o.evicted with
        | some v => r.st.rows.filter fun x => decide (x.v = v)
        | none => []) }
    if l.samplesAt k then
      let x := sample (w.logits o.x) l.turn.samp key p
      let r2 : LaneRun := { r1 with samples := r1.samples ++ [(p, x)] }
      if (l.expects k).any fun e => decide (e ≠ x.token) then { r2 with diverged := true }
      else runIds w c ad budget key l ids (p + 1) (k + 1) r2
    else runIds w c ad budget key l ids (p + 1) (k + 1) r1

/-- A lane's work, computed from the committed state of its session (R78). -/
def runLane (s : State) (l : Lane) : LaneRun :=
  match sess? s l.turn.idx, ctxCfg? s l.turn.ctx with
  | some x, some c =>
    runIds (wtOf s l.turn.ctx) c (boundRaw s x.e) x.e.budget x.e.seedKey l l.ids x.e.length l.turn.inputDone
      { first := x.e.length, st := x.st }
  | _, _ => {}

/-! ### Commit (R78, R82 steps 1 to 3) -/

/-- A failed CHECK, or an INCONSISTENT row node: an uncorrectable error of the storage that holds the node, with an event that names the
session index and the level (R143). In T0 the bank cell is fenced (R16, R98); in T1 it is an uncorrectable T1 read (R437). -/
def ptCheck (idx : Nat) (n : Node) (s : State) : State :=
  let ev (level unit : Nat) : State := logAll 2 level unit 0x0109 (idx % 2 ^ 21 + n.level * 2 ^ 24) s
  if n.tier = 0 then
    let b := n.addr / 2 ^ 25
    fenceCell (b / 64) (6 + b % 64) 1 (ev 2 (unitCell (b / 64) (6 + b % 64)))
  else t1Fails n.addr (.session idx) 10 (ev 4 (unitT1 s n.addr))

/-- A page is looked up; what a walk meets instead of a page counts as an error of the node (R142, R143). -/
def lookPage (t a v idx : Nat) (s : State) : State :=
  match sess? s idx with
  | none => s
  | some x =>
    match labLook t a v idx x s with
    | (some (.inconsistent n), s) | (some (.failed n), s) => ptCheck idx n s
    | (_, s) => s

/-- The page-walk cells look up every page the lane reads, once in the step (R144). -/
def lookPages (l : Lane) (rows : List Row) (s : State) : State :=
  let c := l.turn.ctx
  let w := wtOf s c
  let attn := attnLayersOf w
  rows.foldl (fun s r =>
    (List.range attn.length).foldl (fun s a =>
      match pageTile (partTiles s c 0 (attn.getD a 0)) (r.v / 32) l.turn.idx with
      | some t => lookPage t a r.v l.turn.idx s
      | none => s) s) s

/-- The lookups of the step that ends now, lane by lane: what they find counts before any commit (R98, R432). -/
def stepLookups (s : State) : State :=
  (s.stp.lanes.filter fun p => p.2.work ≠ 0 && !p.2.rerun && !p.2.paused).foldl (fun s p =>
    match sess? s p.2.turn.idx with
    | some x => lookPages p.2 x.st.rows s
    | none => s) s

/-- What sampling and writing raise (R123, R128). -/
def numericCounts (r : LaneRun) (x : Sess) (s : State) : State :=
  let a := s.ari
  let n (p : Sampled → Bool) : Nat := (r.samples.filter fun y => p y.2).length
  let s := { s with ari := { a with
    nanLogits := sat (a.nanLogits + n (·.nan)) 32, allMasked := sat (a.allMasked + n (·.event)) 32,
    outOfVocab := sat (a.outOfVocab + r.oov) 32, nanBlocks := sat (a.nanBlocks + r.nans) 32 } }
  (List.range (n fun y => y.nan || y.event)).foldl
    (fun s _ => logTo [x.e.tenant] 1 6 (unitChip 0x36) 0x0801 x.e.handle.toNat s) s

/-- The turn of a lane after its work is committed. A step counts toward MIN_LANE_STEPS (R86) where it commits work of the lane: one in
which a PREFILL lane gets no tokens, or whose commit is withheld, does not (log entry 122). -/
def Lane.after (l : Lane) (r : LaneRun) : Lane :=
  let t := l.turn
  let tok := r.samples.getLast?.map fun x => x.2.token
  let t : Turn := match l.phase with
    | .prefill => { t with inputDone := t.inputDone + r.ids.length }
    | _ => t
  let t : Turn := match t.replay with
    | some _ => { t with generated := t.generated + r.samples.length }
    | none => { t with held := tok, generated := t.generated + r.samples.length }
  let t : Turn := match l.phase, t.replay, tok with
    | .prefill, none, none => { t with held := l.turn.held }
    | _, _, _ => t
  { l with turn := t, steps := l.steps + 1 }

/-- Commit a lane's work (R78, R152): LENGTH, RETAINED, LAST_USE, its rows and what they free; what a checkpoint's capture still has to
read stays (R376). -/
def commitLane (n : Nat) (l : Lane) (tb : Nat) (s : State) : LaneRun × State :=
  let r := runLane s l
  match sess? s l.turn.idx with
  | none => (r, s)
  | some x =>
    let idx := l.turn.idx
    let keep := captureReads s x.e.handle
    let s := modSess idx (fun x => { x with
      e := { x.e with length := x.e.length + r.ids.length, retained := retained r.st.rows, lastUse := tb },
      st := { r.st with kept := x.st.kept ++ (if keep then r.evicted else []) } }) s
    let s := if keep then s else r.evicted.foldl (fun s v => freeRow l.turn.ctx v s) s
    let s := labDrop (fun e => e.idx = idx && r.evicted.any (·.v = e.v)) s
    let s := { s with atn := { s.atn with evicted := sat (s.atn.evicted + r.evicted.length) 32 } }
    let s := numericCounts r x (retile idx s)
    (r, { s with stp := { s.stp with lanes := putN n (l.after r) s.stp.lanes } })

/-- Whether a lane's work of the step that ends now is committed: its session is LIVE and its commit is not withheld. -/
def commits (s : State) (held : List Nat) (l : Lane) : Bool :=
  l.work ≠ 0 && !l.rerun && !held.contains l.turn.ctx &&
  (match sess? s l.turn.idx with | some x => x.e.state = .live | none => false)

/-- Commit the lanes in ascending order. STEP_SEQ counts the step where some lane committed (R102). -/
def commitAll (held : List Nat) (tb : Nat) (s : State) : List (Nat × LaneRun) × State :=
  let rs := (s.stp.lanes.filter fun p => commits s held p.2).foldl (fun (acc : List (Nat × LaneRun) × State) p =>
    let (r, s) := commitLane p.1 p.2 tb acc.2
    (acc.1 ++ [(p.1, r)], s)) ([], s)
  let s := rs.2
  if rs.1.isEmpty then rs
  else (rs.1, { s with stp := { s.stp with seq := (s.stp.seq + 1) % 2 ^ 64 }, pwr := { s.pwr with lastWork := tb } })

/-! ### How turns end (R87, R88, R390) -/

/-- What a boundary decides for a lane. -/
inductive Fate where
  | keep
  | early (status : Nat)
  | closing (status : Nat)
  | closed
  | replayed (status : Nat)
deriving DecidableEq, Repr

/-- The event of R88 that ends a turn, the context fault apart. -/
def earlyEnd (s : State) (tb : Nat) (t : Turn) : Option Nat :=
  let close := match sess? s t.idx with | some x => x.closeReq | none => false
  if close then some 0x2B
  else if t.deadline ≠ 0 && t.deadline < tb then some 0x2A
  else if s.img.draining && s.img.drainOver then some 0x2C
  else if (ctxOf s t.ctx).state = 4 || (ctxOf s t.ctx).unload then some 0x2D
  else none

/-- The condition of R87 that a sampled token meets. -/
def normalEnd (s : State) (t : Turn) (token : Nat) : Option Nat :=
  let len := match sess? s t.idx with | some x => x.e.length | none => 0
  if t.stops.contains token then some 0x28
  else if t.generated = t.maxTokens then some 0x29
  else if len + 1 = maxPositions s t.ctx then some 0x23
  else none

/-- What the boundary decides for a lane, given its committed work. -/
def fateOf (s : State) (tb : Nat) (faulted : List Nat) (l : Lane) (r : Option LaneRun) : Fate :=
  if faulted.contains l.turn.ctx then .early 0x2E
  else if l.rerun then .keep
  else if l.phase = .closing then (if r.isSome then .closed else .keep)
  else match earlyEnd s tb l.turn with
    | some st => .early st
    | none =>
      match l.turn.replay with
      | some _ =>
        if (r.map (·.diverged)).getD false then .replayed 0x6D
        else if l.turn.inputDone = l.turn.input.length then .replayed 0x6E
        else .keep
      | none =>
        match (r.bind fun x => x.samples.getLast?) with
        | none => .keep
        | some x =>
          match normalEnd s l.turn x.2.token with
          | some st => .closing st
          | none => .keep

/-- The status that a fate gives the turn; 0 where it goes on. -/
def Fate.status : Fate → Nat
  | .early st | .closing st | .replayed st => st
  | .keep | .closed => 0

/-- Whether the lane is freed at this boundary. -/
def Fate.frees : Fate → Bool
  | .early _ | .closed | .replayed _ => true
  | .keep | .closing _ => false

/-! ### The result batch (R91, R263, R390) -/

/-- Whether a record of a turn can reach a ring, as it stands at the boundary: a record that waits may still be lost later (log entry 135). -/
def ringed (s : State) (t : Turn) : Bool :=
  t.forwarder.isSome || ((qpOf s t.qp).gen = t.qpGen && (qpOf s t.qp).st = 2 && (qpOf s t.qp).result.isSome)

/-- SUPPRESS_LATE of a turn's session. -/
def suppressed (s : State) (t : Turn) : Bool := ((sess? s t.idx).map (·.e.suppressLate)).getD false

/-- Whether a step's samples are delivered under a fate: not for a CLOSE, nor late and suppressed. -/
def delivers (s : State) (t : Turn) (f : Fate) : Bool :=
  match f with
  | .early 0x2B => false
  | .early 0x2A => !suppressed s t
  | _ => true

/-- The token records of a lane's samples. -/
def postTokens (n : Nat) (tb : Nat) (f : Fate) (r : LaneRun) (s : State) : State :=
  match find? n s.stp.lanes with
  | none => s
  | some l =>
    if delivers s l.turn f then
      let k := r.samples.length
      (List.range k).foldl (fun s i =>
        let x := (r.samples.getD i (0, default)).2
        let last := decide (i + 1 = k) && decide (f.status ≠ 0)
        let flags := (if last then 1 else 0) + (if x.nan || x.event then 2 else 0)
        let ord := l.turn.generated - k + i + 1
        let s := if ringed s l.turn then
            { s with stp := { s.stp with lanes := s.stp.lanes.map fun p =>
              if p.1 = n then (p.1, { p.2 with turn := { p.2.turn with delivered := p.2.turn.delivered + 1 } }) else p } }
          else s
        postTurn l.turn (tokenRecord s l.turn tb x.token ord (if last then f.status else 0) flags) (some (l.turn.admSeq, tb)) s) s
    else s

/-- Whether a lane's turn gets an end record: it ended, and no token of this step carries its status (R88, R91). -/
def endsAlone (s : State) (l : Lane) (f : Fate) (r : Option LaneRun) : Bool :=
  match f with
  | .early _ => l.phase ≠ .closing && !((r.map fun x => !x.samples.isEmpty).getD false && delivers s l.turn f)
  | .replayed _ => (r.map (·.samples.isEmpty)).getD true
  | _ => false

/-! ### Audit (R412, R413) -/

/-- The audit record of a lane's step. -/
def auditOf (s : State) (l : Lane) (tb : Nat) (f : Fate) (r : LaneRun) (e : Entry) : AuditRec :=
  let sampled := !r.samples.isEmpty
  let sent := sampled && delivers s l.turn f && ringed s l.turn
  let numeric := r.samples.any fun x => x.2.nan || x.2.event
  let endSt := if f = .closed then 0 else f.status
  let img := s.img.active
  { flags := placeB sampled 0 + placeB sent 1 + placeB (sent && f = .early 0x2A) 2 + placeB f.frees 3 + placeB numeric 4 +
      placeB l.turn.first 5 + placeB l.turn.replay.isSome 6
    endStatus := endSt, node := selfNode s, topK := l.turn.samp.topK % 65536, handle := e.handle, index := 0, stepSeq := s.stp.seq,
    turnSeq := e.turnSeq, epoch := e.ownerEpoch, time := tb, posFirst := r.first, posCount := r.ids.length,
    token := ((r.samples.getLast?.map fun x => x.2.token)).getD 0, adapterVersion := e.adapterVersion,
    invTemp := l.turn.samp.invTemp, topP := l.turn.samp.topP, inputDigest := sha256 (r.ids.flatMap fun i => le i 4),
    numericTag := (match img with | some i => i.numeric.take 8 | none => []),
    adapterTag := (match boundRaw s e with | some b => (adDigest b).take 8 | none => []) }

/-- Append the record of a lane's committed step. -/
def auditLane (n : Nat) (tb : Nat) (f : Fate) (r : LaneRun) (s : State) : State :=
  match find? n s.stp.lanes with
  | none => s
  | some l =>
    match sess? s l.turn.idx with
    | none => s
    | some x => if r.ids.isEmpty then s else appendAudit l.turn.idx (auditOf s l tb f r x.e) s

/-! ### Ends carried out -/

/-- A turn leaves its lane or the queue and its session returns to EMBER. A CLOSE that came while the turn ran takes the session on to
ASH, whatever ended the turn: also where a context fault comes before it in R88 (R57, log entry 121). -/
def finishTurn (t : Turn) (status : Nat) (s : State) : State :=
  let s := if status = 0x2A then { s with stp := { s.stp with missed := sat (s.stp.missed + 1) 32 } } else s
  let s := turnOver t (modEntry t.idx (endedEntry (status = 0x2A)) (dropTurn t.idx s))
  match sess? s t.idx with
  | none => s
  | some x => if x.closeReq then unlocate x (toAsh t.idx s) else s

/-- A lane takes its fate (R79). -/
def applyFate (n : Nat) (f : Fate) (worked : Bool) (s : State) : State :=
  match find? n s.stp.lanes with
  | none => s
  | some l =>
    match f with
    | .early st => finishTurn l.turn st s
    | .closed => finishTurn l.turn 0 s
    | .replayed st =>
      let s := if st = 0x6D then
          let x := sess? s l.turn.idx
          logTo [((x.map (·.e.tenant)).getD 0)] 2 6 (unitChip 0x36) 0x0305 (turnHandle s l.turn).toNat s
        else s
      finishTurn l.turn 0 s
    | .closing _ => { s with stp := { s.stp with lanes := putN n { l with phase := .closing, work := 0, turn := { l.turn with first := false } } s.stp.lanes } }
    | .keep =>
      if worked then
        let ph : Phase := if l.phase = .prefill && l.turn.held.isSome then .decode else l.phase
        { s with stp := { s.stp with lanes := putN n { l with phase := ph, work := 0, turn := { l.turn with first := false } } s.stp.lanes } }
      else s

/-- The turns of the prefill queue that end at this boundary (R88, R90). -/
def queueEnds (s : State) (tb : Nat) (faulted : List Nat) : List (Turn × Nat) :=
  s.stp.queue.filterMap fun t =>
    if faulted.contains t.ctx then some (t, 0x2E) else (earlyEnd s tb t).map fun st => (t, st)

/-- Steps 3 to 5 and 7 of R82: commits, ends, the batch, the audit records. -/
def endStep (held faulted : List Nat) (tb : Nat) (s : State) : State :=
  let (runs, s) := commitAll held tb s
  let fates := s.stp.lanes.map fun (p : Nat × Lane) => (p.1, p.2, fateOf s tb faulted p.2 (find? p.1 runs))
  let qends := queueEnds s tb faulted
  let alone := fates.filter fun f => endsAlone s f.2.1 f.2.2 (find? f.1 runs)
  let s := fates.foldl (fun s f =>
    match find? f.1 runs with
    | some r => postTokens f.1 tb f.2.2 r s
    | none => s) s
  let s := fates.foldl (fun s f =>
    match find? f.1 runs with
    | some r => auditLane f.1 tb f.2.2 r s
    | none => s) s
  let s := alone.foldl (fun s f =>
    match find? f.1 s.stp.lanes with
    | some l => endRecord l.turn tb f.2.2.status s
    | none => s) s
  let s := qends.foldl (fun s q => endRecord q.1 tb q.2 s) s
  let s := fates.foldl (fun s f => applyFate f.1 f.2.2 (find? f.1 runs).isSome s) s
  let s := qends.foldl (fun s q => finishTurn q.1 q.2 s) s
  let tens := (runs.filterMap fun r => (find? r.1 (fates.map fun f => (f.1, f.2.1.turn.idx))).bind fun i =>
    (sess? s i).map (·.e.tenant)).eraseDups
  freeRetired (tens.foldl (fun s t => deliverAudit t s) s)

/-! ### Tile fences (R435) -/

/-- The sessions with dirty units on a tile. -/
def dirtyOn (s : State) (t : Nat) : List Nat :=
  (s.ses.table.filter fun p =>
    let x := p.2
    inT0 x && x.e.state ≠ .ash &&
    ((x.st.rows.any fun r => r.pages.any fun q => pageOnTile t q && !pageClean q) ||
     (stateDirty x && stateOn s x.e.ctx p.1 t ≠ 0))).map (·.1)

/-- A context moves its weights (R96): without a source it is unloaded with its turns (R435). An unload under way waits for the rerun. -/
def moveWeights (c : Nat) (s : State) : State :=
  let s := if (sourceOf s c).isNone then
      let drop (p : Nat × Lane) : Nat × Lane := if p.2.turn.ctx = c then (p.1, { p.2 with work := 0, rerun := false }) else p
      { s with stp := { s.stp with lanes := s.stp.lanes.map drop } }
    else s
  modCtx c (fun x => { x with state := if (sourceOf s c).isNone then 4 else 5, ready := false, unload := x.state = 4 }) s

/-- The lanes of the contexts that a tile fence withholds keep their work for the rerun. -/
def holdLanes (held : List Nat) (s : State) : State :=
  let f (p : Nat × Lane) : Nat × Lane :=
    if held.contains p.2.turn.ctx && p.2.work ≠ 0 && !p.2.paused then (p.1, { p.2 with rerun := true }) else p
  { s with stp := { s.stp with lanes := s.stp.lanes.map f } }

/-- Whether a context has work that a boundary would commit. -/
def ctxWorking (s : State) (c : Nat) : Bool := s.stp.lanes.any fun p => p.2.turn.ctx = c && p.2.work ≠ 0 && !p.2.paused

/-- Tiles fenced during the step: the contexts with a part on them are withheld, the placement is chosen, and weights move. The unload
of a context whose step is withheld is put off to the boundary that commits the rerun; one with nothing to withhold is unloaded at
this boundary. -/
def takeHits (tb : Nat) (s : State) : State :=
  let hits := s.stp.tileHits
  if hits.isEmpty || s.img.active.isNone then s
  else
    let moves (c : Nat) : Bool :=
      (ctxOf s c).state = 3 || (ctxOf s c).state = 5 || ((ctxOf s c).state = 4 && ctxWorking s c && hits.any (partOn s c))
    let own (s : State) (c : Nat) : List PlEntry := (placementNow s).filter (·.ctx = c)
    let hit := (List.range 4).filter fun c => moves c && hits.any (partOn s c)
    let was := (List.range 4).map (own s)
    let keep := s.err.salvage.filter fun x => !s.err.regions.contains (x.1 / 6)
    let ms := wfield s.regs.errCfg 25 16
    let salv := (hits.filter fun t => !s.err.regions.contains (t / 6)).filterMap fun t =>
      if (dirtyOn s t).isEmpty then none else some (t, tb + ms * 1000000, dirtyOn s t)
    let s := holdLanes hit (choosePlacement s)
    let s := { s with stp := { s.stp with tileHits := [] } }
    if s.err.chipOut then s
    else
      let s := logAll 0 3 (unitTile (hits.headD 0)) 0x0203 (s.img.placeKind + s.img.placeIdx * 4) s
      let cs := (List.range 4).filter fun c => moves c && (hit.contains c || decide (was.getD c [] ≠ own s c))
      let s := { s with err := { s.err with salvage := keep ++ salv } }
      let s := if cs.isEmpty then s else
        { s with err := { s.err with switching := true, switchAt := if s.err.switching then s.err.switchAt else tb } }
      let s := cs.foldl (fun s c => moveWeights c s) (freeReserve s)
      replacePages cs ((List.range 4).foldl (fun s c => claimReserve c s) s)

/-- A context is RESIDENT. -/
def resident (x : Ctx) : Ctx := { x with state := 3, ready := false, faulted := false }

/-- Contexts whose loads or moves are complete become RESIDENT; a switch of placement ends with the last of them (R96, R435). -/
def settleContexts (tb : Nat) (s : State) : State :=
  let s := (List.range 4).foldl (fun s c =>
    if (ctxOf s c).state = 2 && (ctxOf s c).ready then modCtx c resident s else s) s
  let moving := (List.range 4).filter fun c => (ctxOf s c).state = 5
  let ready := moving.all fun c => (ctxOf s c).ready
  if ready && s.err.salvage.isEmpty then
    let s := moving.foldl (fun s c => modCtx c resident s) s
    if s.err.switching then
      let s := { s with err := { s.err with switching := false } }
      logAll 0 3 (unitChip 0) 0x0204 ((tb - s.err.switchAt) / 1000) s
    else s
  else if s.err.switching then s
  else (moving.filter fun c => (ctxOf s c).ready).foldl (fun s c => modCtx c resident s) s

/-! ### Context faults (R98) -/

/-- The contexts that are faulted at this boundary; a cell whose tile is fenced in the same step faults none (R442). -/
def faultedNow (s : State) : List Nat :=
  (List.range 4).filter fun c =>
    match (ctxOf s c).fault with
    | some (t, _) => !s.stp.tileHits.contains t && ((ctxOf s c).state = 3 || (ctxOf s c).state = 4 || (ctxOf s c).state = 5)
    | none => false

/-- A cell fault that faults no context at this boundary has had its whole effect: its tile is fenced (R442), or nothing of the context
was in use there. -/
def dropFaults (faulted : List Nat) (s : State) : State :=
  (List.range 4).foldl (fun s c => if faulted.contains c then s else modCtx c (fun x => { x with fault := none }) s) s

/-- The event of a faulted context, and its move to FAULTED. One that was being unloaded goes on to UNLOADED. -/
def faultContext (c : Nat) (s : State) : State :=
  match (ctxOf s c).fault with
  | none => s
  | some (t, k) =>
    let s := { s with err := { s.err with ctxFaults := sat (s.err.ctxFaults + 1) 16 } }
    let s := logAll 2 2 (unitCell t k) 0x0207 c s
    modCtx c (fun x => { x with fault := none, faulted := true, ready := false, unload := false, state := if x.state = 4 then 4 else 6 }) s

/-! ### Step 6: what waits for a boundary -/

/-- Adapter versions that have finished loading become CURRENT, and those they replace retire (R92, R388). -/
def adoptAdapters (s : State) : State :=
  (s.stp.adapters.filter fun a => a.state = 1 && a.loaded).foldl (fun s a =>
    match adapterIn s a.ctx a.id 2 with
    | none => setAdapter a 2 s
    | some cur => if a.ver < cur.ver then setAdapter a 3 s else retire cur (setAdapter a 2 s)) s

/-- A change of the throttle level that waits (R465). -/
def applyThrottle (s : State) : State :=
  match s.pwr.throttle with
  | none => s
  | some (level, cause) =>
    let div := [4, 5, 6, 8].getD level 4
    let s := { s with pwr := { s.pwr with
      throttle := none, level := level, cause := cause, ariDiv := div, changes := sat (s.pwr.changes + 1) 32, lastChange := now s } }
    logAll 1 6 (unitChip 0x34) (Config.eventCode 0) (level + cause * 4) s

/-- Registers, adapters, the image, the throttle and context changes take effect (R82 step 6); banks that can be lent are (R183). -/
def takeChanges (s : State) : State :=
  let s := { s with stp := { s.stp with cfg := s.regs.stpCfg, atn := s.regs.atnCfg, flush := false },
                    atn := { s.atn with lab := if s.stp.flush then [] else s.atn.lab } }
  let s := applyThrottle (activateImage (adoptAdapters s))
  let due (s : State) (c : Nat) : Bool :=
    (ctxOf s c).state = 4 ||
      ((ctxOf s c).unload && (ctxOf s c).state = 3 && !s.stp.lanes.any fun p => p.2.turn.ctx = c && p.2.rerun)
  let s := (List.range 4).foldl (fun s c => if due s c then becomeUnloaded c false s else s) s
  if s.img.active.isSome && !s.err.chipOut then lendAll s else s

/-! ### Granting lanes (R85, R86) -/

/-- Ascending class, then deadline with 0 latest, then admission sequence, then session index (R84, R85). -/
def turnKey (t : Turn) : List Nat := [t.cls, if t.deadline = 0 then 2 ^ 64 else t.deadline, t.admSeq, t.idx]

/-- The lane cap of a context (R104). -/
def laneCap (s : State) (c : Nat) : Nat := min 256 (wfield s.regs.ctxLanes (9 * c) 9)

/-- Lanes that a context holds. -/
def lanesOf (s : State) (c : Nat) : Nat := (s.stp.lanes.filter fun l => l.2.turn.ctx = c).length

/-- The lowest lane that is FREE. -/
def freeLane (s : State) : Option Nat :=
  let i := lowestFree 0 (s.stp.lanes.map (·.1))
  if i < 256 then some i else none

/-- A turn takes a lane, and its session is LIVE (R57, R79, R477). -/
def seat (t : Turn) (n tb : Nat) (s : State) : State :=
  let t : Turn := { t with tGrant := some (t.tGrant.getD tb) }
  let l : Lane := { turn := t, phase := if t.held.isSome then .decode else .prefill }
  modEntry t.idx (fun e => { e with state := .live, lane := n }) { s with stp := { s.stp with lanes := putN n l s.stp.lanes } }

/-- The ready turns of the prefill queue in the order of R85. -/
def readyTurns (s : State) : List Turn :=
  sortBy (fun a b => lexLe (turnKey a) (turnKey b)) (s.stp.queue.filter (turnReady s))

/-- Grant a free lane to a turn, unless its context is at its cap or no lane is free. -/
def grantTurn (tb : Nat) (t : Turn) (s : State) : State :=
  match freeLane s with
  | none => hit 12 s
  | some n =>
    if lanesOf s t.ctx ≥ laneCap s t.ctx then s
    else seat t n tb { s with stp := { s.stp with queue := s.stp.queue.filter (·.idx ≠ t.idx) } }

/-- The lane that a turn pre-empts, where one qualifies (R86). A lane whose withheld step is to run again keeps its lane until it has:
R435 step 8 has each withheld step run again once the contexts are in place (log entry 123). -/
def preemptLane (s : State) (t : Turn) : Option (Nat × Lane) :=
  let cls := t.cls
  let ok (p : Nat × Lane) : Bool :=
    let v := p.2.turn
    p.2.phase ≠ .closing && !p.2.paused && !p.2.rerun && decide (cls < v.cls) && decide (wfield s.stp.cfg 36 4 ≤ p.2.steps) &&
    decide (lanesOf s t.ctx - (if v.ctx = t.ctx then 1 else 0) + 1 ≤ laneCap s t.ctx)
  leastBy (fun (p : Nat × Lane) =>
    let v := p.2.turn
    [3 - v.cls, 2 ^ 64 - (if v.deadline = 0 then 2 ^ 64 else v.deadline), 2 ^ 64 - v.admSeq, 256 - p.1]) (s.stp.lanes.filter ok)

/-- A turn takes the lane of a victim, which takes its entry of the queue. -/
def displace (tb : Nat) (t : Turn) (n : Nat) (v : Turn) (s : State) : State :=
  let s := { s with stp := { s.stp with
    queue := s.stp.queue.map fun x => if x.idx = t.idx then v else x,
    preempted := sat (s.stp.preempted + 1) 32 } }
  seat t n tb (modEntry v.idx toEmber s)

/-- Pre-empt for the ready turns without a lane, until one finds no lane (R86). -/
def preempt (tb : Nat) : List Turn → State → State
  | [], s => s
  | t :: ts, s =>
    if bit (wfield s.stp.cfg 32 4) t.cls then
      match preemptLane s t with
      | none => s
      | some (n, l) => preempt tb ts (displace tb t n l.turn s)
    else preempt tb ts s

/-- Lanes pause with their context and resume with it (R76, R79). -/
def pauseLanes (s : State) : State :=
  let f (p : Nat × Lane) : Nat × Lane := (p.1, { p.2 with paused := (ctxOf s p.2.turn.ctx).state ≠ 3 })
  { s with stp := { s.stp with lanes := s.stp.lanes.map f } }

/-- Steps 8 and 9 of R82. -/
def grantLanes (tb : Nat) (s : State) : State :=
  let s := (readyTurns s).foldl (fun s t => grantTurn tb t s) s
  preempt tb (readyTurns s) s

/-! ### Building a step (R84, R159, R417) -/

/-- STEP_TOKENS, PREFILL_CHUNK_MAX and PREFILL_FLOOR as taken (R100). -/
def stepTokens (s : State) : Nat := max 64 (wfield s.stp.cfg 0 11)

/-- PREFILL_CHUNK_MAX as taken. -/
def chunkMax (s : State) : Nat := max 1 (wfield s.stp.cfg 11 11)

/-- PREFILL_FLOOR. -/
def prefillFloor (s : State) : Nat := wfield s.stp.cfg 22 10

/-- Audit records that wait, of one tenant or of all. -/
def audWaiting (s : State) : Nat := sumN (s.sec.aud.map (·.2.log.length))

/-- Bytes of the audit log in use: the records that wait, and the roots that are kept with their signatures and tenant entries (R416,
R420). -/
def audUsed (s : State) : Nat := 128 * audWaiting s + sumN (s.sec.roots.map fun r => r.rcd.length + r.sig.length + 40 * r.subs.length)

/-- Bytes of the audit log: 256 MiB (R416). -/
def audRoom : Nat := 2 ^ 28

/-- What the building of a step has reserved so far: work by lane, pool bytes, records, the prefill budget that is left. -/
structure Build where
  work   : List (Nat × Nat) := []
  pool   : Nat := 0
  recs   : Nat := 0
  budget : Nat := 0
  waits  : Nat := 0
  stalls : Nat := 0
deriving DecidableEq, Repr

/-- Whether a lane may work: its context is RESIDENT and its session LIVE. -/
def mayWork (s : State) (l : Lane) : Bool :=
  !l.paused && (match sess? s l.turn.idx with | some x => x.e.state = .live | none => false)

/-- Give a lane `n` tokens of work, unless R417 or R159 defers it. `first` says that a prefill takes from the budget. -/
def giveWork (s : State) (p : Nat × Lane) (n : Nat) (prefill : Bool) (b : Build) : Build :=
  match sess? s p.2.turn.idx with
  | none => b
  | some x =>
    let stall := max 1 (wfield s.regs.audCfg 0 24)
    let len := x.e.length
    let need := poolForRows s x len n
    if n = 0 then b
    else if (audOf s x.e.tenant).log.length ≥ stall || audUsed s + 128 * (b.recs + 1) > audRoom then { b with stalls := b.stalls + 1 }
    else if need ≠ 0 && poolUsedBytes s + b.pool + need > poolSize then { b with waits := b.waits + 1 }
    else { b with work := b.work ++ [(p.1, n)], pool := b.pool + need, recs := b.recs + 1,
                  budget := if prefill then b.budget - n else b.budget }

/-- The work list of the next step: every decode and closing lane, then prefill by class, deadline and admission, each a chunk of
what the budget leaves. A lane that runs a withheld step again does the same work. -/
def buildList (s : State) : Build :=
  let lanes := s.stp.lanes.filter fun p => mayWork s p.2
  let dec := lanes.filter fun p => p.2.phase ≠ .prefill
  let pre := sortBy (fun (a b : Nat × Lane) => lexLe (turnKey a.2.turn) (turnKey b.2.turn)) (lanes.filter fun p => p.2.phase = .prefill)
  let b := dec.foldl (fun b p => giveWork s p 1 false b) {}
  let b := { b with budget := max (prefillFloor s) (stepTokens s - b.work.length) }
  let again := pre.filter fun p => p.2.rerun
  let b := again.foldl (fun b p => giveWork s p p.2.work true b) b
  (pre.filter fun p => !p.2.rerun).foldl (fun b p =>
    giveWork s p (min (min (p.2.turn.input.length - p.2.turn.inputDone) (chunkMax s)) b.budget) true b) b

/-- POOL_WAIT, at most once a second (R159). -/
def poolWarn (n : Nat) (s : State) : State :=
  let sec := now s / 1000000000 + 1
  if n = 0 then s
  else
    let s := { s with atn := { s.atn with poolWaits := sat (s.atn.poolWaits + n) 32 } }
    if s.stp.poolWarn = sec then s
    else logAll 1 3 (unitChip 0x36) 0x010C n (hit 20 { s with stp := { s.stp with poolWarn := sec } })

/-- Whether steps may run (R99, R438, R462). -/
def stepsRun (s : State) : Bool := bit s.regs.stpCtrl.toNat 0 && !s.err.chipOut && powered s

/-- Step 10 of R82: the work list is built and the step starts. -/
def startStep (tb : Nat) (s : State) : State :=
  let b : Build := if stepsRun s then buildList s else {}
  let f (p : Nat × Lane) : Nat × Lane :=
    match find? p.1 b.work with
    | some n => (p.1, { p.2 with work := n, rerun := false })
    | none => (p.1, { p.2 with work := if p.2.rerun then p.2.work else 0 })
  let go := !b.work.isEmpty
  let s := { s with
    stp := { s.stp with lanes := s.stp.lanes.map f, running := go, started := if go then tb else s.stp.started },
    sec := { s.sec with stalled := sat (s.sec.stalled + b.stalls) 32 } }
  let s := if go then { s with pwr := { s.pwr with state := 1, lastWork := tb } } else s
  poolWarn b.waits (if b.stalls = 0 then s else hit 27 s)

/-! ### The boundary -/

/-- LAST_USE at the end of a step: every session that is LIVE in it (R56). -/
def touchLive (tb : Nat) (s : State) : State :=
  s.stp.lanes.foldl (fun s p => modEntry p.2.turn.idx (fun e => if e.state = .live then { e with lastUse := tb } else e) s) s

/-- The boundary of R82 at `tb`, once the step in flight has ended: contexts settle, the step commits or is withheld, changes and a
checkpoint's cut are taken, lanes are granted and the next step starts. -/
def takeBoundary (tb : Nat) (s : State) : State :=
  let faulted := faultedNow s
  let s := settleContexts tb (takeHits tb (dropFaults faulted s))
  let s := endStep faulted faulted tb (markReady s)
  let s := faulted.foldl (fun s c => faultContext c s) s
  let s := pauseLanes (takeChanges s)
  let s := if s.ckp.st = 1 then ckpGo (takeCut s) else s
  let s := grantLanes tb (markReady s)
  startStep tb (pauseLanes s)

/-- The end of the step in flight, after its cells have finished. LAST_NS saturates as MAX_NS does (R102, log entry 124). -/
def stepEnds (tb : Nat) (s : State) : State :=
  let d := sat (tb - s.stp.started) 24
  stepLookups <| touchLive tb { s with stp := { s.stp with running := false, lastNs := d, maxNs := max s.stp.maxNs d } }

/-- A boundary. A module out of service whose fault touched the step in flight commits nothing (R438). -/
def boundary (s : State) : State :=
  let tb := now s
  let u := if s.stp.running then stepEnds tb s else s
  if s.err.chipOut && s.err.unsound then
    { u with stp := { u.stp with lanes := u.stp.lanes.map fun p => (p.1, { p.2 with work := 0 }) } }
  else takeBoundary tb u

/-- STEP_BOUNDARY. -/
def execStepBoundary (s : State) : Host.Outcome State Fault Refusal := run (fun s => if s.stp.running then boundary s else s) s

/-- EMPTY_BOUNDARY. None comes in STANDBY or OFF, which keep or lose what waits (R462, R463). -/
def execEmptyBoundary (s : State) : Host.Outcome State Fault Refusal := run (fun s => if s.stp.running || !powered s then s else boundary s) s

end Sys2Proof.Machine
end

