-- ==== Sys2Proof/Machine/Contexts.lean ====
section
/-!
DEFINITION. Sys2Proof/Machine/Contexts.lean: the commands of the step engine beside its boundary: adapters (R92 to R94),
contexts (R96, R105), known-answer tests (R132), counter clears (R99, R136, R167).
-/
namespace Sys2Proof.Machine
open Sys2Proof

/-! ### Adapters -/

/-- Add a version that is LOADING to the table. -/
def addAdapter (h : TackHdr) (raw : Bytes) (s : State) : State :=
  let a := readAdHdr raw
  let x : Adapter := { ctx := a.ctx, id := a.id, ver := a.ver, digest := adDigest raw, raw := raw, state := 1, qp := h.qp, tag := h.tag }
  adapterEvent x 1 (holdContainer a.ctx raw { s with stp := { s.stp with adapters := s.stp.adapters ++ [x] } })

/-- Cancel the version of an ID that is LOADING. -/
def cancelLoading (c id : Nat) (s : State) : State :=
  match adapterIn s c id 1 with
  | some a => setAdapter a 0 s
  | none => s

/-- The version rule of R94 on an accepted container. -/
def versionRule (h : TackHdr) (raw : Bytes) (s : State) : State :=
  let a := readAdHdr raw
  let held := s.stp.adapters.filter fun x => x.ctx = a.ctx && x.id = a.id
  let top := held.foldl (fun m x => max m x.ver) 0
  if held.isEmpty || top < a.ver then
    completeOp h 0x13 0 (addAdapter h raw (cancelLoading a.ctx a.id s)) { a := a.ver }
  else match held.find? fun x => x.ver = a.ver && (x.state = 1 || x.state = 2) with
    | some x => if x.digest = adDigest raw then completeOp h 0x13 0 s { a := a.ver } else completeOp h 0x13 0x3A s { a := a.ver }
    | none => completeOp h 0x13 0x3B s { a := a.ver }

/-- Checks 4 to 7 of R94 on the whole container. -/
def adapterRest (h : TackHdr) (raw : Bytes) (s : State) : State :=
  let a := readAdHdr raw
  let ok := match ownerKey? s a.key with
    | some k => slhVerify192s k (raw.take (a.len - 16224)) (slice raw (a.len - 16224) 16224)
    | none => false
  let base := match ctxCfg? s a.ctx with | some c => decide (c.digest = a.base) | none => false
  if !ok || !base then completeOp h 0x13 0x38 s
  else if s.stp.adapters.length ≥ 1024 then completeOp h 0x13 0x39 (hit 22 s)
  else versionRule h raw s

/-- Check 3 of R94: LENGTH, and with it the other header fields, lie in the ranges of the header's table (log entry 32). -/
def adapterFits (a : AdHdr) (r : DataRef) : Bool :=
  decide (128 + 16 * a.count + 16224 ≤ a.len) && decide (a.len ≤ 2 ^ 29) && decide (a.len ≤ r.len) && decide (1 ≤ a.count) &&
  decide (a.count ≤ 4096) && decide (a.id ≤ 65534) && decide (1 ≤ a.ver)

/-- Checks 1 to 3 of R94 on the header, CONTEXT against the bindings of the tack's arrival (R43); then the rest of the container is fetched. -/
def adapterHeader (h : TackHdr) (d : Bind) (r : DataRef) (hd : Bytes) (s : State) : State :=
  let a := readAdHdr hd
  let b : TackBody := .adapterLoad r
  if hd.length < 128 || slice hd 0 8 ≠ ascii "YADAPTER" || !versionOk (leAt hd 8 1) then
    completeOp h 0x13 0x38 (if slice hd 0 8 = ascii "YADAPTER" then noteVersion 0x30 hd 8 s else s)
  else if !bit d.ctxMask a.ctx then refuseRights d.tenant h b 0x06 s
  else if !adapterFits a r then completeOp h 0x13 0x38 s
  else startFetch h b { r with addr := r.addr + 128, len := a.len - 128 } 1 hd s

/-- ADAPTER_LOAD at check 8 of R253: the header is fetched. -/
def adapterLoadEff (h : TackHdr) (d : Bind) (r : DataRef) (s : State) : State :=
  if refRefused r then completeOp h 0x13 0x50 s
  else startFetch h (.adapterLoad r) { r with len := min r.len 128 } 0 [] s 0 d

/-- ADAPTER_LOAD. -/
def execAdapterLoad (h : TackHdr) (r : DataRef) (s : State) : Host.Outcome State Fault Refusal :=
  run (tackRowB h (.adapterLoad r) fun _ d => adapterLoadEff h d r) s

/-- A LOADING version has been placed: it waits for the next boundary (R92). -/
def adapterPlaced (c id : Nat) (s : State) : State :=
  let f (a : Adapter) : Adapter := if a.ctx = c && a.id = id && a.state = 1 then { a with loaded := true } else a
  { s with stp := { s.stp with adapters := s.stp.adapters.map f } }

/-- ADAPTER_LOAD_COMPLETE. -/
def execAdapterLoadComplete (ctx : Nat) (id : Nat) (s : State) : Host.Outcome State Fault Refusal := run (adapterPlaced ctx id) s

/-- ADAPTER_DROP (R92). -/
def adapterDropEff (h : TackHdr) (c id : Nat) (s : State) : State :=
  let s := cancelLoading c id s
  let s := match adapterIn s c id 2 with
    | some a => retire a s
    | none => s
  completeOp h 0x14 0 s

/-- ADAPTER_DROP. -/
def execAdapterDrop (h : TackHdr) (ctx : Nat) (id : Nat) (s : State) : Host.Outcome State Fault Refusal :=
  run (tackRow h (.adapterDrop ctx id) fun _ => adapterDropEff h ctx id) s

/-! ### Contexts -/

/-- STP_CTX_CMD.LOAD (R96). -/
def execContextLoad (acc : Port) (ctx : Nat) (s : State) : Host.Outcome State Fault Refusal :=
  runOn (ctx < 4) (gateWrite acc 0x100048 (startLoad ctx)) s

/-- UNLOAD: a load is discarded, a RESIDENT context unloads at the next boundary (R96). -/
def unloadContext (c : Nat) (s : State) : State :=
  match (ctxOf s c).state with
  | 2 => becomeUnloaded c false s
  | 3 => modCtx c (fun x => { x with state := 4 }) s
  | _ => s

/-- STP_CTX_CMD.UNLOAD (R96). -/
def execContextUnload (acc : Port) (ctx : Nat) (s : State) : Host.Outcome State Fault Refusal :=
  runOn (ctx < 4) (gateWrite acc 0x100048 (unloadContext ctx)) s

/-- The last bank of the load that runs is written: RESIDENT at the next boundary (R96). Loads run one at a time. -/
def loadComplete (c : Nat) (s : State) : State :=
  if s.stp.loads.head? = some c && (ctxOf s c).state = 2 then modCtx c (fun x => { x with ready := true }) (dropLoad c s) else s

/-- CONTEXT_LOAD_COMPLETE. -/
def execContextLoadComplete (ctx : Nat) (s : State) : Host.Outcome State Fault Refusal := runOn (ctx < 4) (loadComplete ctx) s

/-- The weights of a context that moves are in place (R96). -/
def weightsPlaced (c : Nat) (s : State) : State :=
  if (ctxOf s c).state = 5 then modCtx c (fun x => { x with ready := true }) s else s

/-- WEIGHTS_IN_PLACE. -/
def execWeightsInPlace (ctx : Nat) (s : State) : Host.Outcome State Fault Refusal := runOn (ctx < 4) (weightsPlaced ctx) s

/-- The teardown of a FAULTED context is complete (R96). -/
def faultedDown (c : Nat) (s : State) : State := if (ctxOf s c).state = 6 then becomeUnloaded c true s else s

/-- CONTEXT_TEARDOWN_COMPLETE. -/
def execContextTeardownComplete (ctx : Nat) (s : State) : Host.Outcome State Fault Refusal := runOn (ctx < 4) (faultedDown ctx) s

/-! ### Known-answer tests (R132, R137) -/

/-- RUN_KAT: the tests run where no step may; otherwise the write is ignored with a warning. -/
def startKat (acc : Port) (s : State) : State :=
  if bit s.regs.stpCtrl.toNat 0 || s.stp.running then registerWarn acc 0x200018 3 s
  else { s with ari := { s.ari with katRunning := true, katDone := false } }

/-- RUN_KAT. -/
def execRunKat (acc : Port) (s : State) : Host.Outcome State Fault Refusal := run (gateWrite acc 0x200018 (startKat acc)) s

/-- Whether a cell runs known-answer tests: a matrix, vector or merge cell. -/
def hasKat (t c : Nat) : Bool := t < 48 && (c < 6 || c = 71)

/-- The result of a run of the tests (R132, R137): each failing cell is named and fenced, and ARI_KAT reports the run. DETAIL of the
event holds the failed tests where ARI_KAT has them (log entry 33). -/
def katResult (fails : List (Nat × Nat × Nat)) (s : State) : State :=
  let bad := fails.filter fun f => hasKat f.1 f.2.1 && f.2.2 % 32 ≠ 0 && !cellFenced s f.1 f.2.1
  let tests := bad.foldl (fun m f => m ||| f.2.2 % 32) 0
  let s := bad.foldl (fun s f => fenceCell f.1 f.2.1 4 (logAll 2 2 (unitCell f.1 f.2.1) 0x0209 (f.2.2 % 32 * 4) s)) s
  { s with ari := { s.ari with katRunning := false, katDone := true, katPass := bad.isEmpty, katTests := tests,
                               katCells := min 511 (bad.map fun f => (f.1, f.2.1)).eraseDups.length } }

/-- A run that RUN_KAT started is complete. -/
def katDone (fails : List (Nat × Nat × Nat)) (s : State) : State := if s.ari.katRunning then katResult fails s else s

/-- KAT_COMPLETE. -/
def execKatComplete (fails : List (Nat × Nat × Nat)) (s : State) : Host.Outcome State Fault Refusal := run (katDone fails) s

/-! ### Counts and flushes -/

/-- CLEAR_MAX (R99). -/
def execStpClearMax (s : State) : Host.Outcome State Fault Refusal :=
  run (gateWrite .owner 0x100000 fun s => { s with stp := { s.stp with maxNs := 0 } }) s

/-- ARI_CTRL.CLEAR_COUNTS (R136). -/
def ariClear (s : State) : State :=
  { s with ari := { s.ari with nanLogits := 0, allMasked := 0, outOfVocab := 0, nanBlocks := 0 } }

/-- ARI_CLEAR_COUNTS. -/
def execAriClearCounts (acc : Port) (s : State) : Host.Outcome State Fault Refusal := run (gateWrite acc 0x200018 ariClear) s

/-- ATN_CTRL.CLEAR_COUNTS (R167). -/
def atnClear (s : State) : State :=
  { s with atn := { s.atn with evicted := 0, poolWaits := 0, spilled := 0, returned := 0, hits := [], misses := [] } }

/-- ATN_CLEAR_COUNTS. -/
def execAtnClearCounts (acc : Port) (s : State) : Host.Outcome State Fault Refusal := run (gateWrite acc 0x300038 atnClear) s

/-- ATN_CTRL.LAB_FLUSH: every look-aside entry is invalidated at the next boundary (R167). -/
def labFlushDue (s : State) : State := { s with stp := { s.stp with flush := true } }

/-- LAB_FLUSH. -/
def execLabFlush (acc : Port) (s : State) : Host.Outcome State Fault Refusal := run (gateWrite acc 0x300038 labFlushDue) s

end Sys2Proof.Machine
end

