-- ==== Sys2Proof/Machine/Memory.lean ====
section
/-!
DEFINITION. Sys2Proof/Machine/Memory.lean: arbiters and bank ports (R17, R180 to R185), spills and bring-backs (R156 to R158,
R177), T1 allocation (R173), placement calls (R179), handovers (R182), scrubs, and errors of T1 and T2 (R186, R191, R437).
-/
namespace Sys2Proof.Machine
open Sys2Proof

/-- Change the memory part of the state. -/
def modMem (f : Mem → Mem) (s : State) : State := { s with mem := f s.mem }

/-! ### Arbiters (R17) -/

/-- An arbiter's pointer; the reset positions are those of R17. -/
def arbPointer (s : State) (a : Arbiter) : Nat :=
  findD a s.mem.arbPtr (match a with
    | .region r => r % 6
    | _ => 0)

/-- Whether a requester of an arbiter is fenced. At a bank cell, requesters are numbered as at the block arbiter (R180). R17 gives no
numbers to the neighbour tiles behind the links from 74 upward, nor to the requesters of a cell that is no bank cell: these are never
dropped from the scan (DESIGN CHOICE, log entry 125). -/
def requesterFenced (s : State) (a : Arbiter) (i : Nat) : Bool :=
  match a with
  | .cell t c => 6 ≤ c && c < 70 && i < 74 && cellFenced s t i
  | .block t => i < 74 && cellFenced s t i
  | .region r => s.err.tiles.contains (6 * r + i)
  | .chip => s.err.regions.contains i

/-- The requester that an arbiter grants: the first unfenced one from its pointer on, wrapping. -/
def winner (s : State) (a : Arbiter) (reqs : List Nat) : Option Nat :=
  let ok := reqs.filter fun i => !requesterFenced s a i
  match (ok.filter fun i => arbPointer s a ≤ i).min? with
  | some i => some i
  | none => ok.min?

/-- One grant moves the pointer past the winner. -/
def arbitrate (a : Arbiter) (reqs : List Nat) (s : State) : Option Nat × State :=
  match winner s a reqs with
  | none => (none, s)
  | some i => (some i, modMem (fun m => { m with arbPtr := put a (i + 1) m.arbPtr }) s)

/-! ### Bank words (R180, R181, R184) -/

/-- The T0 address of a word of a bank (R168). -/
def wordAddr (bank word : Nat) : Nat := bank * 2 ^ 25 + word * 64

/-- The UNIT of a bank. -/
def unitBank (bank : Nat) : Nat := unitCell (bank / 64) (6 + bank % 64)

/-- A corrected read: counts, and the corrected half written back (R184). -/
def correctedRead (bank word : Nat) (s : State) : State :=
  let s := modBank bank (fun b => { b with cePeriod := sat (b.cePeriod + 1) 16, ceTotal := sat (b.ceTotal + 1) 30 }) s
  let s := modMem (fun m => { m with t0Ce := sat (m.t0Ce + 1) 40, flips := m.flips.filter fun f => !(f.bank = bank && f.word = word) }) s
  logAll 0 2 (unitBank bank) 0x0101 word s

/-- An uncorrectable read: the bank cell is fenced before any consumer receives the data (R184, R432). -/
def uncorrectableRead (bank word cause : Nat) (s : State) : State :=
  let t := bank / 64
  let c := 6 + bank % 64
  let s := modMem (fun m => { m with t0Ue := sat (m.t0Ue + 1) 24, flips := m.flips.filter fun f => !(f.bank = bank && f.word = word) }) s
  let n := findD (t, c) s.err.ue 0
  let s := { s with err := { s.err with ue := put (t, c) (sat (n + 1) 16) s.err.ue } }
  let s := logAll 2 2 (unitBank bank) 0x0103 word s
  if s.err.salvage.any (·.1 = t) then salvageUnreadable bank s else fenceCell t c cause s

/-- The check bits of a word are read: an injected flip shows. -/
def checkWord (bank word : Nat) (s : State) : Bool × State :=
  match s.mem.flips.find? fun f => f.bank = bank && f.word = word with
  | none => (true, s)
  | some f => if f.bad then (false, uncorrectableRead bank word 13 s) else (true, correctedRead bank word s)

/-- The cell that makes an access. -/
def accessCell (s : State) (a : BankAccess) : Nat :=
  match a.port with
  | .c cell => cell
  | _ => (bankOf s a.bank).owner

/-- Whether an access names a word of the part. -/
def accessOk (a : BankAccess) : Bool := a.bank < 3072 && a.word < 524288

/-- Whether an access is granted in this cycle: ports A and B always, port C to the winner of that bank's arbiter. -/
def accessGranted (arb : Arbiter) (win : Option Nat) (a : BankAccess) : Bool :=
  match a.port with
  | .c cell => win = some cell && arb = .cell (a.bank / 64) (6 + a.bank % 64)
  | _ => true

/-- A read: the word as it was before the cycle's writes, or an error. -/
def readWord (a : BankAccess) (s : State) : State :=
  if bankFenced s a.bank then emit (.bankError a.bank (accessCell s a)) s
  else
    let (ok, s) := checkWord a.bank a.word s
    if ok then emit (.bankRead a.bank a.word (readBytes Config.ramDefault (wordAddr a.bank a.word) 64 s.mem.t0)) s
    else emit (.bankError a.bank (accessCell s a)) s

/-- A write that does not come from the owner is refused (R181, R182). -/
def refuseWrite (a : BankAccess) (s : State) : State :=
  let cell := accessCell s a
  emit (.bankError a.bank cell) (logAll 1 2 (unitBank a.bank) 0x0108 (cell % 128) s)

/-- Whether a write comes from the bank's owner, and no handover has begun. The session unit owns a bank of USE 5 (R180). -/
def ownerWrite (s : State) (a : BankAccess) : Bool :=
  let b := bankOf s a.bank
  match a.port with
  | .c _ => false
  | _ => (b.owner ≠ 0x7F || b.home = 5) && b.pending.isNone && !bankFenced s a.bank

/-- The enabled bytes of a write in place of a word's. -/
def mergeBytes (mask : Nat) (data old : Bytes) : Bytes :=
  (List.range 64).map fun i => if bit mask i then data.getD i 0 else old.getD i 0

/-- A write by the owner. -/
def writeWord (a : BankAccess) (s : State) : State :=
  let p := wordAddr a.bank a.word
  let old := readBytes Config.ramDefault p 64 s.mem.t0
  modMem (fun m => { m with
    t0 := writeBytes Config.ramDefault p (mergeBytes a.mask a.data old) m.t0,
    flips := m.flips.filter fun f => !(f.bank = a.bank && f.word = a.word) }) s

/-- The accesses of one cycle to bank words (R181): the reads first, then A's write and B's over it. -/
def bankCycle (accs : List BankAccess) (s : State) : State :=
  let s := (accs.filter fun a => !a.write).foldl (fun s a => readWord a s) s
  let ws := accs.filter (·.write)
  let bad := ws.filter fun a => !ownerWrite s a
  let good := ws.filter (ownerWrite s)
  let onA := good.filter fun a => a.port = .a
  let onB := good.filter fun a => a.port = .b
  let s := bad.foldl (fun s a => refuseWrite a s) s
  let s := onA.foldl (fun s a => writeWord a s) s
  let s := onB.foldl (fun s a => writeWord a s) s
  let both := (onA.filter fun a => onB.any fun b => b.bank = a.bank && b.word = a.word).map fun a => (a.bank, a.word)
  both.eraseDups.foldl (fun s p => logAll 1 2 (unitBank p.1) 0x0107 p.2 s) s

/-- One arbitration cycle: the grant, and the accesses that it and the owner's ports make. -/
def arbiterCycle (arb : Arbiter) (reqs : List Nat) (accs : List BankAccess) (s : State) : State :=
  let (win, s) := arbitrate arb reqs s
  bankCycle (accs.filter fun a => accessOk a && accessGranted arb win a) s

/-- Whether an arbiter exists. -/
def arbExists : Arbiter → Bool
  | .cell t c => t < 48 && c < 74
  | .block t => t < 48
  | .region r => r < 8
  | .chip => true

/-- ARBITER_GRANT. -/
def execArbiterGrant (arb : Arbiter) (reqs : List Nat) (accs : List BankAccess) (s : State) : Host.Outcome State Fault Refusal :=
  runOn (arbExists arb) (arbiterCycle arb reqs accs) s

/-! ### Spill and bring-back of pages (R156 to R158) -/

/-- Whether a row lies outside the sink and recent windows after the last committed position. -/
def outsideWindows (s : State) (e : Entry) (r : Row) : Bool :=
  match ctxCfg? s e.ctx with
  | some c => c.sinkW ≤ 128 * r.v && 128 * r.v + 127 + c.recentW < e.length
  | none => false

/-- Whether a session is LIVE or holds an admitted turn, with its storage in T0. -/
def runsNow (x : Sess) : Bool := x.e.place = 0 && (x.e.state = .live || x.e.turnAdmitted)

/-- Change a row of a session. -/
def modRow (idx v : Nat) (f : Row → Row) (s : State) : State :=
  modSess idx (fun x => { x with st := { x.st with rows := x.st.rows.map fun r => if r.v = v then f r else r } }) s

/-- Bytes of a context's page. -/
def pageSize (s : State) (c : Nat) : Nat := 4096 * unitsPerPage (wtOf s c) (fmtOf s c)

/-- Whether a row has a transfer to T1 in flight. -/
def rowMoves (r : Row) : Bool := r.pages.any (·.dma)

/-- The candidates of R156 on a tile: session index, row and pages on the tile. -/
def spillRows (s : State) (t : Nat) : List (Nat × Nat × Nat) :=
  s.ses.table.flatMap fun p =>
    if runsNow p.2 then
      (p.2.st.rows.filter fun r => !rowMoves r && outsideWindows s p.2.e r && 0 < rowPagesOn t r).map fun r => (p.1, r.v, rowPagesOn t r)
    else []

/-- The candidate that R156 chooses: of the session with the most such pages on the tile the least row. -/
def spillChoice (s : State) (t : Nat) : Option (Nat × Nat × Nat) :=
  let c := spillRows s t
  let pages (i : Nat) : Nat := sumN ((c.filter fun x => x.1 = i).map (·.2.2))
  leastBy (fun x => [2 ^ 40 - pages x.1, x.1, x.2.1]) c

/-- Bytes of pages on a tile whose spill is in flight, and of whole sessions on their way to T1. -/
def leaving (s : State) (t : Nat) : Nat :=
  sumN (s.ses.table.map fun p =>
    if p.2.spillT1 then sessOn s p.1 p.2 t
    else pageSize s p.2.e.ctx * sumN (p.2.st.rows.map fun r => r.pages.countP fun q => q.dma && pageOnTile t q))

/-- Whether a session has pages on a tile. -/
def hasPages (x : Sess) (t : Nat) : Bool := inT0 x && x.st.rows.any fun r => 0 < rowPagesOn t r

/-- The candidate of R177 on a tile: the EMBER session with pages there that was used least recently. -/
def sessionVictim (s : State) (t : Nat) : Option Nat :=
  (leastBy (fun (p : Nat × Sess) => [p.2.e.lastUse, p.1]) (s.ses.table.filter fun p =>
    p.2.e.state = .ember && p.2.e.place = 0 && !p.2.e.turnAdmitted && !p.2.spillT1 && !p.2.copyUp &&
    p.2.st.rows.all (fun r => !rowMoves r) && hasPages p.2 t)).map (·.1)

/-- Start row spills from a tile until enough is on its way; `n` bounds the rows. -/
def spillOn : Nat → Nat → State → State
  | 0, _, s => s
  | n + 1, t, s =>
    if kvFree s t + leaving s t ≥ spillHigh s then s
    else match spillChoice s t with
      | none => s
      | some (idx, v, _) =>
        spillOn n t (retile idx (modPages idx (fun r p => r.v = v && pageOnTile t p) (fun p => { p with dma := true }) s))

/-- Whether a tile spills: its free KV space is below SPILL_LOW_MIB, or a spill that began there has not brought it to SPILL_HIGH_MIB
(R156, R177). -/
def spillsNow (s : State) (t : Nat) : Bool := kvFree s t < spillLow s || (s.mem.spilling.contains t && kvFree s t < spillHigh s)

/-- A tile's spill goes on until its free space is at SPILL_HIGH_MIB. -/
def spillsOn (t : Nat) (s : State) : State :=
  let l := if spillsNow s t then addTo t s.mem.spilling else s.mem.spilling.filter (· ≠ t)
  { s with mem := { s.mem with spilling := l } }

/-- KV_SPILL: where the tile is short and no whole session can leave it (R156, R177). -/
def kvSpill (t : Nat) (s : State) : State :=
  let s := spillsOn t s
  if spillsNow s t && (sessionVictim s t).isNone then spillOn (spillRows s t).length t s else s

/-- KV_SPILL. -/
def execKvSpill (tile : Nat) (s : State) : Host.Outcome State Fault Refusal := runOn (tile < 48) (kvSpill tile) s

/-- Pages of a row on a tile have landed in T1: their entries change under R145 and the T0 copies are freed. -/
def pageSpilled (idx v t : Nat) (s : State) : State :=
  match sess? s idx with
  | none => s
  | some x =>
    let lands (r : Row) (p : Page) : Bool := r.v = v && p.dma && pageOnTile t p
    let n := sumN (x.st.rows.map fun r => r.pages.countP (lands r))
    if n = 0 || allocWaits s idx then s
    else
      let s := { s with atn := { s.atn with spilled := sat (s.atn.spilled + n) 32 } }
      retile idx (modPages idx lands pageLanded s)

/-- PAGE_SPILL_COMPLETE. -/
def execPageSpillComplete (idx : Nat) (v : Nat) (tile : Nat) (s : State) : Host.Outcome State Fault Refusal :=
  runOn (tile < 48) (pageSpilled idx v tile) s

/-- The pages of a row that belong on a tile and lie below T0. -/
def awayOn (s : State) (c idx t : Nat) (r : Row) : List Nat := (ordsOn s c idx t r.v).filter fun a => 0 < (pageOf r a).tier

/-- A row's pages of some ordinals come back to T0; those from T1 keep that copy as their backing (R176). -/
def returnRow (o : List Nat) (r : Row) : Row :=
  { r with pages := (List.range r.pages.length).map fun a => if o.contains a then { pageOf r a with tier := 0 } else pageOf r a }

/-- A row without a page in T2 holds no blocks there. -/
def leaveT2 (r : Row) : Row := if r.pages.any (·.tier = 2) then r else { r with block := none }

/-- Change a row of a session, and free its T2 blocks once none of its pages lies there. -/
def modRowT2 (idx c : Nat) (f : Row → Row) (r : Row) (s : State) : State :=
  let s := modRow idx r.v (fun r => leaveT2 (f r)) s
  retile idx (if (leaveT2 (f r)).block.isNone then freeRow c r s else s)

/-- Bring spilled rows of LIVE sessions back to a tile, highest row first, while the free space stays at SPILL_HIGH_MIB; `n`
bounds the rows (R157). -/
def bringBack : Nat → Nat → State → State
  | 0, _, s => s
  | n + 1, t, s =>
    let cands := s.ses.table.flatMap fun (p : Nat × Sess) =>
      if p.2.e.state = .live && p.2.e.place = 0 then
        (p.2.st.rows.filter fun r => !rowMoves r && !(awayOn s p.2.e.ctx p.1 t r).isEmpty).map fun r => (p.1, p.2, r)
      else []
    match leastBy (fun (x : Nat × Sess × Row) => [8192 - x.2.2.v, x.1]) cands with
    | none => s
    | some (idx, x, r) =>
      let o := awayOn s x.e.ctx idx t r
      if kvFree s t < spillHigh s + pageSize s x.e.ctx * o.length then s
      else
        let s := { s with atn := { s.atn with returned := sat (s.atn.returned + o.length) 32 } }
        bringBack n t (modRowT2 idx x.e.ctx (returnRow o) r s)

/-- PAGE_BRING_BACK. -/
def execPageBringBack (tile : Nat) (s : State) : Host.Outcome State Fault Refusal :=
  runOn (tile < 48) (fun s => bringBack (sumN (s.ses.table.map fun p => p.2.st.rows.length)) tile s) s

/-- Whether a row has pages in T1. -/
def inT1 (r : Row) : Bool := r.pages.any (·.tier = 1)

/-- A row's pages lie in T2 from a block on (R158). -/
def rowInT2 (b : Nat) (r : Row) : Row := { r with block := some b, pages := r.pages.map fun _ => { tier := 2 } }

/-- Where a row's blocks are, or can be, on channel v mod 32. -/
def rowPlace (s : State) (c : Nat) (r : Row) : Option Nat :=
  let n := rowBlocks s c
  let ch := chanOf s (r.v % 32)
  match r.block with
  | some b => some b
  | none => if !ch.fenced && ch.used + n ≤ chanShare s then t2Run s (r.v % 32) n else none

/-- Rows of a running session in T1 beyond LONG_T1_ROWS go to T2, the least eligible first; `n` bounds them (R158). -/
def longSpill : Nat → Nat → State → State
  | 0, _, s => s
  | n + 1, idx, s =>
    let limit := wfield s.stp.atn 28 20
    match sess? s idx with
    | none => s
    | some x =>
      let rows := x.st.rows.filter inT1
      let ok (r : Row) : Bool := !rowMoves r && outsideWindows s x.e r && (rowPlace s x.e.ctx r).isSome
      if limit = 0 || rows.length ≤ limit || !runsNow x then s
      else match leastBy (fun (r : Row) => [r.v]) (rows.filter ok) with
        | none => s
        | some r =>
          match rowPlace s x.e.ctx r with
          | none => s
          | some b =>
            let k := r.pages.countP (·.tier ≠ 2)
            let s := { s with atn := { s.atn with spilled := sat (s.atn.spilled + k) 32 } }
            let s := if r.block.isSome then s else writeRow x.e.ctx b r s
            longSpill n idx (retile idx (modRow idx r.v (rowInT2 b) s))

/-- LONG_ROW_SPILL. -/
def execLongRowSpill (idx : Nat) (s : State) : Host.Outcome State Fault Refusal := run (longSpill 8192 idx) s

/-! ### Whole sessions to T1 (R177, R178) -/

/-- Moves under way that leave a tile. -/
def movesOn (s : State) (t : Nat) : Nat := (s.ses.table.filter fun p => p.2.spillT1 && hasPages p.2 t).length

/-- Start moves of whole sessions from a tile, at most 16 at once, until enough is on its way; `n` bounds them. -/
def sessionSpillOn : Nat → Nat → State → State
  | 0, _, s => s
  | n + 1, t, s =>
    if kvFree s t + leaving s t ≥ spillHigh s then s
    else match sessionVictim s t with
      | none => s
      | some idx =>
        if movesOn s t ≥ 16 then hit 18 s
        else sessionSpillOn n t (retile idx (modSess idx (fun x => { x with spillT1 := true }) s))

/-- SESSION_SPILL_T1. -/
def sessionSpill (t : Nat) (s : State) : State :=
  let s := spillsOn t s
  if spillsNow s t then sessionSpillOn 17 t s else s

/-- SESSION_SPILL_T1. -/
def execSessionSpillT1 (tile : Nat) (s : State) : Host.Outcome State Fault Refusal := runOn (tile < 48) (sessionSpill tile) s

/-- A move of a whole session to T1 is complete: PLACE 1, every unit is clean, the T0 copy is freed. -/
def sessionSpilled (idx : Nat) (s : State) : State :=
  match sess? s idx with
  | none => s
  | some x =>
    if !x.spillT1 || x.e.state ≠ .ember || allocWaits s idx then s
    else
      let s := modPages idx (fun _ p => p.tier = 0) pageLanded (labDropSess idx s)
      let s := modSess idx (fun x => { x with
        e := { x.e with place := 1 }, spillT1 := false, st := { x.st with recBacked := true, recDirty := [] } }) s
      placeSess idx (retile idx s)

/-- SESSION_SPILL_T1_COMPLETE. -/
def execSessionSpillT1Complete (idx : Nat) (s : State) : Host.Outcome State Fault Refusal := run (sessionSpilled idx) s

/-! ### T1 allocation (R173) -/

/-- The allocation at the head of the queue is granted where enough tiles are free. -/
def grantAlloc (s : State) : State :=
  match s.mem.queue with
  | [] => s
  | q :: l => if tilesFit s q.idx q.tiles then setT1 q.idx (t1Held s q.idx ++ q.tiles) (modMem (fun m => { m with queue := l }) s) else s

/-- T1_ALLOC_GRANT. -/
def execT1AllocGrant (s : State) : Host.Outcome State Fault Refusal := run grantAlloc s

/-- The first waiting allocation that no warning has named has waited ALLOC_WARN_MS. -/
def allocWarn (s : State) : State :=
  match s.mem.queue.find? fun q => !q.warned with
  | none => s
  | some q =>
    let s := advance (q.since + wfield s.regs.memCfg 0 16 * 1000000) s
    let f (x : AllocReq) : AllocReq := if x.idx = q.idx then { x with warned := true } else x
    let s := modMem (fun m => { m with queue := m.queue.map f }) s
    logAll 1 4 (unitChip 0) 0x010B s.mem.queue.length s

/-- ALLOC_WAIT. -/
def execAllocWait (s : State) : Host.Outcome State Fault Refusal := run allocWarn s

/-! ### Placement calls (R179, R207, R208) -/

/-- The outcome of an accessor's last call. -/
def objResult (acc : Port) (code id tier : Nat) (done : Bool) (s : State) : State :=
  modAcc acc (fun a => { a with objCode := code, objId := id % 2 ^ 20, objTier := tier, objDone := done }) s

/-- CREATE: tiles of T1 or T2, or NO_SPACE. -/
def createObj (acc : Port) (kind tier region size : Nat) (s : State) : State :=
  if kind > 4 || !(tier = 1 || tier = 2) || !(region < 8 || region = 0xF) then objResult acc 6 0 0 false s
  else
    let id := nextObjId s
    let o : Obj := { id := id, kind := kind, tier := tier, region := region, size := size }
    if objRoom s o tier then objResult acc 1 id tier true (if tier = 2 then reserveT2 o (addObj o s) else addObj o s)
    else objResult acc 2 0 0 false s

/-- Calls come from the owner port and the control cores (R179). -/
def execObjCreate (acc : Port) (kind : Nat) (tier : Nat) (region : Nat) (size : Nat) (s : State) : Host.Outcome State Fault Refusal :=
  run (gateWrite acc 0x400060 (createObj acc kind tier region size)) s

/-- A call on an object: NO_OBJECT, then BUSY, else what it does. -/
def onObj (acc : Port) (id : Nat) (f : Obj → State → State) (s : State) : State :=
  match obj? s id with
  | none => objResult acc 7 id 0 false s
  | some o => if o.busy.isSome then objResult acc 3 id o.tier false s else f o s

/-- Whether an object is the weight source of a context in one of the given states. -/
def sourceIn (s : State) (o : Obj) (sts : List Nat) : Bool :=
  (List.range 4).any fun c => (ctxOf s c).source = some o.id && sts.contains (ctxOf s c).state

/-- MOVE: a copy to the other tier begins; its room there is taken at once. -/
def moveObj (acc : Port) (tier : Nat) (o : Obj) (s : State) : State :=
  if !(tier = 1 || tier = 2) then objResult acc 6 o.id o.tier false s
  else if tier = o.tier then objResult acc 1 o.id o.tier true s
  else if tier = 2 && o.pinned then objResult acc 4 o.id o.tier false s
  else if sourceIn s o [2] then objResult acc 5 o.id o.tier false s
  else if !objRoom s o tier then objResult acc 2 o.id o.tier false s
  else
    let s := modObj o.id (fun o => { o with busy := some (acc, 1, tier) }) s
    objResult acc 1 o.id o.tier false (if tier = 2 then reserveT2 o s else s)

/-- OBJ_MOVE. -/
def execObjMove (acc : Port) (obj : Nat) (tier : Nat) (s : State) : Host.Outcome State Fault Refusal :=
  run (gateWrite acc 0x400060 (onObj acc obj (moveObj acc tier))) s

/-- PIN and UNPIN. -/
def pinObj (acc : Port) (on : Bool) (o : Obj) (s : State) : State :=
  objResult acc 1 o.id o.tier true (modObj o.id (fun o => { o with pinned := on }) s)

/-- OBJ_PIN. -/
def execObjPin (acc : Port) (obj : Nat) (s : State) : Host.Outcome State Fault Refusal :=
  run (gateWrite acc 0x400060 (onObj acc obj (pinObj acc true))) s

/-- OBJ_UNPIN. -/
def execObjUnpin (acc : Port) (obj : Nat) (s : State) : Host.Outcome State Fault Refusal :=
  run (gateWrite acc 0x400060 (onObj acc obj (pinObj acc false))) s

/-- Whether an object holds an adapter that is CURRENT or RETIRING. -/
def adapterObj (s : State) (o : Obj) : Bool :=
  o.kind = 1 && s.stp.adapters.any fun a => (a.state = 2 || a.state = 3) && a.raw = o.raw

/-- FREE. -/
def freeObj (acc : Port) (o : Obj) (s : State) : State :=
  if sourceIn s o [2, 3] || adapterObj s o then objResult acc 5 o.id o.tier false s
  else objResult acc 1 o.id o.tier true (dropObj o s)

/-- OBJ_FREE. -/
def execObjFree (acc : Port) (obj : Nat) (s : State) : Host.Outcome State Fault Refusal :=
  run (gateWrite acc 0x400060 (onObj acc obj (freeObj acc))) s

/-- A call's transfers are complete: the object lies in its new tier, the old copy is freed; DONE is set where the MOVE is still the last call
of its accessor. -/
def objMoved (id : Nat) (s : State) : State :=
  match obj? s id with
  | none => s
  | some o =>
    match o.busy with
    | none => s
    | some (acc, _, tier) =>
      let s := if tier = 2 then writeObj o s else releaseT2 o s
      let s := modObj id (fun o => { o with busy := none, tier := tier }) s
      let a := accRegs s acc
      if a.objId = id && a.objCode = 1 && !a.objDone then modAcc acc (fun a => { a with objTier := tier, objDone := true }) s else s

/-- OBJ_TRANSFER_DONE. -/
def execObjTransferDone (obj : Nat) (s : State) : Host.Outcome State Fault Refusal := run (objMoved obj) s

/-! ### Handovers (R182, R202, R203) -/

/-- The outcome of an accessor's last handover. -/
def bankResult (acc : Port) (code bank : Nat) (s : State) : State :=
  modAcc acc (fun a => { a with bankCode := code, bankNo := bank, bankDone := false }) s

/-- The first check of R182 that a handover fails, by its code. -/
def handoverRefuse (s : State) (bank expect owner use : Nat) : Option Nat :=
  let b := bankOf s bank
  let loose := use = 0 || use = 4 || use = 5
  if bank ≥ 3072 || use > 5 || !(owner ≤ 73 || owner = 0x7F) || (decide (owner = 0x7F) != loose) then some 5
  else if b.pending.isSome then some 3
  else if expect ≠ b.owner then some 2
  else
    let st := (ctxOf s b.ctx).state
    if bankFenced s bank || b.lent || b.use = 5 || use = 5 || (b.use = 1 && (st = 2 || st = 3 || st = 5)) then some 4 else none

/-- A write to MEM_BANK_HANDOVER: its checks, and PENDING. The pages of a KV bank start to leave it (R182). -/
def handover (acc : Port) (val : Word) (s : State) : State :=
  let bank := wfield val 0 12
  let owner := wfield val 19 7
  let use := wfield val 26 3
  match handoverRefuse s bank (wfield val 12 7) owner use with
  | some code => bankResult acc code bank s
  | none =>
    let s := modBank bank (fun b => { b with pending := some (acc, owner, use, wfield val 29 2) }) s
    let s := if (bankOf s bank).use = 2 then
        (pagesIn s bank).foldl (fun s idx => retile idx (modPages idx (fun _ p => pageInBank bank p) (fun p => { p with dma := true }) s)) s
      else s
    bankResult acc 1 bank s

/-- BANK_HANDOVER. -/
def execBankHandover (acc : Port) (val : Word) (s : State) : Host.Outcome State Fault Refusal :=
  run (gateWrite acc 0x400028 (handover acc val)) s

/-- A handover takes effect once the pages of the bank are in T1; the bank is cleared where its context changes or it becomes free. -/
def handoverDone (bank : Nat) (s : State) : State :=
  let b := bankOf s bank
  match b.pending with
  | none => s
  | some (acc, owner, use, c) =>
    if (pagesIn s bank).any (allocWaits s) then s
    else
    let s := modBank bank (fun b => { b with owner := owner, use := use, home := use, ctx := c, homeCtx := c, pending := none }) s
    let s := emptyBank bank s
    let s := if c ≠ b.ctx || use = 0 then clearBank bank s else s
    if (accRegs s acc).bankNo = bank then modAcc acc (fun a => { a with bankDone := true }) s else s

/-- BANK_HANDOVER_DONE. -/
def execBankHandoverDone (bank : Nat) (s : State) : Host.Outcome State Fault Refusal := runOn (bank < 3072) (handoverDone bank) s

/-! ### Scrubs (R185, R209) -/

/-- A pass ends: every word of every unfenced bank has been read, and all of T1, where the devices have corrected an unknown number of errors
(R186, R204); the banks above CE_WARN are warned of, the period counts cleared. -/
def scrubEnds (s : State) : State :=
  let s := if s.mem.scrubbing then s else advance s.mem.scrubDue s
  let s := { s with free := s.free + 1, mem := { s.mem with t1Ce := sat (s.mem.t1Ce + Config.t1Corrected s.free) 40 } }
  let s := (s.mem.flips.filter fun f => !bankFenced s f.bank).foldl (fun s f =>
    if bankFenced s f.bank then s else (checkWord f.bank f.word s).2) s
  let warn := (s.mem.banks.filter fun b => b.2.cePeriod > wfield s.regs.memCfg 36 16)
  let s := warn.foldl (fun s b => logAll 1 2 (unitBank b.1) 0x0102 b.2.cePeriod s) s
  modMem (fun m => { m with banks := m.banks.map (fun b => (b.1, { b.2 with cePeriod := 0 })), scrubbing := false,
                            scrubDue := now s + scrubPeriod s }) s

/-- SCRUB_PERIOD_END. Scrubbing stops in STANDBY and OFF (R193). -/
def execScrubPeriodEnd (s : State) : Host.Outcome State Fault Refusal :=
  run (fun s => if powered s then scrubEnds s else s) s

/-- SCRUB_NOW: a pass starts at once. -/
def execScrubNow (acc : Port) (s : State) : Host.Outcome State Fault Refusal :=
  run (gateWrite acc 0x400070 (modMem fun m => { m with scrubbing := true })) s

/-- MEM_CTRL.CLEAR_COUNTS (R209). -/
def memClear (s : State) : State :=
  modMem (fun m => { m with t0Ce := 0, t0Ue := 0, t1Ce := 0, t1Ue := 0, banks := m.banks.map fun b => (b.1, { b.2 with ceTotal := 0 }) }) s

/-- MEM_CLEAR_COUNTS. -/
def execMemClearCounts (acc : Port) (s : State) : Host.Outcome State Fault Refusal := run (gateWrite acc 0x400070 memClear) s

/-! ### Errors of T1 and T2 (R186, R191, R431, R437) -/

/-- UE_T1. -/
def execUeT1 (addr : Nat) (area : T1Area) (s : State) : Host.Outcome State Fault Refusal :=
  runOn (addr < 0x18000000000) (t1Fails addr area 10) s

/-- Whether a run of `n` blocks from `b` on holds a block. -/
def inRun (b n block : Nat) : Bool := b ≤ block && block < b + n

/-- The sessions with a page in a block of a channel. -/
def rowsInBlock (s : State) (ch block : Nat) : List Nat :=
  (s.ses.table.filter fun p => p.2.st.rows.any fun r =>
    r.v % 32 = ch && r.pages.any (fun q => q.tier = 2) && (match r.block with
      | some b => inRun b (rowBlocks s p.2.e.ctx) block
      | none => false)).map (·.1)

/-- The sessions whose wake reads a block of a channel. -/
def wakesOf (s : State) (ch block : Nat) : List Nat :=
  (s.ses.table.filter fun p => p.2.e.state = .waking && (p.2.wake.map (·.running)).getD false && (match p.2.desc with
    | some d => d.tier = 2 && inRun (d.first.getD ch 0) (tileCount d.tiles ch) block
    | none => false)).map (·.1)

/-- The object whose copy in T2 holds a block of a channel. -/
def objInBlock (s : State) (ch block : Nat) : Option Obj :=
  s.mem.objs.find? fun o => o.tier = 2 && (match find? ch o.blocks with
    | some b => inRun b (objBlocks o ch) block
    | none => false)

/-- An object in T2 cannot be read: a weight source or an adapter version goes as R437 has it for T1, another object is freed (log entry
151). -/
def loseObj (o : Obj) (s : State) : State :=
  match o.kind with
  | 0 => (List.range 4).foldl (fun s c => if (ctxOf s c).source = some o.id then loseSource c s else s) s
  | 1 => (s.stp.adapters.filter fun a => a.raw = o.raw).foldl (fun s a => loseAdapter a.ctx a.id a.ver s) s
  | _ => dropObj o s

/-- An uncorrectable read of a NAND channel: it fails a wake, costs a spilled row's session or an object, or ends a vector query or update
(R57, R191, R234, R434). -/
def t2Fails (ch block : Nat) (s : State) : State :=
  let s := modChan ch (fun c => { c with readFail := sat (c.readFail + 1) 16 }) s
  let s := logAll 2 4 (unitChannel ch) 0x0105 block s
  let rows := rowsInBlock s ch block
  let wakes := wakesOf s ch block
  if !rows.isEmpty then loseMany rows (unitChannel ch) 4 s
  else if !wakes.isEmpty then wakes.foldl (fun s i => wakeFailed i s) s
  else match objInBlock s ch block with
    | some o => loseObj o s
    | none => vecReadFail ch block s

/-- UE_T2. -/
def execUeT2 (ch : Nat) (block : Nat) (s : State) : Host.Outcome State Fault Refusal := runOn (ch < 32) (t2Fails ch block) s

/-- Spare blocks of a channel: 4 % of its 3 TB, in blocks of 64 KiB (R191). -/
def spareBlocks : Nat := 1831054

/-- A block is retired; a channel without spare blocks is fenced. -/
def retireBlock (ch : Nat) (s : State) : State :=
  let s := modChan ch (fun c => { c with retired := c.retired + 1, wear := c.wear + 1 }) s
  if (chanOf s ch).retired ≥ spareBlocks then fenceChannel ch s else s

/-- BLOCK_RETIRE. -/
def execBlockRetire (ch : Nat) (block : Nat) (s : State) : Host.Outcome State Fault Refusal :=
  runOn (ch < 32 && block < chanBlocks) (retireBlock ch) s

end Sys2Proof.Machine
end

