-- ==== Sys2Proof/Machine/Image.lean ====
section
/-!
DEFINITION. Sys2Proof/Machine/Image.lean: the image controller (R40 to R45, R51), the staging tacks and WEIGHTS_STAGE
(R256).
-/
namespace Sys2Proof.Machine
open Sys2Proof

/-- Change the image controller. -/
def modImg (f : ImgCtl → ImgCtl) (s : State) : State := { s with img := f s.img }

/-- An in-band interrupt of the owner port with its mandatory byte (R400): where interrupts are enabled, an address is assigned
and the I3C reference is present (R501). -/
def raiseIbi (b : Nat) (s : State) : State :=
  if s.i3c.ibi && s.i3c.addr.isSome && s.i3c.vref then emit (.ibi b) s else s

/-! ### Stage traffic (R40) -/

/-- Who sends stage traffic, as STAGE_SOURCE encodes it: 1 the owner port, 2 a host queue pair, 3 the NOR image store. -/
abbrev Stager := Nat × Nat

/-- Whether a source holds the stage lock. -/
def ImgCtl.holds (i : ImgCtl) (who : Stager) : Bool := i.source = who.1 && (who.1 ≠ 2 || i.stageQp = who.2)

/-- The three kinds of stage traffic. -/
inductive StageMsg where
  | begins | data | ends
deriving DecidableEq, Repr

/-- The refusal that stage traffic meets, as the code of R41: none where it is taken. -/
def ImgCtl.refuses (i : ImgCtl) (who : Stager) (m : StageMsg) : Option Nat :=
  match i.st with
  | 0 | 2 => if m = .begins then none else some 0x17
  | 1 => if i.holds who then none else some 0x16
  | _ => some 0x16

/-- STAGE_EVENT for traffic refused with STAGE_BUSY (R40, R439). Where it names a queue pair, it goes to that tenant (R265). -/
def stageBusyEvent (who : Stager) (s : State) : State :=
  if who.1 = 2 then logTo [tenantOf s who.2] 1 6 (unitChip 0) 0x0403 (4 + 32 + who.2 % 16384 * 64) s
  else logAll 1 6 (unitChip 0) 0x0403 (4 + who.1 * 16) s

/-- Stage traffic meets the controller: `f` where it is taken, else `no` with the code. Data and a stage begin from another source
that STAGING refuses are logged; R40 has no event for what CHECKING and SWITCHING refuse, nor for a stage end. -/
def stageTraffic (who : Stager) (m : StageMsg) (f : State → State) (no : Nat → State → State) (s : State) : State :=
  match s.img.refuses who m with
  | none => f s
  | some c => no c (if c = 0x16 ∧ s.img.st = 1 ∧ m ≠ .ends then stageBusyEvent who s else s)

/-- A source takes the stage lock, or stages afresh. -/
def beginStage (who : Stager) (s : State) : State :=
  modImg (fun i => { i.emptied with st := 1, source := who.1, stageQp := if who.1 = 2 then who.2 else 0, lastData := now s }) s

/-- Bytes go into the stage buffer. -/
def stageWrite (off : Nat) (b : Bytes) (s : State) : State :=
  modImg (fun i => { i with buf := writeBytes Config.ramDefault off b i.buf, lastData := now s }) s

/-- A stage end with a length. -/
def endStage (len : Nat) (s : State) : State := modImg (fun i => { i with st := 2, staged := len }) s

/-- The owner port's refusal: SEC_IMG_RESULT.CODE (R40). -/
def ownerRefused (c : Nat) (s : State) : State := modImg (fun i => { i with code := c }) s

/-! ### The owner port (R51) -/

/-- A write of SEC_IMG_STAGE_ADDR: it sets the offset; with bit 24 it is a stage end, and a write of 0 in EMPTY is the stage
begin. -/
def writeStageAddr (v : Word) (s : State) : State :=
  let off := wfield v 3 21 * 8
  let s := modImg (fun i => { i with addrFull := false }) { s with regs := { s.regs with stageAddr := BitVec.ofNat 64 off } }
  if bit v.toNat 24 then stageTraffic (1, 0) .ends (endStage (wfield v 32 32)) ownerRefused s
  else if v = 0 && s.img.st = 0 then beginStage (1, 0) s
  else s

/-- A write of SEC_IMG_STAGE_DATA: 8 bytes at the offset, which then advances; past the last word it stays, and a further write
is ignored with a warning. -/
def writeStageData (v : Word) (s : State) : State :=
  if s.img.addrFull then registerWarn .owner 0xB00068 3 s
  else
    let put (s : State) : State :=
      let a := s.regs.stageAddr.toNat
      let s := stageWrite a (le v.toNat 8) s
      if a ≥ 0xFFFFF8 then modImg (fun i => { i with addrFull := true }) s
      else { s with regs := { s.regs with stageAddr := BitVec.ofNat 64 (a + 8) } }
    stageTraffic (1, 0) .data put ownerRefused s

/-- OWNER_STAGE_BEGIN. -/
def execOwnerStageBegin (s : State) : Host.Outcome State Fault Refusal := run (gateWrite .owner 0xB00060 (writeStageAddr 0)) s

/-- OWNER_STAGE_END. -/
def execOwnerStageEnd (len : Nat) (s : State) : Host.Outcome State Fault Refusal :=
  run (gateWrite .owner 0xB00060 (writeStageAddr (BitVec.ofNat 64 (len * 2 ^ 32 + 2 ^ 24)))) s

/-- SEC_IMG_STAGE_DATA. -/
def execSecImgStageData (val : Word) (s : State) : Host.Outcome State Fault Refusal :=
  run (gateWrite .owner 0xB00068 (writeStageData val)) s

/-- The lock holder has sent no data for 10 s (R40). -/
def stageTimeout (s : State) : State :=
  if s.img.st = 1 then
    let s := advance (s.img.lastData + 10000000000) s
    logAll 1 6 (unitChip 0) 0x0403 1 (modImg ImgCtl.emptied s)
  else s

/-- STAGE_LOCK_TIMEOUT. -/
def execStageLockTimeout (s : State) : Host.Outcome State Fault Refusal := run stageTimeout s

/-! ### SEC_IMG_CMD (R45, R50) -/

/-- ABORT_STAGE. -/
def abortStage (s : State) : State := if s.img.st = 1 || s.img.st = 2 then modImg ImgCtl.emptied s else s

/-- SEAL without an accepted ACTIVATE: the active image is sealed; without one the write is ignored with a warning (R45). -/
def sealNow (s : State) : State :=
  if s.img.active.isSome then modImg (fun i => { i with isSealed := true }) s else registerWarn .owner 0xB00058 3 s

/-- ACTIVATE, with SEAL, PERSIST, AUTO and DRAIN_MS of the same write. -/
def activate (sealToo persist auto : Bool) (drainMs : Nat) (s : State) : State :=
  if s.img.st = 2 then
    modImg (fun i => { i with st := 3, sealHeld := sealToo, persist := persist, auto := auto, drainMs := drainMs, fromNor := false }) s
  else
    let s := ownerRefused 0x17 s
    if sealToo then sealNow s else s

/-- A write of SEC_IMG_CMD: ABORT_STAGE, then ACTIVATE, then SEAL (R45). -/
def writeImgCmd (v : Word) (s : State) : State :=
  let b (i : Nat) : Bool := bit v.toNat i
  let s := if b 2 then abortStage s else s
  if b 0 then activate (b 1) (b 3) (b 4) (wfield v 16 16) s
  else if b 1 then sealNow s
  else s

/-- ACTIVATE. -/
def execActivate (sealToo : Bool) (persist : Bool) (auto : Bool) (drainMs : Nat) (s : State) : Host.Outcome State Fault Refusal :=
  run (gateWrite .owner 0xB00058 (activate sealToo persist auto drainMs)) s

/-- SEAL. -/
def execSealImage (s : State) : Host.Outcome State Fault Refusal := run (gateWrite .owner 0xB00058 sealNow) s

/-- ABORT_STAGE. -/
def execAbortStage (s : State) : Host.Outcome State Fault Refusal := run (gateWrite .owner 0xB00058 abortStage) s

/-! ### Checks, drain, persist -/

/-- The staged bytes. -/
def stagedBytes (s : State) : Bytes := readBytes Config.ramDefault 0 (min s.img.staged (2 ^ 24)) s.img.buf

/-- SEC_IMG_RESULT (R48). -/
def imgResult (s : State) : Nat := place s.img.code 0 8 + place s.img.section_ 8 10 + place s.img.detail 18 32

/-- The boot stage while a stored image is checked goes back to WAIT_IMAGE (R460). -/
def backToWait (s : State) : State :=
  if s.pwr.bootStage = 10 then { s with pwr := { s.pwr with bootStage := 9 } } else s

/-- The checks of R41 are done: SWITCHING, with a drain where REVISION changes, or back to STAGED with a result. -/
def checkDone (s : State) : State :=
  if s.img.st ≠ 3 then s
  else match checkImage s (stagedBytes s) with
    | some (code, sec, detail) =>
      let s := modImg (fun i => { i with st := 2, code := code, section_ := sec, detail := detail, sealHeld := false }) s
      raiseIbi 1 (logAll 1 6 (unitChip 0) 0x0401 (imgResult s) (backToWait s))
    | none =>
      let i := readImage (stagedBytes s)
      let drain := match s.img.active with
        | some a => decide (a.revision ≠ i.revision)
        | none => false
      raiseIbi 1 (modImg (fun c =>
        { c with st := 4, code := 1, section_ := 0x3FF, detail := 0, next := some i, passedAt := now s, draining := drain,
                 drainOver := false }) s)

/-- IMAGE_CHECK_DONE. -/
def execImageCheckDone (s : State) : Host.Outcome State Fault Refusal := run checkDone s

/-- DRAIN_MS has elapsed since the checks passed: the turns left end at the next boundary (R43). -/
def drainTimeout (s : State) : State :=
  if s.img.st = 4 && s.img.draining && !s.img.drainOver then
    modImg (fun i => { i with drainOver := true }) (advance (s.img.passedAt + s.img.drainMs * 1000000) s)
  else s

/-- DRAIN_TIMEOUT. -/
def execDrainTimeout (s : State) : Host.Outcome State Fault Refusal := run drainTimeout s

/-- The image store header (R458). -/
def storeHeader (i : Image) (auto : Bool) : Bytes :=
  fit (le 0x524F5453474D4959 8 ++ le 0x48 1 ++ le (if auto then 3 else 1) 1 ++ zeros 2 ++ le i.raw.length 4 ++ fit i.measured 32) 4096

/-- The persist of R44 is complete, or has failed. -/
def persistDone (ok : Bool) (s : State) : State :=
  match s.img.storing with
  | none => s
  | some i =>
    let s := modImg (fun i => { i with storing := none }) s
    if ok then norWrite 0x1000000 (storeHeader i s.img.persistAuto) (norWrite 0x1001000 i.raw s)
    else logAll 1 6 (unitChip 0) 0x0403 2 s

/-- IMAGE_PERSIST_COMPLETE. -/
def execImagePersistComplete (ok : Bool) (s : State) : Host.Outcome State Fault Refusal := run (persistDone ok) s

/-! ### The staging tacks (R256) -/

/-- The tack status of a refusal of R40. -/
def stageStatus (c : Nat) : Nat := if c = 0x16 then 0x30 else 0x31

/-- STAGE_BEGIN at check 8 of R253. -/
def stageBeginEff (h : TackHdr) (s : State) : State :=
  let who : Stager := (2, h.qp)
  stageTraffic who .begins (fun s => completeOp h 0x10 0 (beginStage who s)) (fun c s => completeOp h 0x10 (stageStatus c) s) s

/-- STAGE_BEGIN. -/
def execStageBegin (h : TackHdr) (s : State) : Host.Outcome State Fault Refusal :=
  run (tackRow h .stageBegin fun _ => stageBeginEff h) s

/-- The bytes of a STAGE_DATA are here. -/
def stageDataBytes (h : TackHdr) (off : Nat) (x : Bytes) (s : State) : State :=
  stageTraffic (2, h.qp) .data (fun s => completeOp h 0x11 0 (stageWrite off x s))
    (fun c s => completeOp h 0x11 (stageStatus c) s) s

/-- STAGE_DATA at check 8 of R253: its arguments, then the controller, then its reference. -/
def stageDataEff (h : TackHdr) (off : Nat) (p : Payload) (s : State) : State :=
  let n := match p with | .inline x => x.length | .ref r => r.len
  if off % 8 ≠ 0 || off + n > 2 ^ 24 then completeOp h 0x11 0x0A s
  else match p with
    | .inline x => stageDataBytes h off x s
    | .ref r =>
      stageTraffic (2, h.qp) .data
        (fun s => if refRefused r then completeOp h 0x11 0x50 s else startFetch h (.stageData off p) r 0 [] s)
        (fun c s => completeOp h 0x11 (stageStatus c) s) s

/-- STAGE_DATA. -/
def execStageData (h : TackHdr) (off : Nat) (p : Payload) (s : State) : Host.Outcome State Fault Refusal :=
  run (tackRow h (.stageData off p) fun _ => stageDataEff h off p) s

/-- STAGE_END at check 8 of R253. -/
def stageEndEff (h : TackHdr) (len : Nat) (s : State) : State :=
  stageTraffic (2, h.qp) .ends (fun s => completeOp h 0x12 0 (endStage len s)) (fun c s => completeOp h 0x12 (stageStatus c) s) s

/-- STAGE_END. -/
def execStageEnd (h : TackHdr) (len : Nat) (s : State) : Host.Outcome State Fault Refusal :=
  run (tackRow h (.stageEnd len) fun _ => stageEndEff h len) s

/-- WEIGHTS_STAGE at check 8 of R253: the set is fetched. -/
def weightsStageEff (h : TackHdr) (c : Nat) (r : DataRef) (s : State) : State :=
  if refRefused r then completeOp h 0x15 0x50 s else startFetch h (.weightsStage c r) r 0 [] s

/-- A fetched weight set: kept where its digest is the context's, and the context loads where it is UNLOADED with AUTO_RELOAD
(R96, R256, R460). -/
def weightsFetched (h : TackHdr) (c : Nat) (x : Bytes) (s : State) : State :=
  let same := match ctxCfg? s c with
    | some cfg => decide (sha256 x = cfg.digest)
    | none => false
  if same then
    let s := completeOp h 0x15 0 (stageSource c x s)
    if (ctxOf s c).state = 1 && autoReload s c then startLoad c s else s
  else completeOp h 0x15 0x3C s

/-- WEIGHTS_STAGE. -/
def execWeightsStage (h : TackHdr) (ctx : Nat) (r : DataRef) (s : State) : Host.Outcome State Fault Refusal :=
  run (tackRow h (.weightsStage ctx r) fun _ => weightsStageEff h ctx r) s

end Sys2Proof.Machine
end

