-- ==== Sys2Proof/Machine/Vector.lean ====
section
/-!
DEFINITION. Sys2Proof/Machine/Vector.lean: the vector commands (R212, R221 to R229, R242), their forwarding (R358), and the work
of the channel engines.
-/
namespace Sys2Proof.Machine
open Sys2Proof

/-! ### What every vector tack meets -/

/-- The tenant a vector tack acts for: its queue pair's, or, forwarded, its job's. -/
def vecTenant (s : State) (h : TackHdr) : Nat :=
  match h.fwd with
  | none => tenantOf s h.qp
  | some (_, job) => ((job? s job).map (·.map.tenant)).getD 0

/-- The other member that a vector pool of the queue pair's job names for an index (R358). -/
def vecOwner (s : State) (h : TackHdr) (id : Nat) : Option (Nat × Nat) :=
  if h.fwd.isSome then none
  else match (jobOfQp s h.qp).bind (job? s) with
    | none => none
    | some j =>
      let es := (j.map.pools.filter (·.kind = 1)).flatMap (·.members)
      match es.find? fun e => e.2.1 ≤ id && id < e.2.1 + e.2.2.1 with
      | none => none
      | some e =>
        let node := (j.map.members.getD e.1 default).node
        if node = selfNode s then none else some (node, j.map.job)

/-- PWR_ENABLE.VECTOR (R461). -/
def vecServed (s : State) : Bool := bit s.regs.pwrEnable.toNat 0

/-- A vector tack at check 8: forwarded once where another member holds the index, refused while the engines are off, else its
effect. -/
def vecRow (h : TackHdr) (b : TackBody) (id : Nat) (eff : State → State) (s : State) : State :=
  match vecOwner s h id with
  | some (node, job) =>
    let s := { s with map := { s.map with forwards := sat (s.map.forwards + 1) 32 } }
    match b with
    | .vecQuery r q =>
      let (a, s) := freshAddr s
      let addr := a % 0x1800000 * 65536
      let w : VWin := { hdr := h, job := job, addr := addr, buf := r }
      sendSession node job (.tack h (.vecQuery { addr := addr, len := r.len, rkey := 0 } q))
        { s with vec := { s.vec with wins := s.vec.wins ++ [w] } }
    | _ => sendSession node job (.tack h b) s
  | none => if vecServed s then eff s else complete h b 0x04 s

/-- The index that a tack of a tenant names: none where there is none, it was dropped, or another tenant has it (R212). -/
def vecIndex (s : State) (h : TackHdr) (id : Nat) : Option VIndex :=
  (vindex? s id).bind fun x => if x.dropped || x.tenant ≠ vecTenant s h then none else some x

/-! ### VEC_CREATE and VEC_DROP -/

/-- Whether a descriptor breaks R211, given its bytes and those of its rows. -/
def badDescriptor (b : Bytes) : Bool :=
  let kind := leAt b 1 1
  let graph := decide (kind = 1)
  let fmt := leAt b 3 1
  let dim := leAt b 4 2
  let bits := leAt b 6 2
  let deg := leAt b 17 1
  let cp := leAt b 18 2
  let nlist := leAt b 20 4
  let cap := leAt b 48 8
  let need := 256 + nlist * rowBytes fmt dim + (if bit (leAt b 40 1) 0 then rowBytes 8 dim else 0) +
    (if leAt b 16 1 = 1 then nlist * (bits / 8) else 0)
  b.length < 256 || !versionOk (leAt b 0 1) || 1 < kind || 2 < leAt b 2 1 || !(fmt = 1 || fmt = 7 || fmt = 8) ||
  dim < 32 || 8192 < dim || dim % 32 ≠ 0 || !([256, 512, 1024, 2048, 4096] : List Nat).contains bits || 4095 < leAt b 8 2 ||
  leAt b 12 4 = 0 || 1 < leAt b 16 1 || cap < 1 || 2 ^ 32 - 1 < cap ||
  (if graph then deg < 8 || 64 < deg || cp < 16 || 1024 < cp || nlist ≠ 0
   else deg ≠ 0 || cp < 1 || 4096 < cp || nlist < cp || nlist < 1 || 65536 < nlist) ||
  b.length < need

/-- The index of a descriptor and its rows; centroids are normalised under cosine, and their sketches computed under
SKETCH_KIND 0. -/
def readDescriptor (tenant : Nat) (b : Bytes) : VIndex :=
  let fmt := leAt b 3 1
  let dim := leAt b 4 2
  let bits := leAt b 6 2
  let nlist := leAt b 20 4
  let n := rowBytes fmt dim
  let cAt := 256 + nlist * n
  let centered := bit (leAt b 40 1) 0
  let skAt := cAt + (if centered then rowBytes 8 dim else 0)
  let x : VIndex :=
    { id := leAt b 8 2, tenant := tenant, graph := decide (leAt b 1 1 = 1), metric := leAt b 2 1, format := fmt, dim := dim, bits := bits,
      mask := leAt b 12 4, skKind := leAt b 16 1, degree := leAt b 17 1, cprobe := leAt b 18 2, nlist := nlist, key := slice b 24 16,
      centre := if centered then rowValues 8 dim (slice b cAt (rowBytes 8 dim)) else [], capacity := leAt b 48 8, cents := [], csk := [],
      head := b.take 10 ++ le tenant 2 ++ b.drop 12 }
  let row (i : Nat) : List F32 := rowValues fmt dim (slice b (256 + i * n) n)
  let cents := (List.range nlist).map fun i => if x.metric = 2 then x.stored (normalised (row i)) else row i
  let csk := if x.skKind = 1 then (List.range nlist).map fun i => slice b (skAt + i * (bits / 8)) (bits / 8) else cents.map x.sketch
  { x with cents := cents, csk := csk }

/-- VEC_CREATE with its descriptor and rows at hand (R212). -/
def createIndex (h : TackHdr) (b : Bytes) (s : State) : State :=
  if badDescriptor b then completeOp h 0x20 0x0A (noteVersion 0x30 b 0 s)
  else
    let x := readDescriptor (vecTenant s h) b
    match vindex? s x.id with
    | some y => completeOp h 0x20 (if y.tenant = x.tenant then 0x43 else 0x42) s
    | none =>
      if s.vec.idxs.length ≥ 256 || !vecRoom s none x then completeOp h 0x20 0x44 s
      else
        let s := accountVec none (some x) { s with vec := { s.vec with idxs := s.vec.idxs ++ [x] } }
        completeOp h 0x20 0 (program x.id [] s) { a := x.id }

/-- VEC_CREATE at check 8 of R253 with its bytes: it may be another member's. -/
def vecCreateBytes (h : TackHdr) (x : Bytes) (s : State) : State :=
  vecRow h (.vecCreate (.inline x)) (leAt x 8 2) (createIndex h x) s

/-- VEC_CREATE at check 8 of R253. -/
def vecCreateEff (h : TackHdr) (p : Payload) (s : State) : State :=
  match p with
  | .inline x => vecCreateBytes h x s
  | .ref r => if refRefused r then completeOp h 0x20 0x50 s else startFetch h (.vecCreate p) r 0 [] s

/-- VEC_CREATE. -/
def execVecCreate (h : TackHdr) (p : Payload) (s : State) : Host.Outcome State Fault Refusal :=
  run (tackRow h (.vecCreate p) fun _ => vecCreateEff h p) s

/-- VEC_DROP (R212, R233): updates that wait and queries that are not admitted yet receive NO_INDEX. -/
def dropIndex (h : TackHdr) (id : Nat) (s : State) : State :=
  match vecIndex s h id with
  | none => completeOp h 0x21 0x42 s
  | some x =>
    let s := sweepWork (setIndex { x with dropped := true, waiting := [], repairing := none } s)
    let s := x.waiting.foldl (fun s u => answerUpd 0x42 u s) s
    let s := (x.queries.filter (!·.active)).foldl (fun s q => endQuery x q 0x42 {} s) s
    completeOp h 0x21 0 (reapIndexes s)

/-- VEC_DROP at check 8 of R253. -/
def vecDropEff (h : TackHdr) (id : Nat) (s : State) : State := vecRow h (.vecDrop id) id (dropIndex h id) s

/-- VEC_DROP. -/
def execVecDrop (h : TackHdr) (id : Nat) (s : State) : Host.Outcome State Fault Refusal :=
  run (tackRow h (.vecDrop id) fun _ => vecDropEff h id) s

/-! ### Repair starts (R226) -/

/-- VEC_CFG.REPAIR_ENABLE (R235). -/
def repairOn (s : State) : Bool := bit s.regs.vecCfg.toNat 53

/-- Repair or compaction starts on an index, where none runs: a sweep binds R, and its bulk work goes to the engines of the index's
channels (R227). -/
def startRepair (id : Nat) (s : State) : State :=
  match vindex? s id with
  | none => s
  | some x =>
    if repairOn s && x.repairing.isNone && !x.dropped then
      sendWrites x .repair true x.chans (setIndex { x with repairing := some x.pub } s)
    else s

/-- Repair and compaction start on every index. -/
def startAllRepairs (s : State) : State := s.vec.idxs.foldl (fun s x => startRepair x.id s) s

/-! ### Inserts (R224) -/

/-- The lowest free slot and its GEN: a reclaimed one, or the next never used; none where the index is full. -/
def VIndex.nextSlot (x : VIndex) : Option (Nat × Nat) :=
  match x.freeSlots.min? with
  | some v =>
    let g := findD v x.gens 0
    some (v, if g ≥ 0xFFFFFF then 1 else g + 1)
  | none => if x.gens.length < x.capacity then some (x.gens.length, 1) else none

/-- A node's newest edges. -/
def VRec.newest (r : VRec) : List (Nat × Nat) := (r.edges.head?.map (·.2)).getD []

/-- Edges cut to DEGREE, the nearest to a node by (DIST, SLOT) where there are more. -/
def VIndex.cut (x : VIndex) (r : VRec) (es : List (Nat × Nat)) : List (Nat × Nat) :=
  if es.length ≤ x.degree then es
  else
    let d (e : Nat × Nat) : Nat := match x.node? e.1 with | some y => distKey (x.dist r.vec y.vec) | none => 2 ^ 40
    (sortKey (fun e => [d e, e.1]) es).take x.degree

/-- A node takes a new version of its neighbour list. -/
def VIndex.relist (x : VIndex) (r : VRec) (seq : Nat) (es : List (Nat × Nat)) : VIndex :=
  { x with recs := x.recs.map fun y => if y.slot = r.slot && y.gen = r.gen then { y with edges := (seq, es) :: y.edges } else y }

/-- A new node is linked to its DEGREE nearest, and each of them to it (R224 step 5). -/
def VIndex.link (x : VIndex) (r : VRec) : VIndex :=
  let ask : VAsk := { k := x.degree, depth := x.cprobe, nprobe := x.cprobe, limit := x.cprobe }
  let near := ((x.walk r.vec r.sketch (r.seq - 1) ask).hits).map (·.rcd)
  let node : VRec := { r with edges := [(r.seq, near.map fun n => (n.slot, n.gen))] }
  let old := x.entriesAt r.seq
  let joins := decide (x.recs.length < 16) && decide (old.length < 16) && !old.contains r.slot
  let x : VIndex := { x with recs := x.recs ++ [node], entries := if joins then (r.seq, old ++ [r.slot]) :: x.entries else x.entries }
  ((sortKey (fun n => [n.slot]) near).foldl (fun (x : VIndex) n => x.relist n r.seq (x.cut n (n.newest ++ [(r.slot, r.gen)]))) x).placeUnits

/-- The vector and sketch of an insert, in its data. -/
def VIndex.insertData (x : VIndex) (d : Bytes) : List F32 × Bytes :=
  let v := x.stored (x.asQuery (f32sAt d 0 x.dim))
  (v, if x.skKind = 1 then slice d (4 * x.dim) x.skBytes else x.sketch v)

/-- An index with a vector inserted at the next SEQ: the index, the record, the update that waits. -/
def VIndex.insert (x : VIndex) (h : TackHdr) (b : VecInsertBody) (slot gen t : Nat) : VIndex :=
  let u := x.updates + 1
  let (v, sk) := x.insertData b.data
  let list := if x.graph then 0 else (x.rankLists v sk).headD 0
  let r : VRec := { slot := slot, gen := gen, id := b.id, attr := b.attr, seq := u, list := list, vec := v, sketch := sk }
  let pos := if x.graph then slot else (x.listRecs list).length
  let upd : VUpd := { seq := u, bulk := bit b.cls 0, list := list, pos := some pos, since := t, answer := some (h, 0x22, slot, gen, u) }
  let x : VIndex := { x with updates := u, gens := putN slot gen x.gens, freeSlots := x.freeSlots.filter (· ≠ slot),
                             waiting := x.waiting ++ [upd] }
  if x.graph then x.link r else { x with recs := x.recs ++ [r] }

/-- The channels that an insert writes to: its list's, or those of the node versions of its SEQ. -/
def VIndex.insertChans (x : VIndex) (seq list : Nat) : List Nat :=
  if x.graph then ((x.units.filter (·.seq = seq)).map (·.ch)).eraseDups else [x.chanOf list]

/-- VEC_INSERT on the engine. -/
def insertVec (h : TackHdr) (b : VecInsertBody) (s : State) : State :=
  match vecIndex s h b.indexId with
  | none => completeOp h 0x22 0x42 s
  | some x =>
    if vecDegraded s x then completeOp h 0x22 0x45 s
    else if b.data.length < 4 * x.dim + (if x.skKind = 1 then x.skBytes else 0) then completeOp h 0x22 0x0A s
    else if x.badVector (f32sAt b.data 0 x.dim) then completeOp h 0x22 0x46 s
    else match x.nextSlot with
      | none => completeOp h 0x22 0x44 s
      | some (slot, gen) =>
        let y := x.insert h b slot gen (now s)
        let list := ((y.waiting.getLast?).map (·.list)).getD 0
        if vecRoom s (some x) y then sendWrites y (.update y.updates) (bit b.cls 0) (y.insertChans y.updates list) (setIndex y s)
        else completeOp h 0x22 0x44 s

/-- VEC_INSERT at check 8 of R253. -/
def vecInsertEff (h : TackHdr) (b : VecInsertBody) (s : State) : State := vecRow h (.vecInsert b) b.indexId (insertVec h b) s

/-- VEC_INSERT. -/
def execVecInsert (h : TackHdr) (b : VecInsertBody) (s : State) : Host.Outcome State Fault Refusal :=
  run (tackRow h (.vecInsert b) fun _ => vecInsertEff h b) s

/-! ### Deletes (R225) -/

/-- Entries of a delete log. -/
def delLogMax : Nat := 4194304

/-- VEC_DELETE on the engine. -/
def deleteVec (h : TackHdr) (id cls slot gen : Nat) (s : State) : State :=
  match vecIndex s h id with
  | none => completeOp h 0x23 0x42 s
  | some x =>
    if vecDegraded s x then completeOp h 0x23 0x45 s
    else if !(x.recs.any fun r => r.slot = slot && r.gen = gen && (x.delSeq r).isNone) then completeOp h 0x23 0x47 s
    else if x.dels.length ≥ delLogMax then completeOp h 0x23 0x48 (startRepair id (hit 30 s))
    else
      let u := x.updates + 1
      let upd : VUpd := { seq := u, bulk := bit cls 0, since := now s, answer := some (h, 0x23, u, 0, 0) }
      let s := setIndex { x with updates := u, dels := x.dels ++ [(slot, gen, u)], waiting := x.waiting ++ [upd] } s
      if x.dels.length + 1 > delLogMax / 2 then startRepair id s else s

/-- VEC_DELETE at check 8 of R253. -/
def vecDeleteEff (h : TackHdr) (id cls slot gen : Nat) (s : State) : State :=
  vecRow h (.vecDelete id cls slot gen) id (deleteVec h id cls slot gen) s

/-- VEC_DELETE. -/
def execVecDelete (h : TackHdr) (id : Nat) (cls : Nat) (slot : Nat) (gen : Nat) (s : State) : Host.Outcome State Fault Refusal :=
  run (tackRow h (.vecDelete id cls slot gen) fun _ => vecDeleteEff h id cls slot gen) s

/-! ### Queries (R218, R221, R222, R228, R229) -/

/-- Coordinator contexts of an engine. -/
def coordMax : Nat := 256

/-- A query takes the lowest free coordinator context of its engine: it binds its snapshot (R218) and its first work is sent. None is
admitted while the module quiesces for STANDBY (R463). -/
def admitQuery (id qseq : Nat) (s : State) : State :=
  match vindex? s id with
  | none => s
  | some x =>
    match x.queries.find? (·.qseq = qseq) with
    | none => s
    | some q =>
      if s.pwr.goto = some 1 then s else
      let p := readAsk q.raw
      let snap := if p.named then p.snap else x.pub
      if snap > x.pub then endQuery x q 0x49 {} s
      else if snap < x.horizon then endQuery x q 0x4A {} s
      else
        let used := ((vecQueries s).filter fun y => y.ch = q.ch && y.active).map (·.ctx)
        let s := { s with vec := { s.vec with arrivals := s.vec.arrivals + 1 } }
        let q := { q with snap := snap, active := true, order := s.vec.arrivals, ctx := leastOut used coordMax 0 }
        goOn id qseq (setIndex { x with queries := x.queries.map fun y => if y.qseq = qseq then q else y } s)

/-- A command reaches its coordinator (R228). -/
def queueQuery (x : VIndex) (h : TackHdr) (r : DataRef) (raw : Bytes) (s : State) : State :=
  let n := x.nextQ
  let ch := x.chanOf n
  let free := engCoord s ch < coordMax
  if !free && engInput s ch ≥ 4096 then
    completeOp h 0x24 0x4B (hit 24 { s with vec := { s.vec with busy := sat (s.vec.busy + 1) 32 } })
  else
    let s := { s with vec := { s.vec with arrivals := s.vec.arrivals + 1 } }
    let q : VQuery := { qseq := n, ch := ch, order := s.vec.arrivals, hdr := h, buf := r, raw := raw, bulk := (readAsk raw).bulk }
    let s := setIndex { x with nextQ := n + 1, queries := x.queries ++ [q] } s
    if free then admitQuery x.id n s else hit 23 s

/-- VEC_QUERY on the engines. -/
def queryVecs (h : TackHdr) (r : DataRef) (raw : Bytes) (s : State) : State :=
  match vecIndex s h (leAt raw 2 2) with
  | none => completeOp h 0x24 0x42 s
  | some x =>
    if refRefused r then completeOp h 0x24 0x50 s
    else if vecDegraded s x then completeOp h 0x24 0x45 s
    else if x.badAsk raw r.len then completeOp h 0x24 0x49 (noteVersion 0x30 raw 0 s)
    else queueQuery x h r raw s

/-- VEC_QUERY at check 8 of R253. -/
def vecQueryEff (h : TackHdr) (r : DataRef) (q : Bytes) (s : State) : State :=
  vecRow h (.vecQuery r q) (leAt q 2 2) (queryVecs h r q) s

/-- VEC_QUERY. -/
def execVecQuery (h : TackHdr) (r : DataRef) (q : Bytes) (s : State) : Host.Outcome State Fault Refusal :=
  run (tackRow h (.vecQuery r q) fun _ => vecQueryEff h r q) s

/-- The first of some queries in arrival order. -/
def firstOrder (qs : List (Nat × VQuery)) : Option (Nat × VQuery) := leastBy (fun p => [p.2.order]) qs

/-- The queries of every index, with its number. -/
def queriesBy (s : State) : List (Nat × VQuery) := s.vec.idxs.flatMap fun x => x.queries.map fun q => (x.id, q)

/-- The command that takes an engine's next coordinator context: interactive before bulk, each in arrival order (R228). -/
def nextCommand? (ch : Nat) (s : State) : Option (Nat × VQuery) :=
  let wait := (queriesBy s).filter fun p => p.2.ch = ch && !p.2.active
  match firstOrder (wait.filter fun p => !p.2.bulk) with
  | some p => some p
  | none => firstOrder wait

/-- A command that waits takes a coordinator context. -/
def coordinatorAdmit (ch : Nat) (s : State) : State :=
  if engCoord s ch ≥ coordMax then s
  else match nextCommand? ch s with
    | none => s
    | some p => admitQuery p.1 p.2.qseq s

/-- COORDINATOR_ADMIT. -/
def execCoordinatorAdmit (ch : Nat) (s : State) : Host.Outcome State Fault Refusal := runOn (ch < 32) (coordinatorAdmit ch) s

/-- FORWARDED_WORK. -/
def execForwardedWork (ch : Nat) (s : State) : Host.Outcome State Fault Refusal := runOn (ch < 32) (takeWork ch) s

/-- The status of a query by what it found (R223). -/
def foundStatus (p : VAsk) (f : VFound) : Nat := if f.hits.length = p.k then 0 else if p.filtered then 0x40 else 0x41

/-- The rounds that a query's completion may run through. -/
def VIndex.bound (x : VIndex) (q : VQuery) : Nat := sumN ((x.plan q).map fun r => r.length + 1) + 1

/-- A query's scans and re-ranks complete: with none of its work waiting for an engine or an open batch, it ends with what it found
(R223, R232). -/
def queryComplete (id qseq : Nat) (s : State) : State :=
  match vindex? s id with
  | none => s
  | some x =>
    match x.queries.find? fun q => q.qseq = qseq && q.active with
    | none => s
    | some q =>
      if vecDegraded s x then endQuery x q 0x45 {} s
      else
        let s := finishWork id qseq (x.bound q) s
        match vindex? s id with
        | none => s
        | some x =>
          match x.queries.find? fun q => q.qseq = qseq && q.active with
          | none => s
          | some q =>
            let p := readAsk q.raw
            let f := x.search (x.queryVec q.raw) (x.querySketch q.raw) q.snap p
            if queryThrough s x q then endQuery x q (foundStatus p f) f s else s

/-- VEC_QUERY_COMPLETE. -/
def execVecQueryComplete (idx : Nat) (qseq : Nat) (s : State) : Host.Outcome State Fault Refusal := run (queryComplete idx qseq) s

/-- BATCH_WAIT_MS as taken (R235), in ns. -/
def batchWait (s : State) : Nat := max 1 (wfield s.regs.vecCfg 7 10) * 1000000

/-- The batch of a list closes BATCH_WAIT_MS after it opened, and its list is to be scanned once (R229). -/
def batchClose (ch id list : Nat) (s : State) : State :=
  match vindex? s id with
  | none => s
  | some x =>
    match x.batches.find? fun b => b.list = list && !b.closed with
    | none => s
    | some b => if x.chanOf list ≠ ch then s else closeBatch x b (advance (b.opened + batchWait s) s)

/-- BATCH_CLOSE. -/
def execBatchClose (ch : Nat) (idx : Nat) (list : Nat) (s : State) : Host.Outcome State Fault Refusal :=
  runOn (ch < 32) (batchClose ch idx list) s

/-! ### Durability and publication (R218, R224) -/

/-- FLUSH_US as taken (R235), in ns. -/
def flushWait (s : State) : Nat := max 1 (wfield s.regs.vecCfg 37 16) * 1000

/-- The tail tiles of a list, or of a graph index, are programmed FLUSH_US after their first unprogrammed record (R224; log entry 160). -/
def tailFlush (id list : Nat) (s : State) : State :=
  match vindex? s id with
  | none => s
  | some x =>
    let tail (u : VUpd) : Bool := (x.graph || u.list = list) && u.pos.isSome && !x.programming u
    match ((x.waiting.filter tail).map (·.since)).min? with
    | none => s
    | some t =>
      let s := advance (t + flushWait s) s
      setIndex { x with waiting := x.waiting.map fun u => if tail u then { u with flushed := true } else u } s

/-- TAIL_FLUSH. -/
def execTailFlush (idx : Nat) (list : Nat) (s : State) : Host.Outcome State Fault Refusal := run (tailFlush idx list) s

/-- The tiles that hold an update are programmed: it is durable, and what is published is answered (R218). Not while its writes wait for
an engine, nor on an index with a fenced channel. -/
def updateDurable (id useq : Nat) (s : State) : State :=
  match vindex? s id with
  | none => s
  | some x =>
    if workWaits s id (.update useq) || vecDegraded s x then s
    else
      let s := endReads (fun w => w.idx = id && decide (w.owner = .update useq)) s
      match vindex? s id with
      | none => s
      | some x =>
        let f (u : VUpd) : VUpd := if u.seq = useq && x.programming u then { u with durable := true } else u
        publish id (program id [useq] (setIndex { x with waiting := x.waiting.map f } s))

/-- UPDATE_DURABLE. -/
def execUpdateDurable (idx : Nat) (useq : Nat) (s : State) : Host.Outcome State Fault Refusal := run (updateDurable idx useq) s

/-! ### The horizon, repair and reclamation (R218, R226) -/

/-- What a sweep reclaims once the horizon has passed its last SEQ: the slots deleted at or before its R, their log entries, and
the versions that are superseded. -/
def VIndex.reclaimed (x : VIndex) (r : Nat × Nat) : VIndex :=
  let gone (d : Nat × Nat × Nat) : Bool := d.2.2 ≤ r.1
  let dead := x.dels.filter gone
  let isDead (y : VRec) : Bool := dead.any fun d => d.1 = y.slot && d.2.1 = y.gen
  let trim (y : VRec) : VRec :=
    let old := y.edges.filter (·.1 ≤ r.2)
    { y with edges := y.edges.filter (r.2 < ·.1) ++ old.take 1 }
  ({ x with recs := (x.recs.filter fun y => !isDead y).map trim, dels := x.dels.filter fun d => !gone d,
            freeSlots := x.freeSlots ++ (dead.map (·.1)), reclaim := x.reclaim.filter (· ≠ r) } : VIndex).placeUnits

/-- Every sweep that the horizon has passed reclaims. -/
def VIndex.reclaimAll (x : VIndex) : VIndex := (x.reclaim.filter (·.2 < x.horizon)).foldl VIndex.reclaimed x

/-- The horizon an index may move to at a time: the PUBLISHED_SEQ of SNAPSHOT_KEEP_S earlier, held back by the snapshots of
admitted queries. -/
def VIndex.horizonAt (x : VIndex) (keep t : Nat) : Nat :=
  let old := (x.pubLog.filter fun p => p.1 + keep ≤ t).foldl (fun m p => max m p.2) 0
  (x.queries.filter (·.active)).foldl (fun m q => min m q.snap) old

/-- The log without what no horizon can move to any more. -/
def VIndex.trimLog (x : VIndex) : VIndex :=
  { x with pubLog := x.pubLog.filter fun p => x.horizon < p.2
           entries := x.entries.filter (fun e => x.horizon < e.1) ++ (x.entries.filter (fun e => e.1 ≤ x.horizon)).take 1 }

/-- One second has passed: the horizon of every index advances (R218). -/
def horizonAdvance (s : State) : State :=
  let s := advance ((now s / 1000000000 + 1) * 1000000000) s
  let keep := wfield s.regs.vecCfg 17 20 * 1000000000
  s.vec.idxs.foldl (fun s x =>
    let y : VIndex := { x with horizon := max x.horizon (x.horizonAt keep (now s)) }
    program x.id [] (setIndex y.reclaimAll.trimLog s)) s

/-- HORIZON_ADVANCE. -/
def execHorizonAdvance (s : State) : Host.Outcome State Fault Refusal := run horizonAdvance s

/-- The next full hour comes: repair and compaction start (R226; log entry 163). -/
def hourlyRepair (s : State) : State := startAllRepairs (advance ((now s / 3600000000000 + 1) * 3600000000000) s)

/-- REPAIR_START. -/
def execRepairStart (s : State) : Host.Outcome State Fault Refusal := run hourlyRepair s

/-- Whether a record is deleted below the horizon. -/
def VIndex.isOld (x : VIndex) (r : VRec) : Bool := match x.delSeq r with | some d => decide (d < x.horizon) | none => false

/-- The lists that compaction rewrites: those with records deleted below the horizon. -/
def VIndex.oldLists (x : VIndex) : List Nat := (List.range x.nlist).filter fun l => x.recs.any fun r => r.list = l && x.isOld r

/-- The list of whose run a tile is. -/
def VTile.list? (t : VTile) : Option Nat :=
  match t.part with
  | .sketch l | .vector l => some l
  | _ => none

/-- The runs of some lists leave their place; each list's tiles stay with the owners of the scans in flight on it (R226). -/
def retireRuns (id : Nat) (lists : List Nat) (s : State) : State :=
  match vindex? s id with
  | none => s
  | some x =>
    let of (l : Nat) : VStale := { list := l, tiles := x.tiles.filter fun t => t.list? = some l, owners := scanning s id l }
    setIndex { x with stale := x.stale ++ lists.map of
                      tiles := x.tiles.filter fun t => !((t.list?.map lists.contains).getD false) } s

/-- IVF compaction: each list with records deleted below the horizon is rewritten without them, under one SEQ. -/
def VIndex.compact (x : VIndex) : VIndex :=
  let old := x.isOld
  let lists := x.oldLists
  let gone := x.recs.filter old
  let flushed (u : VUpd) : VUpd := if lists.contains u.list && u.pos.isSome then { u with flushed := true } else u
  { x with updates := x.updates + lists.length, recs := x.recs.filter (fun r => !old r),
           dels := x.dels.filter (fun d => !(gone.any fun r => r.slot = d.1 && r.gen = d.2.1)),
           freeSlots := x.freeSlots ++ gone.map (·.slot), waiting := x.waiting.map flushed }

/-- Graph repair of one node at R: its dead targets give way to their own visible neighbours. -/
def VIndex.repairNode (r : Nat) (x : VIndex) (n : VRec) : VIndex :=
  let deadAt (e : Nat × Nat) : Option VRec :=
    (x.recs.find? fun y => y.slot = e.1 && y.gen = e.2).bind fun y =>
      match x.delSeq y with
      | some d => if d ≤ r then some y else none
      | none => none
  let es := n.newest
  let dead := es.filterMap deadAt
  if dead.isEmpty then x
  else
    let liveEdge (e : Nat × Nat) : Bool :=
      e ≠ (n.slot, n.gen) && x.recs.any fun y => y.slot = e.1 && y.gen = e.2 && x.visible r y
    let more := (dead.flatMap (·.newest)).filter liveEdge
    let all := (es.filter (fun e => (deadAt e).isNone) ++ more).eraseDups
    ({ x with updates := x.updates + 1 } : VIndex).relist n (x.updates + 1) (x.cut n all)

/-- An entry slot that is deleted is replaced by its least visible neighbour. -/
def VIndex.repairEntry (r : Nat) (x : VIndex) (e : Nat) : Nat :=
  match x.node? e with
  | none => e
  | some n =>
    match x.delSeq n with
    | none => e
    | some d =>
      if d > r then e
      else (((n.newest.filter fun t => x.recs.any fun y => y.slot = t.1 && y.gen = t.2 && x.visible r y).map (·.1)).min?).getD e

/-- A graph sweep at R over the nodes visible there, in ascending slot order. New entry slots hold from the SEQ after its last on (log entry
159). -/
def VIndex.sweep (x : VIndex) (r : Nat) : VIndex :=
  let nodes := sortKey (fun n => [n.slot]) (x.recs.filter (x.visible r))
  let y := nodes.foldl (VIndex.repairNode r) x
  let now := y.entriesAt (y.updates + 1)
  let entries := (now.map (y.repairEntry r)).eraseDups
  ({ y with entries := if entries = now then y.entries else (y.updates + 1, entries) :: y.entries
            reclaim := y.reclaim ++ [(r, y.updates)] } : VIndex).placeUnits.reclaimAll

/-- A repair or compaction pass completes (R226). -/
def vectorPass (id : Nat) (s : State) : State :=
  match vindex? s id with
  | none => s
  | some x =>
    match x.repairing with
    | none => s
    | some r =>
      if !repairOn s || vecDegraded s x || workWaits s id .repair then s
      else
        let s := endReads (fun w => w.idx = id && decide (w.owner = .repair)) s
        let s := if x.graph then s else retireRuns id x.oldLists s
        let x := (vindex? s id).getD x
        let y := if x.graph then x.sweep r else x.compact
        let s := setIndex { y with repairing := none } s
        let s := publish id (releaseStale id (program id ((List.range (y.updates - x.updates)).map (· + x.updates + 1)) s))
        logTo [x.tenant] 0 4 (unitChannel (x.chanOf 0)) 0x0702 id s

/-- VECTOR_PASS. -/
def execVectorPass (idx : Nat) (s : State) : Host.Outcome State Fault Refusal := run (vectorPass idx) s

/-! ### VEC_CTRL (R242) -/

/-- VEC_REPAIR_NOW. -/
def execVecRepairNow (acc : Port) (s : State) : Host.Outcome State Fault Refusal := run (gateWrite acc 0x500050 startAllRepairs) s

/-- CLEAR_COUNTS. -/
def vecClear (s : State) : State := { s with vec := { s.vec with queries := 0, short := 0, passes := 0, busy := 0 } }

/-- VEC_CLEAR_COUNTS. -/
def execVecClearCounts (acc : Port) (s : State) : Host.Outcome State Fault Refusal := run (gateWrite acc 0x500050 vecClear) s

end Sys2Proof.Machine
end

