-- ==== Sys2Proof/Machine/Security.lean ====
section
/-!
DEFINITION. Sys2Proof/Machine/Security.lean: owner keys and the deployment secret (R405, R406, R425), quotes (R410, R426), the
identity (R404), audit rings and roots (R415 to R420), and the owner port's bus commands (R400).
-/
namespace Sys2Proof.Machine
open Sys2Proof

/-- Change the security block. -/
def modSec (f : Sec → Sec) (s : State) : State := { s with sec := f s.sec }

/-! ### Key commands (R405, R406, R425) -/

/-- SEC_KEY_DATA: 8 bytes join the buffer of 16,288 bytes. -/
def keyData (v : Word) (s : State) : State :=
  if s.sec.keyBuf.length ≥ 16288 then s else modSec (fun c => { c with keyBuf := c.keyBuf ++ le v.toNat 8 }) s

/-- SEC_KEY_DATA. -/
def execSecKeyData (val : Word) (s : State) : Host.Outcome State Fault Refusal := run (gateWrite .owner 0xB01078 (keyData val)) s

/-- Bytes of a command's payload. -/
def keyPayload (op : Nat) : Nat := match op with | 1 => 48 | 3 => 32 | _ => 0

/-- The message a key command's signature covers (R406). -/
def keyMessage (s : State) (op slot : Nat) (payload : Bytes) : Bytes :=
  ascii "YKEYCMD1" ++ le op 1 ++ le slot 1 ++ zeros 6 ++ identityId s ++ le (s.rom.keySeq + 1) 8 ++
  (if payload.isEmpty then zeros 32 else sha256 payload)

/-- Whether the buffer's signature verifies under an enrolled key. -/
def keySigned (s : State) (op slot : Nat) : Bool :=
  let n := keyPayload op
  let msg := keyMessage s op slot (s.sec.keyBuf.take n)
  (enrolledKeys s).any fun k => slhVerify192s k.2 msg (slice s.sec.keyBuf n 16224)

/-- The code that refuses a key command: none where it is accepted (R405, R425). Key commands wait for the end of PACKAGE. -/
def keyRefuses (s : State) (op slot : Nat) : Option Nat :=
  let keys := enrolledKeys s
  let n := keyPayload op
  let need := op ≠ 4 && !(op = 1 && keys.isEmpty)
  let active := s.img.active.isSome
  if s.pwr.bootStage < 8 || s.img.st = 3 || s.img.st = 4 || s.sec.keyBusy.isSome then some 7
  else if op = 0 || op > 4 then some 2
  else if op = 1 && !s.sec.identity then some 8
  else if op = 1 && keys.any (·.1 = slot) then some 5
  else if op = 2 && keys.length = 1 && keys.any (·.1 = slot) then some 4
  else if (op = 3 || op = 4) && active then some 6
  else if s.sec.keyBuf.length < n + (if need then 16224 else 0) then some 2
  else if need && !keySigned s op slot then some 3
  else none

/-- SEC_KEY_RESULT takes a code, and in-band interrupt 0x03 is raised. -/
def keyResult (code slot : Nat) (s : State) : State :=
  raiseIbi 3 (modSec (fun c => { c with keyCode := code, keySlot := slot, keyDone := true }) s)

/-- A write of SEC_KEY_CMD: refused at once, or taken; the buffer empties where it is taken. -/
def keyCommand (op slot : Nat) (s : State) : State :=
  match keyRefuses s op slot with
  | some 7 => keyResult 7 slot s
  | some c => keyResult c slot (modSec (fun x => { x with keyBuf := [] }) s)
  | none =>
    let p := s.sec.keyBuf.take (keyPayload op)
    modSec (fun x => { x with keyBuf := [], keyCode := 0, keySlot := slot, keyDone := false, keyBusy := some (op, slot, p) }) s

/-- ENROL. -/
def execEnrol (slot : Nat) (s : State) : Host.Outcome State Fault Refusal := run (gateWrite .owner 0xB01070 (keyCommand 1 (slot % 4))) s

/-- REMOVE. -/
def execRemove (slot : Nat) (s : State) : Host.Outcome State Fault Refusal := run (gateWrite .owner 0xB01070 (keyCommand 2 (slot % 4))) s

/-- SET_SECRET. -/
def execSetSecret (slot : Nat) (s : State) : Host.Outcome State Fault Refusal :=
  run (gateWrite .owner 0xB01070 (keyCommand 3 (slot % 4))) s

/-- CLEAR_ALL. -/
def execClearAll (slot : Nat) (s : State) : Host.Outcome State Fault Refusal :=
  run (gateWrite .owner 0xB01070 (keyCommand 4 (slot % 4))) s

/-- Every T2 object keyed from the enrolled secret is freed: vector indexes, and the objects in T2 but checkpoint staging, which
the module's own key protects (R405, R407). -/
def freeKeyed (s : State) : State :=
  if (dsk? s).isNone then s
  else
    let s := sweepWork (s.vec.idxs.foldl (fun s x => freeIndex x s) s)
    (s.mem.objs.filter fun o => o.tier = 2 && o.kind ≠ 3).foldl (fun s o => dropObj o s) s

/-- What an accepted command does once its EEPROM write is complete. -/
def keyApply (op slot : Nat) (p : Bytes) (s : State) : State :=
  let s := if op = 3 || op = 4 then freeKeyed s else s
  let r := s.rom
  let r : Eeprom := match op with
    | 1 => { r with keys := putN slot p r.keys }
    | 2 => { r with keys := r.keys.filter (·.1 ≠ slot) }
    | 3 => { r with secret := some (keyWrap kWrap p) }
    | _ => { r with keys := [], secret := none }
  { s with rom := { r with keySeq := (r.keySeq + 1) % 2 ^ 40 } }

/-- A key command's EEPROM write is complete, or has failed. -/
def keyComplete (ok : Bool) (s : State) : State :=
  match s.sec.keyBusy with
  | none => s
  | some (op, slot, p) =>
    let s := modSec (fun x => { x with keyBusy := none }) s
    if ok then keyResult 1 slot (keyApply op slot p s) else keyResult 9 slot s

/-- KEY_CMD_COMPLETE. -/
def execKeyCmdComplete (ok : Bool) (s : State) : Host.Outcome State Fault Refusal := run (keyComplete ok) s

/-! ### Quotes (R410, R426) -/

/-- Bytes of a quote with its signature. -/
def quoteLen : Nat := 17600

/-- Whether the security block can sign a quote next: no root waits, and PACKAGE has ended (R421, R456). -/
def startQuote (s : State) : State :=
  modSec (fun c => { c with quoteBusy := c.quoteBusy || (c.rootsPend.isEmpty && !c.quotes.isEmpty && s.pwr.bootStage ≥ 8) }) s

/-- A quote joins the queue. -/
def queueQuote (q : QuoteReq) (s : State) : State := startQuote (modSec (fun c => { c with quotes := c.quotes ++ [q] }) s)

/-- QUOTE at check 8 of R253. -/
def quoteEff (h : TackHdr) (nonce : Bytes) (r : DataRef) (s : State) : State :=
  if !s.sec.identity then completeOp h 0x50 0x70 s
  else if refRefused r then completeOp h 0x50 0x50 s
  else if r.len < quoteLen then completeOp h 0x50 0x72 s
  else if s.sec.quotes.length ≥ 16 then completeOp h 0x50 0x73 (hit 29 s)
  else queueQuote { hdr := some (h, r), nonce := fit nonce 32 } s

/-- QUOTE. -/
def execQuote (h : TackHdr) (nonce : Bytes) (r : DataRef) (s : State) : Host.Outcome State Fault Refusal :=
  run (tackRow h (.quote nonce r) fun _ => quoteEff h nonce r) s

/-- SEC_QUOTE_CMD.GO: an unread quote is discarded, and a quote over SEC_QUOTE_NONCE joins the queue. -/
def quoteGo (s : State) : State :=
  let g := s.regs
  let nonce := le g.quoteNonce0.toNat 8 ++ le g.quoteNonce1.toNat 8 ++ le g.quoteNonce2.toNat 8 ++ le g.quoteNonce3.toNat 8
  let s := modSec (fun c => { c with quoteOut := [], quoteReady := false }) s
  if s.pwr.bootStage ≥ 8 && !s.sec.identity then s
  else if s.sec.quotes.length ≥ 16 then hit 29 s
  else queueQuote { hdr := none, nonce := nonce } s

/-- QUOTE_GO. -/
def execQuoteGo (s : State) : Host.Outcome State Fault Refusal := run (gateWrite .owner 0xB010A8 quoteGo) s

/-- The security block has signed the first quote: it goes to its host buffer, or can be read on the owner port. Without an
identity it is not made (R403). -/
def quoteSigned (s : State) : State :=
  let s := startQuote s
  if !s.sec.quoteBusy then s
  else match s.sec.quotes with
    | [] => s
    | q :: rest =>
      let s := modSec (fun c => { c with quotes := rest, quoteBusy := false }) s
      if !s.sec.identity then startQuote s
      else
        let body := quoteBody s q.nonce
        let (sig, s) := idSign body s
        let out := body ++ sig
        let s := match q.hdr with
          | some (h, r) => completeOp h 0x50 0 (rdmaWrite h.qp r.rkey r.addr out s) { a := out.length }
          | none => raiseIbi 2 (modSec (fun c => { c with quoteOut := out, quoteReady := true }) s)
        startQuote s

/-- QUOTE_READY. -/
def execQuoteReady (s : State) : Host.Outcome State Fault Refusal := run quoteSigned s

/-- A read of SEC_QUOTE_DATA: the next 8 bytes; zero once none remain. -/
def readQuote (s : State) : Word × State :=
  (BitVec.ofNat 64 (leAt s.sec.quoteOut 0 8), modSec (fun c => { c with quoteOut := c.quoteOut.drop 8 }) s)

/-! ### Identity (R404) -/

/-- IDENTITY_READ at check 8 of R253. -/
def identityEff (h : TackHdr) (r : DataRef) (s : State) : State :=
  let out := fit s.sec.pubkey 32 ++ (match s.rom.endorsement with | some e => fit e 16320 | none => [])
  if !s.sec.identity then completeOp h 0x53 0x70 s
  else if refRefused r then completeOp h 0x53 0x50 s
  else if r.len < out.length then completeOp h 0x53 0x72 s
  else completeOp h 0x53 0 (rdmaWrite h.qp r.rkey r.addr out s) { a := out.length }

/-- IDENTITY_READ. -/
def execIdentityRead (h : TackHdr) (r : DataRef) (s : State) : Host.Outcome State Fault Refusal :=
  run (tackRow h (.identityRead r) fun _ => identityEff h r) s

/-! ### Audit rings (R415, R416) -/

/-- AUDIT_RING_SETUP at check 8 of R253: the new ring, its completion, then the records that wait. -/
def auditRingEff (h : TackHdr) (b : RingBody) (s : State) : State :=
  let t := tenantOf s h.qp
  if (tenant? s t).map (·.eventQp) ≠ some h.qp then completeOp h 0x51 0x04 s
  else if b.log2Slots < 6 || b.log2Slots > 20 || b.addr % 128 ≠ 0 || b.consumerAddr % 8 ≠ 0 || b.producerAddr % 8 ≠ 0 then
    completeOp h 0x51 0x51 s
  else
    let s := modQp h.qp (fun q => { q with audit := some (newRing b) }) s
    deliverAudit t (completeOp h 0x51 0 (setAud t { audOf s t with ever := true } s))

/-- AUDIT_RING_SETUP. -/
def execAuditRingSetup (h : TackHdr) (b : RingBody) (s : State) : Host.Outcome State Fault Refusal :=
  run (tackRow h (.auditRingSetup b) fun _ => auditRingEff h b) s

/-- The consumer count of a tenant's full audit ring has been read again: what waits is written while there is room (R416). -/
def auditPoll (t consumed : Nat) (s : State) : State :=
  match auditRing? s t with
  | none => s
  | some (qp, r) =>
    deliverAudit t (modQp qp (fun q => { q with audit := some { r with cons := max r.cons (min consumed r.prod), reading := false } }) s)

/-- AUDIT_RING_POLL. -/
def execAuditRingPoll (tenant : Nat) (consumed : Nat) (s : State) : Host.Outcome State Fault Refusal := run (auditPoll tenant consumed) s

/-! ### Roots (R418 to R420) -/

/-- An interval ends (R418). No interval runs before the first image is active. -/
def intervalEnd (s : State) : State :=
  if s.img.active.isNone then s
  else
    let e := s.sec.nextEnd
    closeInterval e (e + 250000000) (!s.clk.everLocked) (advance e s)

/-- AUDIT_INTERVAL_END. -/
def execAuditIntervalEnd (s : State) : Host.Outcome State Fault Refusal := run intervalEnd s

/-- ROOT_KEEP as taken (R427). -/
def rootKeep (s : State) : Nat := max 1 (wfield s.regs.audCfg 34 12)

/-- The security block has signed the first root that waits: it is kept, and every event ring is told (R419). -/
def rootSigned (s : State) : State :=
  match s.sec.rootsPend with
  | [] => s
  | p :: rest =>
    let (sig, s) := idSign p.rcd s
    let n := s.sec.rootSeq + 1
    let kept := s.sec.roots ++ [{ seq := n, rcd := p.rcd, sig := sig, subs := p.subs }]
    let s := modSec (fun c => { c with rootsPend := rest, rootSeq := n, roots := kept.drop (kept.length - rootKeep s) }) s
    startQuote (logTo ((tenants s).map (·.id)) 0 6 (unitChip 0x32) 0x0406 n s)

/-- AUDIT_ROOT_SIGNED. -/
def execAuditRootSigned (s : State) : Host.Outcome State Fault Refusal := run rootSigned s

/-- A kept root as AUDIT_ROOT_READ writes it. -/
def rootBytes (r : AudRoot) : Bytes := r.rcd ++ r.sig ++ r.subs.flatMap fun x => le x.1 2 ++ zeros 6 ++ fit x.2 32

/-- AUDIT_ROOT_READ at check 8 of R253. -/
def rootReadEff (h : TackHdr) (n : Nat) (r : DataRef) (s : State) : State :=
  let last := s.sec.rootSeq
  let want := if n = 0 then last else n
  if !s.sec.identity then completeOp h 0x52 0x70 s
  else if refRefused r then completeOp h 0x52 0x50 s
  else if want > last || want = 0 then completeOp h 0x52 0x0A s
  else match s.sec.roots.find? fun x => x.seq = want && last < x.seq + rootKeep s with
    | none => completeOp h 0x52 0x71 s
    | some x =>
      let out := rootBytes x
      if r.len < out.length then completeOp h 0x52 0x72 s { a := out.length }
      else completeOp h 0x52 0 (rdmaWrite h.qp r.rkey r.addr out s) { a := out.length, b := want }

/-- AUDIT_ROOT_READ. -/
def execAuditRootRead (h : TackHdr) (sq : Nat) (r : DataRef) (s : State) : Host.Outcome State Fault Refusal :=
  run (tackRow h (.auditRootRead sq r) fun _ => rootReadEff h sq r) s

/-- SEC_AUD_CTRL.CLEAR_COUNTS (R429). -/
def secAudClear (s : State) : State := modSec (fun c => { c with noRing := 0, stalled := 0 }) s

/-- SEC_AUD_CLEAR_COUNTS. -/
def execSecAudClearCounts (s : State) : Host.Outcome State Fault Refusal := run (gateWrite .owner 0xB010E0 secAudClear) s

/-! ### The owner port's bus commands (R400, R501) -/

/-- Change the I3C target. -/
def modI3c (f : I3c → I3c) (s : State) : State := { s with i3c := f s.i3c }

/-- Whether the owner port answers on its dynamic address. -/
def addressed (s : State) : Bool := onBus s && s.i3c.addr.isSome

/-- SEC_QUOTE_DATA: a read through the owner port gives the next 8 bytes of the quote (R426). -/
def execSecQuoteData (s : State) : Host.Outcome State Fault Refusal :=
  run (fun s => if addressed s then (let (v, s) := readQuote s; emit (.i3c (le v.toNat 8)) s) else s) s

/-- ENTDAA: a target without a dynamic address takes one. -/
def assignAddr (a : Nat) (s : State) : State := if onBus s && s.i3c.addr.isNone then modI3c (fun c => { c with addr := some a }) s else s

/-- ENTDAA. -/
def execEntdaa (addr : Nat) (s : State) : Host.Outcome State Fault Refusal := run (assignAddr addr) s

/-- RSTDAA. -/
def execRstdaa (s : State) : Host.Outcome State Fault Refusal :=
  run (fun s => if onBus s then modI3c (fun c => { c with addr := none }) s else s) s

/-- ENEC. -/
def execEnec (s : State) : Host.Outcome State Fault Refusal :=
  run (fun s => if onBus s then modI3c (fun c => { c with ibi := true }) s else s) s

/-- DISEC. -/
def execDisec (s : State) : Host.Outcome State Fault Refusal :=
  run (fun s => if onBus s then modI3c (fun c => { c with ibi := false }) s else s) s

/-- A CCC that reads identification: bytes the spec does not give (log entry 8). -/
def answerConst (n : Nat) (s : State) : State := if addressed s then emit (.i3c (Config.i3cConst n)) s else s

/-- GETPID. -/
def execGetpid (s : State) : Host.Outcome State Fault Refusal := run (answerConst 0) s

/-- GETBCR. -/
def execGetbcr (s : State) : Host.Outcome State Fault Refusal := run (answerConst 1) s

/-- GETDCR. -/
def execGetdcr (s : State) : Host.Outcome State Fault Refusal := run (answerConst 2) s

/-- GETSTATUS: a fresh status each time (log entry 8). -/
def answerStatus (s : State) : State :=
  if addressed s then emit (.i3c (Config.i3cStatus s.free)) { s with free := s.free + 1 } else s

/-- GETSTATUS. -/
def execGetstatus (s : State) : Host.Outcome State Fault Refusal := run answerStatus s

/-- GETMWL. -/
def execGetmwl (s : State) : Host.Outcome State Fault Refusal := run (answerConst 3) s

/-- GETMRL. -/
def execGetmrl (s : State) : Host.Outcome State Fault Refusal := run (answerConst 4) s

end Sys2Proof.Machine
end

