-- ==== Sys2Proof/Machine/Fencing.lean ====
section
/-!
DEFINITION. Sys2Proof/Machine/Fencing.lean: detected faults, salvage, leaving service, and the injection of faults (R431 to
R442, R447, R449).
-/
namespace Sys2Proof.Machine
open Sys2Proof

/-- CELL_FENCE: a cell-level fault of R431. -/
def execCellFence (tile : Nat) (cell : Nat) (cause : Nat) (s : State) : Host.Outcome State Fault Refusal :=
  runOn (tile < 48 && cell < 74) (fenceCell tile cell cause) s

/-- A cell has not finished its share of a step 1 ms after the other cells of its tile (R431). -/
def stepLate (t c : Nat) (s : State) : State := if s.stp.running then fenceCell t c 5 s else s

/-- STEP_WATCHDOG. -/
def execStepWatchdog (tile : Nat) (cell : Nat) (s : State) : Host.Outcome State Fault Refusal :=
  runOn (tile < 48 && cell < 74) (stepLate tile cell) s

/-- TILE_FENCE: a block-level fault of R431. -/
def execTileFence (tile : Nat) (cause : Nat) (s : State) : Host.Outcome State Fault Refusal :=
  runOn (tile < 48) (fenceTile tile cause) s

/-! ### Salvage (R435) -/

/-- The dirty pages of a session on a tile take slots of T1, where they are written. -/
def salvageSess (t idx : Nat) (s : State) : State :=
  match sess? s idx with
  | none => s
  | some x =>
    if inT0 x then retile idx (modPages idx (fun _ p => pageOnTile t p && !pageClean p) (fun p => { p with dma := true }) s) else s

/-- A salvaged session's pages are clean and take their places on the new tiles (R145, R155). -/
def salvagePlaced (t idx : Nat) (s : State) : State :=
  retile idx (modPages idx (fun _ p => pageOnTile t p && p.dma) (fun p => { p with dma := false, dirty := [] }) (labDropSess idx s))

/-- Salvage of a tile is complete. Words with uncorrectable errors show first (R442). -/
def salvageDone (t : Nat) (s : State) : State :=
  if s.err.salvage.any (·.1 = t) then
    let bad := ((s.mem.flips.filter fun f => f.bad && f.bank / 64 = t).map fun f => (f.bank, f.word)).eraseDups
    let s := bad.foldl (fun s f => (checkWord f.1 f.2 s).2) s
    let done := (s.err.salvage.filter (·.1 = t)).flatMap (·.2.2)
    let s := done.foldl (fun s i => salvageSess t i s) s
    let s := { s with err := { s.err with salvage := s.err.salvage.filter (·.1 ≠ t) } }
    done.foldl (fun s i => salvagePlaced t i s) s
  else s

/-- SALVAGE_COMPLETE. -/
def execSalvageComplete (tile : Nat) (s : State) : Host.Outcome State Fault Refusal := runOn (tile < 48) (salvageDone tile) s

/-- SALVAGE_MS have passed: what has not been read is lost (R434). -/
def salvageLate (t : Nat) (s : State) : State :=
  match s.err.salvage.find? (·.1 = t) with
  | none => s
  | some x =>
    loseMany x.2.2 (unitTile t) 3 (advance x.2.1 { s with err := { s.err with salvage := s.err.salvage.filter (·.1 ≠ t) } })

/-- SALVAGE_TIMEOUT. -/
def execSalvageTimeout (tile : Nat) (s : State) : Host.Outcome State Fault Refusal := runOn (tile < 48) (salvageLate tile) s

/-! ### Regions and the chip (R431, R436, R438) -/

/-- CORE_WATCHDOG: a control core is not served for WATCHDOG_MS. -/
def execCoreWatchdog (n : Nat) (s : State) : Host.Outcome State Fault Refusal := runOn (n < 8) (fenceRegion n 9) s

/-- REGION_FENCE: a region-level fault of R431. -/
def execRegionFence (r : Nat) (cause : Nat) (s : State) : Host.Outcome State Fault Refusal := runOn (r < 8) (fenceRegion r cause) s

/-- LEAVE_SERVICE: a chip-level fault of R431. `sound` says that the fabric block, clocks and power are sound. -/
def execLeaveService (cause : Nat) (sound : Bool) (s : State) : Host.Outcome State Fault Refusal := run (leaveService cause sound) s

/-! ### Arming and counts (R441, R449) -/

/-- One injection is armed for 1 s. -/
def armOne (s : State) : State := { s with err := { s.err with armedTo := some (now s + 1000000000) } }

/-- ERR_ARM: from the owner port alone. -/
def execErrArm (s : State) : Host.Outcome State Fault Refusal := run (gateWrite .owner 0xC00040 armOne) s

/-- An arming lapses unused. -/
def disarm (s : State) : State :=
  match s.err.armedTo with
  | none => s
  | some t => advance t { s with err := { s.err with armedTo := none } }

/-- ARM_EXPIRED. -/
def execArmExpired (s : State) : Host.Outcome State Fault Refusal := run disarm s

/-- ERR_COUNT and every cell's UE_COUNT are cleared. -/
def errClear (s : State) : State :=
  { s with err := { s.err with ue := [], cellFences := 0, tileFences := 0, ctxFaults := 0, sesLost := 0 } }

/-- ERR_CLEAR_COUNTS. -/
def execErrClearCounts (acc : Port) (s : State) : Host.Outcome State Fault Refusal := run (gateWrite acc 0xC00040 errClear) s

/-! ### Injection (R441) -/

/-- The parts of a UNIT word (R430). -/
def unitKind (u : Nat) : Nat := field u 24 8

/-- REGION_ID of a UNIT word. -/
def unitReg (u : Nat) : Nat := field u 16 8

/-- The tile of a UNIT word. -/
def unitTileNo (u : Nat) : Nat := field u 8 8

/-- The index of a UNIT word. -/
def unitIndex (u : Nat) : Nat := field u 0 8

/-- The cell that a UNIT word names, by tile and number for the block arbiter. -/
def cellOf? (u : Nat) : Option (Nat × Nat) :=
  let i := unitIndex u
  let c : Option Nat := match unitKind u with
    | 1 => if i < 4 then some i else none
    | 2 => if i < 2 then some (4 + i) else none
    | 3 => if i < 64 then some (6 + i) else none
    | 4 => if i = 0 then some 70 else none
    | 5 => if i = 0 then some 71 else none
    | 6 => if i < 2 then some (72 + i) else none
    | _ => none
  if unitTileNo u < 48 then c.map fun c => (unitTileNo u, c) else none

/-- The unit of a kind, four in each region, that a UNIT word names. -/
def fourOf? (kind u : Nat) : Option Nat :=
  if unitKind u = kind && unitReg u < 8 && unitIndex u < 4 then some (4 * unitReg u + unitIndex u) else none

/-- The region that a UNIT word names by one of its units (R430). -/
def regionOf? (u : Nat) : Option Nat :=
  let k := unitKind u
  let n := if k = 0x21 then 12 else if k = 0x22 || k = 0x23 then 4 else 1
  if 0x20 ≤ k && k ≤ 0x24 && unitReg u < 8 && unitIndex u < n then some (unitReg u) else none

/-- The tile that a UNIT word names. -/
def tileOf? (u : Nat) : Option Nat := if unitKind u = 0x10 && unitTileNo u < 48 then some (unitTileNo u) else none

/-- The bank that a UNIT word names. -/
def bankOfUnit? (u : Nat) : Option Nat := if unitKind u = 3 then (cellOf? u).map fun c => 64 * c.1 + (c.2 - 6) else none

/-- A write of ERR_INJECT from the owner port: where an injection is armed and the target is of the kind's sort, INJECTED is
logged and the fault is treated as a real one; a UNIT of the wrong kind logs REGISTER_WARN. -/
def inject {α : Type} (kind level unit : Nat) (target : Option α) (f : α → State → State) (s : State) : State :=
  gateWrite .owner 0xC00028 (fun s =>
    match s.err.armedTo with
    | none => s
    | some t =>
      if now s ≤ t then
        match target with
        | none => registerWarn .owner 0xC00028 3 s
        | some x => f x (logAll 0 level unit 0x0F01 kind { s with err := { s.err with armedTo := none } })
      else s) s

/-- The check bits of a bank word are altered, until the word is read or written. -/
def plantFlip (bad : Bool) (bank : Nat) (s : State) : State :=
  let word := wfield s.regs.injectAddr 0 19
  modMem (fun m => { m with flips := m.flips.filter (fun f => !(f.bank = bank && f.word = word)) ++ [{ bank := bank, word := word, bad := bad }] }) s

/-- KIND 1. -/
def injectCe (u : Nat) (s : State) : State := inject 1 2 u (bankOfUnit? u) (plantFlip false) s

/-- KIND 2. -/
def injectUe (u : Nat) (s : State) : State := inject 2 2 u (bankOfUnit? u) (plantFlip true) s

/-- KIND 3. -/
def injectCell (u : Nat) (s : State) : State := inject 3 2 u (cellOf? u) (fun c => fenceCell c.1 c.2 13) s

/-- KIND 4. -/
def injectTile (u : Nat) (s : State) : State := inject 4 3 u (tileOf? u) (fun t => fenceTile t 13) s

/-- KIND 5: the target is a T1 address; `area` is what lies there. -/
def injectT1 (_u : Nat) (area : T1Area) (s : State) : State :=
  let a := wfield s.regs.injectAddr 0 48
  inject 5 4 (unitT1 s a) (if a < 0x18000000000 then some a else none) (fun a => t1Fails a area 13) s

/-- KIND 6. -/
def injectT2 (u : Nat) (s : State) : State :=
  inject 6 4 u (fourOf? 0x22 u) (fun ch => t2Fails ch (wfield s.regs.injectAddr 0 48)) s

/-- KIND 7: the next 8 flits of the link fail their CRC. -/
def injectCrc (u : Nat) (s : State) : State := inject 7 4 u (fourOf? 0x23 u) (fun l => modLink l fun k => { k with crcInject := 8 }) s

/-- KIND 8. -/
def injectRegion (u : Nat) (s : State) : State := inject 8 4 u (regionOf? u) (fun r => fenceRegion r 13) s

/-- INJECT_CORRECTABLE. -/
def execInjectCorrectable (ueUnit : Nat) (s : State) : Host.Outcome State Fault Refusal := run (injectCe ueUnit) s

/-- INJECT_UNCORRECTABLE. -/
def execInjectUncorrectable (ueUnit : Nat) (s : State) : Host.Outcome State Fault Refusal := run (injectUe ueUnit) s

/-- INJECT_CELL_FAULT. -/
def execInjectCellFault (ueUnit : Nat) (s : State) : Host.Outcome State Fault Refusal := run (injectCell ueUnit) s

/-- INJECT_TILE_FAULT. -/
def execInjectTileFault (ueUnit : Nat) (s : State) : Host.Outcome State Fault Refusal := run (injectTile ueUnit) s

/-- INJECT_T1_READ. -/
def execInjectT1Read (ueUnit : Nat) (area : T1Area) (s : State) : Host.Outcome State Fault Refusal := run (injectT1 ueUnit area) s

/-- INJECT_T2_READ. -/
def execInjectT2Read (ueUnit : Nat) (s : State) : Host.Outcome State Fault Refusal := run (injectT2 ueUnit) s

/-- INJECT_FLIT_CRC. -/
def execInjectFlitCrc (ueUnit : Nat) (s : State) : Host.Outcome State Fault Refusal := run (injectCrc ueUnit) s

/-- INJECT_REGION_FAULT. -/
def execInjectRegionFault (ueUnit : Nat) (s : State) : Host.Outcome State Fault Refusal := run (injectRegion ueUnit) s

end Sys2Proof.Machine
end

