-- ==== Sys2Proof/Machine/Limits.lean ====
section
/-!
DEFINITION. Sys2Proof/Machine/Limits.lean: the commands on the latency terms and the limits (R481, R483).
-/
namespace Sys2Proof.Machine
open Sys2Proof

/-- LIM_TERM_SEL: the accessor selects a term and takes a snapshot of its histogram (R481, R489). -/
def termSelect (acc : Port) (val : Word) (s : State) : State :=
  let n := wfield val 0 3
  modAcc acc (fun a => { a with termSel := n, termSnap := findD n s.lim.hist emptyBins }) s

/-- LIM_TERM_SEL. -/
def execLimTermSel (acc : Port) (val : Word) (s : State) : Host.Outcome State Fault Refusal :=
  run (gateWrite acc 0xF00008 (termSelect acc val)) s

/-- LIM_CTRL.CLEAR_HIST: every term histogram and LIM_TURNS. -/
def limHistClear (s : State) : State := { s with lim := { s.lim with hist := [], measured := 0, unmeasured := 0 } }

/-- LIM_CTRL.CLEAR_HIST. -/
def execLimClearHist (acc : Port) (s : State) : Host.Outcome State Fault Refusal := run (gateWrite acc 0xF00068 limHistClear) s

/-- LIM_CTRL.CLEAR_PEAKS: every PEAK becomes its CURRENT and every HITS 0. -/
def peaksClear (s : State) : State :=
  let now := (List.range 32).map fun i => (i, min (limitNow s i) (2 ^ 24 - 1))
  { s with lim := { s.lim with peaks := now, hits := [] } }

/-- LIM_CTRL.CLEAR_PEAKS. -/
def execClearPeaks (acc : Port) (s : State) : Host.Outcome State Fault Refusal := run (gateWrite acc 0xF00068 peaksClear) s

end Sys2Proof.Machine
end

