-- ==== Sys2Proof/Machine/Power.lean ====
section
/-!
DEFINITION. Sys2Proof/Machine/Power.lean: starts, the start-up sequence, power states, throttling, the SPI NOR and the module's
connectors (R450 to R476, R498 to R501).
-/
namespace Sys2Proof.Machine
open Sys2Proof

/-- Change the power part of the state. -/
def modPwr (f : Power → Power) (s : State) : State := { s with pwr := f s.pwr }

/-! ### What a start leaves (R192, R453, R454) -/

/-- An operation of the SPI NOR that is cut off or has failed: what was under way is left partly done (log entry 3). -/
def norFailed (s : State) : State :=
  match s.pwr.norOp with
  | none => s
  | some .erase =>
    let n := s.free
    let gone (c : Host.Cell) : Bool := decide (c.1 < 0x1000000) && Config.norErased n c.1
    modPwr (fun p => { p with nor := p.nor.filter (fun c => !gone c), norOp := none, norBusy := false }) { s with free := n + 1 }
  | some (.program off _) =>
    let (b, s) := freshBytes 8 s
    modPwr (fun p => { p with nor := writeBytes Config.norDefault off b p.nor, norOp := none, norBusy := false }) s

/-- A node or record without what was not published. -/
def VRec.published (pub : Nat) (r : VRec) : VRec := { r with edges := r.edges.filter fun e => e.1 ≤ pub }

/-- What an index's own records show at a start (R234): what was published. -/
def VIndex.restarted (x : VIndex) : VIndex :=
  let gone := (x.recs.filter fun r => x.pub < r.seq).map (·.slot)
  { x with recs := (x.recs.filter fun r => r.seq ≤ x.pub).map (VRec.published x.pub)
           freeSlots := x.freeSlots ++ gone
           entries := (x.entries.filter fun e => e.1 ≤ x.pub + 1).map fun e => (e.1, e.2.filter fun v => !gone.contains v)
           dels := x.dels.filter fun d => d.2.2 ≤ x.pub
           updates := x.pub, pubLog := [(0, x.pub)], waiting := [], queries := [], repairing := none, batches := [], stale := []
           degraded := false }

/-- The objects that T2 keeps: weight sources and vector segments. -/
def keptObjs (s : State) : List Obj :=
  (s.mem.objs.filter fun o => o.tier = 2 && (o.kind = 0 || o.kind = 2)).map fun o => { o with busy := none }

/-- Whether a block of T2 is one of an object's. -/
def holdsTile (k : Nat) (o : Obj) : Bool :=
  match find? (k / 2 ^ 32) o.blocks with
  | some b => b ≤ k % 2 ^ 32 && k % 2 ^ 32 < b + objBlocks o (k / 2 ^ 32)
  | none => false

/-- Whether a block of T2 is a tile of an index. -/
def VIndex.holds (x : VIndex) (k : Nat) : Bool := x.tiles.any fun t => t2Tile t.ch t.block = k

/-- The NAND channels after a start: the blocks of what T2 keeps, wear and retired blocks. -/
def keptChans (s : State) : List (Nat × Chan) :=
  let objs := keptObjs s
  s.mem.chans.map fun c =>
    (c.1, { c.2 with used := sumN ((objs.filter (·.kind = 0)).map fun o => objBlocks o c.1), fenced := false, readFail := 0 })

/-- The contexts that a weight source in T2 belongs to. -/
def keptSources (s : State) : List (Nat × Ctx) :=
  (List.range 4).filterMap fun c =>
    ((keptObjs s).find? fun o => o.kind = 0 && o.ctx = some c).map fun o => (c, { source := some o.id })

/-- A start of a kind begins, or power is lost: everything takes its reset value but what the EEPROM, the SPI NOR and T2 keep, the
owner port, the connectors and the input (R192, R453, R454). The queue, the ports' outputs and the free values are the model's. -/
def started (kind rails : Nat) (s : State) : State :=
  let s := norFailed s
  let s := (s.vec.idxs.filter (·.dropped)).foldl (fun s x => freeIndex x s) s
  let s := s.vec.idxs.foldl (fun s x => program x.id [] (setIndex x.restarted s)) s
  let p := s.pwr
  let r := State.reset
  { r with
    pending := s.pending, out := s.out, free := s.free, rom := s.rom, i3c := s.i3c
    pwr := { aux := p.aux, vinMv := p.vinMv, nor := p.nor, osfp := p.osfp, osfpHeld := p.osfpHeld, cables := p.cables,
             resetKind := kind, rails := rails }
    mem := { chans := keptChans s, objs := keptObjs s, t2 := s.mem.t2.filter fun b => (keptObjs s).any (holdsTile b.1) || s.vec.idxs.any (·.holds b.1) }
    vec := { idxs := s.vec.idxs }
    stp := { r.stp with ctxs := keptSources s } }

/-- A cold start begins (R450, R453). The result of the last GOTO is of the owner port's supply, and stands (log entry 36). -/
def coldStart (s : State) : State := modPwr (fun p => { p with cmdResult := s.pwr.cmdResult }) (started 0 0 s)

/-- The rails are down: OFF. Sessions, T1 and SRAM are lost (R462). `trip` says that it was a thermal trip. -/
def powerOff (trip : Bool) (result : Nat) (s : State) : State :=
  modPwr (fun p => { p with state := 0, tripped := trip, cmdResult := result }) (started s.pwr.resetKind 0 s)

/-! ### Input power (R450, R469) -/

/-- The auxiliary converter starts; a start from an unpowered bus counts as requested. -/
def auxUp (mv : Nat) (s : State) : State :=
  if s.pwr.aux then modPwr (fun p => { p with vinMv := mv % 65536 }) s
  else modPwr (fun p => { p with aux := true, vinMv := mv % 65536, startReq := true }) s

/-- VIN_AUX_UP. -/
def execVinAuxUp (mv : Nat) (s : State) : Host.Outcome State Fault Refusal := run (auxUp mv) s

/-- Nothing is powered: the owner port loses its place on the bus. -/
def auxDown (s : State) : State :=
  let s := if s.pwr.state = 0 then s else powerOff false 0 s
  { s with pwr := { s.pwr with aux := false, vinMv := 0, startReq := false, tripped := false, cmdResult := 0 }, i3c := { vref := s.i3c.vref } }

/-- VIN_AUX_DOWN. -/
def execVinAuxDown (s : State) : Host.Outcome State Fault Refusal := run auxDown s

/-- The next sensor value, between two bounds (log entry 3). -/
def measured (lo hi : Nat) (s : State) : Nat × State :=
  (lo + Config.sensor s.free % (hi + 1 - lo), { s with free := s.free + 1 })

/-- The input has held 41.0 V for 10 ms: in OFF with a start requested a cold start begins. -/
def vinHolds (s : State) : State :=
  if s.pwr.aux && s.pwr.state = 0 && s.pwr.startReq then
    let (mv, s) := measured 41000 50000 s
    coldStart (modPwr (fun p => { p with vinMv := mv }) s)
  else s

/-- VIN_START. -/
def execVinStart (s : State) : Host.Outcome State Fault Refusal := run vinHolds s

/-- The input has been out of range for 1 ms: a chip-level fault. -/
def vinBad (mv : Nat) (s : State) : State :=
  let s := modPwr (fun p => { p with vinMv := mv % 65536 }) s
  if s.pwr.state ≠ 0 && (mv < 40000 || 50000 < mv) then leaveService 7 false s else s

/-- VIN_OUT_OF_RANGE. -/
def execVinOutOfRange (mv : Nat) (s : State) : Host.Outcome State Fault Refusal := run (vinBad mv) s

/-- The input passes a stop limit: the power stages stop at once. -/
def vinStops (mv : Nat) (s : State) : State :=
  let s := modPwr (fun p => { p with vinMv := mv % 65536 }) s
  if s.pwr.state ≠ 0 && (mv < 38000 || 52000 < mv) then powerOff false 0 s else s

/-- VIN_STOP. -/
def execVinStop (mv : Nat) (s : State) : Host.Outcome State Fault Refusal := run (vinStops mv) s

/-- An excursion shorter than 1 ms is counted. -/
def excursion (s : State) : State := if s.pwr.aux then modPwr (fun p => { p with excursions := sat (p.excursions + 1) 16 }) s else s

/-- VIN_EXCURSION. -/
def execVinExcursion (s : State) : Host.Outcome State Fault Refusal := run excursion s

/-! ### Rails and clocks (R451, R452) -/

/-- The next rail in the order holds power-good. -/
def railUp (n : Nat) (s : State) : State :=
  if s.pwr.state = 1 && s.pwr.bootStage = 0 && n = s.pwr.rails + 1 then modPwr (fun p => { p with rails := n }) s else s

/-- RAIL_POWER_GOOD: rails are numbered in the order of R451. -/
def execRailPowerGood (rail : Nat) (s : State) : Host.Outcome State Fault Refusal := runOn (1 ≤ rail && rail ≤ 5) (railUp rail) s

/-- A rail does not come up, or loses power-good: a power stage fault. -/
def railFails (n : Nat) (s : State) : State := if s.pwr.state ≠ 0 && n ≤ s.pwr.rails + 1 then leaveService 7 false s else s

/-- RAIL_TIMEOUT. -/
def execRailTimeout (rail : Nat) (s : State) : Host.Outcome State Fault Refusal := runOn (1 ≤ rail && rail ≤ 5) (railFails rail) s

/-- The root PLL loses lock, with its reference or alone: a chip-level fault. The PLLs of the SerDes take the same reference (R452). -/
def pllUnlock (refLost : Bool) (s : State) : State :=
  if s.pwr.state = 0 then s
  else leaveService 7 false (modPwr (fun p =>
    { p with rootLock := false, refOk := p.refOk && !refLost, hostSerdes := p.hostSerdes && !refLost,
             weltSerdes := if refLost then 0 else p.weltSerdes }) s)

/-- ROOT_PLL_UNLOCK. -/
def execRootPllUnlock (refLost : Bool) (s : State) : Host.Outcome State Fault Refusal := run (pllUnlock refLost) s

/-! ### The start-up sequence (R455 to R460) -/

/-- A unit fails in a stage: a UNIT word of R430, with the tests that failed in CELL and the cause in BLOCK and REGION. -/
def stageFail (stage : Nat) (f : Nat × Nat) (s : State) : State :=
  match stage with
  | 1 | 2 => match bankOfUnit? f.1 with
    | some b => fenceCell (b / 64) (6 + b % 64) 1 s
    | none => s
  | 3 => match cellOf? f.1 with
    | some c => fenceCell c.1 c.2 4 s
    | none => s
  | 4 => match tileOf? f.1 with
    | some t => fenceTile t f.2 s
    | none => s
  | 5 => match fourOf? 0x22 f.1 with
    | some ch => fenceChannel ch s
    | none => match regionOf? f.1 with
      | some r => if unitKind f.1 = 0x23 then s else fenceRegion r f.2 s
      | none => s
  | 6 => match tileOf? f.1 with
    | some t => fenceTile t 6 s
    | none => s
  | _ => s

/-- `n` bytes of the SPI NOR from an offset on. -/
def norRead (s : State) (a n : Nat) : Bytes := readBytes Config.norDefault a n s.pwr.nor

/-- The firmware image in the SPI NOR, where its header is good (R457). -/
def firmware? (s : State) : Option Bytes :=
  let rd := norRead s
  let h := rd 0 64
  let n := leAt h 12 4
  if leAt h 0 8 = 0x5241574D52494659 && versionOk (leAt h 8 1) && n % 64 = 0 && 64 ≤ n && n ≤ 16777216 then some (rd 0 n) else none

/-- The stored image that is to be activated without an owner command: its bytes and expected digest (R44, R458). -/
def storedImage? (s : State) : Option (Bytes × Bytes) :=
  let h := norRead s 0x1000000 48
  let n := leAt h 12 4
  if leAt h 0 8 = 0x524F5453474D4959 && versionOk (leAt h 8 1) && bit (leAt h 9 1) 0 && bit (leAt h 9 1) 1 && n ≤ 2 ^ 24 then
    some (norRead s 0x1001000 n, slice h 16 32)
  else none

/-- A header of the SPI NOR that carries its MAGIC and a VERSION that R5 does not accept is rejected and logged. -/
def norVersions (s : State) : State :=
  let note (magic a : Nat) (s : State) : State :=
    let h := norRead s a 16
    if leAt h 0 8 = magic && (magic = 0x5241574D52494659 || (bit (leAt h 9 1) 0 && bit (leAt h 9 1) 1)) then noteVersion 0 h 8 s else s
  note 0x524F5453474D4959 0x1000000 (note 0x5241574D52494659 0 s)

/-- The identity is derived, or the module has none (R402, R403). -/
def deriveIdentity (s : State) : State :=
  if s.rom.helperOk then { s with sec := { s.sec with identity := true, helperFail := false, pubkey := idPublic } }
  else logAll 2 6 (unitChip 0x32) 0x0408 0 { s with sec := { s.sec with identity := false, helperFail := true, pubkey := [] } } false

/-- The stored image is staged and checked (R44). -/
def stageStored (x : Bytes × Bytes) (s : State) : State :=
  let img : ImgCtl := { s.img with
    st := 3, source := 3, staged := x.1.length, buf := writeBytes Config.ramDefault 0 x.1 [], fromNor := true, expectNor := x.2,
    persist := false, auto := false, sealHeld := false, drainMs := 0 }
  { s with img := img, pwr := { s.pwr with bootStage := 10 } }

/-- PACKAGE ends: identity, firmware, INCARNATION, and the stage that follows. -/
def packageEnds (s : State) : State :=
  let s := deriveIdentity { s with rom := { s.rom with incarnation := (s.rom.incarnation + 1) % 2 ^ 32 } }
  let s := norVersions (modPwr (fun p => { p with bootMs := sat ((now s - p.powerEnd) / 1000000) 20 }) s)
  let s := match firmware? s with
    | none => modPwr (fun p => { p with bootStage := 8 }) s
    | some f =>
      let s := { s with sec := { s.sec with fwMeasured := true, fwDigest := sha256 f, fwLength := f.length, fwImage := f },
                        pwr := { s.pwr with bootStage := 9 } }
      match storedImage? s with
      | some x => stageStored x s
      | none => s
  startQuote s

/-- What a stage does at its end besides its tests. -/
def stageEnds (stage : Nat) (s : State) : State :=
  match stage with
  | 0 => modPwr (fun p => { p with refOk := true, rootLock := true, hostSerdes := true, weltSerdes := 255, powerEnd := now s, bootStage := 1 }) s
  | 2 => modPwr (fun p => { p with bootStage := 3 })
      (modMem (fun m => { m with t0 := [], flips := [], scrubDue := now s + scrubPeriod s, banks := m.banks.map fun b => (b.1, { cePeriod := b.2.cePeriod, ceTotal := b.2.ceTotal }) }) s)
  | 7 => packageEnds s
  | n => modPwr (fun p => { p with bootStage := n + 1 }) s

/-- The cause of a chip-level fault of a stage (R440). -/
def stageCause (stage : Nat) : Nat := if stage = 7 then 14 else if stage = 6 then 6 else 7

/-- The known-answer failures among the failed units of CELL: the cell, and the tests that failed in it. -/
def katFails (fails : List (Nat × Nat)) : List (Nat × Nat × Nat) :=
  fails.filterMap fun f => (cellOf? f.1).map fun c => (c.1, c.2, f.2)

/-- The failed units of a stage. CELL runs the known-answer tests (R132) beside the logic self-test. -/
def stageFails (stage : Nat) (fails : List (Nat × Nat)) (s : State) : State :=
  fails.foldl (fun s f => stageFail stage f s) (if stage = 3 then katResult (katFails fails) s else s)

/-- A start-up stage ends. POWER ends once every rail is up. -/
def bootStage (fails : List (Nat × Nat)) (chipFail : Bool) (s : State) : State :=
  let n := s.pwr.bootStage
  if s.pwr.state ≠ 1 || 8 ≤ n then s
  else if chipFail then leaveService (stageCause n) false s
  else if n = 0 && s.pwr.rails < 5 then s
  else stageEnds n (stageFails n fails s)

/-- BOOT_STAGE_END. -/
def execBootStageEnd (fails : List (Nat × Nat)) (chipFail : Bool) (s : State) : Host.Outcome State Fault Refusal :=
  run (bootStage fails chipFail) s

/-- A warm reset: the rails stay up (R453). In OFF nothing is there to reset. -/
def warmReset (s : State) : State := if s.pwr.state = 0 then s else started 1 5 s

/-- PWR_RESET: PWR_CTRL.RESET from the owner port. -/
def execPwrReset (s : State) : Host.Outcome State Fault Refusal := run (gateWrite .owner 0xD00010 warmReset) s

/-! ### Power states (R462 to R464) -/

/-- CMD_RESULT of a GOTO. -/
def gotoResult (code : Nat) (s : State) : State := modPwr (fun p => { p with cmdResult := code }) s

/-- What R463 asks before it accepts GOTO STANDBY. -/
def mayStandby (s : State) : Bool :=
  powered s && !bit s.regs.stpCtrl.toNat 0 && !s.stp.running && s.img.st = 0 && s.ckp.st = 0

/-- GOTO STANDBY: BUSY, BAD_STATE, or the module quiesces for up to 100 ms. -/
def gotoStandby (s : State) : State :=
  if s.pwr.goto.isSome then gotoResult 4 s
  else if mayStandby s then modPwr (fun p => { p with goto := some 1, quiesceEnd := now s + 100000000, cmdResult := 0 }) s
  else gotoResult 3 s

/-- GOTO_STANDBY. -/
def execGotoStandby (s : State) : Host.Outcome State Fault Refusal := run (gateWrite .owner 0xD00010 gotoStandby) s

/-- The module is quiet: the transmitter off, queue pairs in ERROR, links DOWN with reason PEER, STANDBY. -/
def quiesced (s : State) : State :=
  if s.pwr.goto = some 1 then
    let s := allQpError s
    let s := { s with hst := { s.hst with txOn := false } }
    let s := (List.range 32).foldl (fun s l =>
      let st := (linkOf s l).st
      if st = 0 || st = 6 then s else linkDown l (some 10) (st = 5) s) s
    modPwr (fun p => { p with state := 3, goto := none, cmdResult := 1 }) s
  else s

/-- STANDBY_QUIESCED. -/
def execStandbyQuiesced (s : State) : Host.Outcome State Fault Refusal := run quiesced s

/-- The module is not quiet after 100 ms: it stays ON. -/
def quiesceLate (s : State) : State :=
  if s.pwr.goto = some 1 then
    unstall (modPwr (fun p => { p with goto := none, cmdResult := 2, state := 1 }) (advance s.pwr.quiesceEnd s))
  else s

/-- STANDBY_QUIESCE_TIMEOUT. -/
def execStandbyQuiesceTimeout (s : State) : Host.Outcome State Fault Refusal := run quiesceLate s

/-- GOTO ON: a resume from STANDBY, a start from OFF once the input is at 41.0 V. -/
def gotoOn (s : State) : State :=
  if s.pwr.state = 3 then
    if s.pwr.goto.isSome then gotoResult 4 s else modPwr (fun p => { p with goto := some 2, cmdResult := 0 }) s
  else if s.pwr.state = 0 then
    let s := modPwr (fun p => { p with startReq := true, tripped := false, cmdResult := 1 }) s
    if 41000 ≤ s.pwr.vinMv && s.pwr.vinMv ≤ 50000 then coldStart s else s
  else gotoResult 3 s

/-- GOTO_ON. -/
def execGotoOn (s : State) : Host.Outcome State Fault Refusal := run (gateWrite .owner 0xD00010 gotoOn) s

/-- One scrub pass over the unfenced banks (R185). -/
def scrubPass (s : State) : State :=
  (s.mem.flips.filter fun f => !bankFenced s f.bank).foldl (fun s f =>
    if bankFenced s f.bank then s else (checkWord f.bank f.word s).2) s

/-- A resume is complete: the scrub pass has run, TX_ENABLE and WLT_ENABLE apply again, PTP is in HOLDOVER. -/
def resumed (s : State) : State :=
  if s.pwr.goto = some 2 && s.pwr.state = 3 then
    let s := scrubPass (modPwr (fun p => { p with state := 1, goto := none, cmdResult := 1, resetKind := 2 }) s)
    let s := { s with hst := { s.hst with txOn := bit s.regs.hstCtrl.toNat 0 } }
    let s := if s.clk.state = 2 then ptpEvent (modClk (fun c => { c with state := 3, goodSyncs := 0 }) s) else s
    let s := (List.range 32).foldl (fun s l =>
      if (linkOf s l).st = 6 && linkMay s l then modLink l (fun k => { k.fresh with st := 1, since := now s }) s else s) s
    applyEnable s
  else s

/-- RESUME_COMPLETE. -/
def execResumeComplete (s : State) : Host.Outcome State Fault Refusal := run resumed s

/-- GOTO OFF. -/
def gotoOff (s : State) : State := if s.pwr.state = 0 then gotoResult 3 s else powerOff false 1 s

/-- GOTO_OFF. -/
def execGotoOff (s : State) : Host.Outcome State Fault Refusal := run (gateWrite .owner 0xD00010 gotoOff) s

/-- CLEAR_PEAK. -/
def clearPeak (s : State) : State := modPwr (fun p => { p with peakW := 0 }) s

/-- CLEAR_PEAK of PWR_CTRL. -/
def execClearPeak (s : State) : Host.Outcome State Fault Refusal := run (gateWrite .owner 0xD00010 clearPeak) s

/-- Whether work is in flight: a step, a ready turn, transfers, vector queries, fabric transactions, a start, a checked image. -/
def working (s : State) : Bool :=
  s.stp.running || !(readyTurns s).isEmpty || !s.stp.loads.isEmpty || s.pwr.goto.isSome || s.pwr.bootStage < 8 || s.img.st = 3 ||
  !s.wlt.outst.isEmpty || !(vecQueries s).isEmpty || !s.vec.work.isEmpty || s.mem.objs.any (·.busy.isSome) || s.ckp.st ≠ 0 ||
  s.ses.table.any fun p => p.2.spillT1 || p.2.copyUp || p.2.e.state = .banking || p.2.e.state = .waking ||
    p.2.st.rows.any rowMoves

/-- IDLE_US have passed without work. -/
def idleIn (s : State) : State :=
  let us := wfield s.regs.pwrCfg 0 16
  if s.pwr.state = 1 && us ≠ 0 && !working s then
    modPwr (fun p => { p with state := 2 }) (advance (s.pwr.lastWork + us * 1000) s)
  else s

/-- IDLE_ENTRY. -/
def execIdleEntry (s : State) : Host.Outcome State Fault Refusal := run idleIn s

/-- Work has arrived in IDLE. -/
def idleOut (s : State) : State :=
  if s.pwr.state = 2 then modPwr (fun p => { p with state := 1, lastWork := now s }) s else s

/-- IDLE_EXIT. -/
def execIdleExit (s : State) : Host.Outcome State Fault Refusal := run idleOut s

/-! ### Throttling and the trip (R465, R466) -/

/-- THROTTLE_C. -/
def throttleC (s : State) : Nat := wfield s.regs.pwrThermal 0 8

/-- RELEASE_C as taken (R472). -/
def releaseC (s : State) : Nat :=
  let r := wfield s.regs.pwrThermal 8 8
  if r < throttleC s then r else throttleC s - 5

/-- TRIP_C as taken (R472). -/
def tripC (s : State) : Nat := max (throttleC s + 5) (min 110 (wfield s.regs.pwrThermal 16 8))

/-- POWER_CAP_W as taken (R471). -/
def powerCap (s : State) : Nat := max 1000 (min 2500 (wfield s.regs.pwrCfg 16 12))

/-- Temperatures and power are measured; the coolant's are free values (log entry 3). -/
def sensed (maxC hot watts : Nat) (s : State) : State :=
  let (i, s) := measured 0 255 s
  let (o, s) := measured 0 255 s
  modPwr (fun p => { p with maxC := maxC % 256, hotTile := hot % 64, pinW := watts % 4096, peakW := max p.peakW (watts % 4096),
                            inletC := i, outletC := o }) s

/-- Whether the level may move: its limits are met, it is not at its end, and 1 ms has passed since the last change. -/
def throttleDue (up : Bool) (maxC watts : Nat) (s : State) : Bool :=
  let met := if up then decide (throttleC s ≤ maxC) || decide (powerCap s ≤ watts)
    else decide (maxC ≤ releaseC s) && decide (watts * 100 < 95 * powerCap s)
  met && (if up then decide (s.pwr.level < 3) else decide (0 < s.pwr.level)) &&
  (s.pwr.changes = 0 || s.pwr.lastChange + 1000000 ≤ now s)

/-- A limit is crossed: the level moves by one at the next boundary. -/
def throttleMoves (up : Bool) (cause maxC hot watts : Nat) (s : State) : State :=
  if !powered s then s
  else
    let s := sensed maxC hot watts s
    if throttleDue up maxC watts s then
      modPwr (fun p => { p with throttle := some (if up then p.level + 1 else p.level - 1, cause % 4) }) s
    else s

/-- THROTTLE_CHANGE. -/
def execThrottleChange (up : Bool) (cause : Nat) (maxC : Nat) (hot : Nat) (watts : Nat) (s : State) : Host.Outcome State Fault Refusal :=
  run (throttleMoves up cause maxC hot watts) s

/-- What waits on the host port leaves before the rails fall (log entry 29). -/
def flushHost (s : State) : State :=
  let p := portOf s 0
  if s.hst.linkUp && s.hst.txOn then
    ((p.ctl ++ p.queues.flatMap (·.2.frames)).filterMap (·.outs)).foldl (fun s o => emit o s) s
  else s

/-- A junction reaches TRIP_C: CHIP_OUT, then OFF. -/
def trips (hot : Nat) (s : State) : State :=
  if s.pwr.state = 0 then s
  else
    let c := tripC s
    modPwr (fun p => { p with maxC := c, hotTile := hot })
      (powerOff true s.pwr.cmdResult (flushHost (logAll 3 6 (unitChip 0) 0x0206 7 s)))

/-- THERMAL_TRIP. -/
def execThermalTrip (hot : Nat) (s : State) : Host.Outcome State Fault Refusal := runOn (hot < 48) (trips hot) s

/-! ### The SPI NOR (R459, R475) -/

/-- A write that arrives while BUSY is refused; others need the module ON. -/
def norGate (f : State → State) (s : State) : State :=
  if s.pwr.norBusy then modPwr (fun p => { p with norError := true }) s else if powered s then f s else s

/-- PWR_NOR_DATA: 8 bytes at ADDR begin to be programmed, and ADDR moves on. -/
def norData (v : Word) (s : State) : State :=
  norGate (fun s =>
    let a := wfield s.regs.norAddr 0 24 / 8 * 8
    let s := { s with regs := { s.regs with norAddr := BitVec.ofNat 64 ((a + 8) % 2 ^ 24) } }
    modPwr (fun p => { p with norBusy := true, norOp := some (.program a (le v.toNat 8)) }) s) s

/-- PWR_NOR_DATA. -/
def execPwrNorData (val : Word) (s : State) : Host.Outcome State Fault Refusal := run (gateWrite .owner 0xD00040 (norData val)) s

/-- ERASE_FW. -/
def eraseFirmware (s : State) : State :=
  norGate (fun s => modPwr (fun p => { p with norBusy := true, norError := false, norOp := some .erase }) s) s

/-- ERASE_FW of PWR_NOR_CMD. -/
def execEraseFw (s : State) : Host.Outcome State Fault Refusal := run (gateWrite .owner 0xD00048 eraseFirmware) s

/-- An operation of the NOR is complete, or has failed. -/
def norDone (ok : Bool) (s : State) : State :=
  match s.pwr.norOp with
  | none => s
  | some op =>
    if !ok then norFailed (modPwr (fun p => { p with norError := true }) s)
    else
      let nor := match op with
        | .erase => s.pwr.nor.filter fun c => 0x1000000 ≤ c.1
        | .program off d => writeBytes Config.norDefault off d s.pwr.nor
      modPwr (fun p => { p with nor := nor, norBusy := false, norOp := none }) s

/-- NOR_OP_COMPLETE. -/
def execNorOpComplete (ok : Bool) (s : State) : Host.Outcome State Fault Refusal := run (norDone ok) s

/-! ### Connectors (R498, R499, R501) -/

/-- A plug-in of the host cage is inserted or removed: the link goes down, and comes up with a plug-in that the cage can power. -/
def osfpChange (inserted : Bool) (watts : Nat) (s : State) : State :=
  let held := inserted && decide (15 < watts)
  let s := hostDown (modPwr (fun p => { p with osfp := inserted, osfpHeld := held }) s)
  if held then logAll 1 6 (unitChip 0x30) (Config.eventCode 2) 0 s
  else if inserted && powered s && 8 ≤ s.pwr.bootStage then hostUp s
  else s

/-- OSFP_INSERT. -/
def execOsfpInsert (inserted : Bool) (watts : Nat) (s : State) : Host.Outcome State Fault Refusal := run (osfpChange inserted watts) s

/-- CBL_PRSNT_N of a link. -/
def cableChange (l : Nat) (present : Bool) (s : State) : State :=
  modPwr (fun p => { p with cables := if present then addTo l p.cables else p.cables.filter (· ≠ l) }) s

/-- CABLE_PRESENT_CHANGE. -/
def execCablePresentChange (link : Nat) (present : Bool) (s : State) : Host.Outcome State Fault Refusal :=
  runOn (link < 32) (cableChange link present) s

/-- I3C_VREF appears or disappears; a target that left the bus has no dynamic address. -/
def vrefChange (present : Bool) (s : State) : State :=
  if present then modI3c (fun c => { c with vref := true }) s else modI3c (fun c => { c with vref := false, addr := none, ibi := false }) s

/-- I3C_VREF_CHANGE. -/
def execI3cVrefChange (present : Bool) (s : State) : Host.Outcome State Fault Refusal := run (vrefChange present) s

/-- The LED of a link (R499): 0 dark, 1 green, 2 amber. -/
def linkLed (s : State) (l : Nat) : Nat :=
  let st := (linkOf s l).st
  if st = 0 then 0 else if st = 5 then 1 else if !s.pwr.cables.contains l then 0 else 2

/-- FAULT_N is low (R501). -/
def faultLow (s : State) : Bool := s.err.chipOut || (s.pwr.state = 0 && s.pwr.tripped && !s.pwr.startReq)

/-- AUX_OK is high (R501). -/
def auxOk (s : State) : Bool := s.pwr.aux

end Sys2Proof.Machine
end

