-- ==== Sys2Proof/Machine/Flags.lean ====
section
/-!
DEFINITION. Sys2Proof/Machine/Flags.lean: what every register of R492 to R495 reads as: status fields, counts, selected views
and snapshots. A write-only register reads zero (R7).
-/
namespace Sys2Proof.Machine
open Sys2Proof

/-- A register value from its fields: value, lowest bit, width. -/
def pack (l : List (Nat × Nat × Nat)) : Nat := l.foldl (fun n f => n + place f.1 f.2.1 f.2.2) 0

/-- A count as a field holds it: it stops at the field's greatest value. -/
def cap (v lo width : Nat) : Nat × Nat × Nat := (sat v width, lo, width)

/-- A one-bit field. -/
def flag (b : Bool) (lo : Nat) : Nat × Nat × Nat := (b.toNat, lo, 1)

/-- Two 32-bit counts that saturate. -/
def two32 (a b : Nat) : Nat := pack [cap a 0 32, cap b 32 32]

/-- Word `i` of a byte string, least significant byte first. -/
def wordAt (b : Bytes) (i : Nat) : Nat := leAt b (8 * i) 8

/-- Words 2i and 2i + 1 of a histogram. -/
def binsAt (h : List Nat) (i : Nat) : Nat := two32 (h.getD (2 * i) 0) (h.getD (2 * i + 1) 0)

/-- The number of members of a list that hold a property. -/
def count {α : Type} (p : α → Bool) (l : List α) : Nat := (l.filter p).length

/-- Whether what an accessor reads concerns a tenant other than its own (the code f of R488): only a host queue pair is held to
its tenant. -/
def foreign (acc : Port) (s : State) (t : Nat) : Bool :=
  match acc with
  | .host qp => tenantOf s qp ≠ t
  | _ => false

/-! ### SES_ (R71 to R75) -/

/-- Entries in some states. -/
def inStates (s : State) (l : List SesState) : Nat := countSess s fun x => l.contains x.e.state

/-- The SES_ registers. TRACKER holds its reset value 0 until the start-up sequence has ended, and then what its values mean (log entry
132); LOG2_ENTRIES is the size of the table in use: 12 under the tracker, whatever the image's LOG2_ENTRIES (log entry 133). -/
def sesValue (acc : Port) (off : Nat) (s : State) : Nat :=
  let a := accRegs s acc
  match off with
  | 0x00 => s.regs.sesCfg.toNat
  | 0x08 => s.regs.reviveEst.toNat
  | 0x10 =>
    pack [(if s.pwr.bootStage < 8 then 0 else s.ses.tracker, 0, 2), (log2 (tableMax s), 2, 5), flag s.ses.tableFenced 7, cap (pinnedCount s) 8 22,
          cap (kindleCount s) 30 17, cap (limitNow s 13) 47 7, cap s.ses.disputes.length 54 10]
  | 0x18 => pack [cap (inStates s [.live]) 0 9, cap (inStates s [.ember]) 9 22, cap (inStates s [.banked]) 31 22]
  | 0x20 =>
    pack [cap (inStates s [.ash]) 0 22, cap (inStates s [.waking, .banking, .moving]) 22 22, cap (inStates s [.suspect]) 44 20]
  | 0x28 => a.inspectIdx
  | _ => if foreign acc s a.inspectTenant then 0 else wordAt a.inspect ((off - 0x30) / 8)

/-! ### STP_ (R99 to R106) -/

/-- Lanes that hold a turn in a phase and are not paused. -/
def lanesIn (s : State) (p : Phase) : Nat := count (fun l => !l.2.paused && l.2.phase = p) s.stp.lanes

/-- The STP_ registers. -/
def stpValue (off : Nat) (s : State) : Nat :=
  match off with
  | 0x00 => s.regs.stpCtrl.toNat
  | 0x08 => s.regs.stpCfg.toNat
  | 0x10 =>
    pack [flag s.stp.running 0, cap (lanesIn s .decode) 1 9, cap (lanesIn s .prefill) 10 9, cap (lanesIn s .closing) 19 9,
          cap (count (·.2.paused) s.stp.lanes) 28 9, cap s.stp.queue.length 37 13, cap (readyTurns s).length 50 13]
  | 0x18 => s.stp.seq
  | 0x20 => pack [cap s.stp.lastNs 0 24, cap s.stp.maxNs 24 24]
  | 0x28 => two32 s.stp.missed s.stp.preempted
  | 0x30 => s.regs.ctxLanes.toNat
  | 0x38 => s.regs.ctxCfg.toNat
  | 0x40 => pack ((List.range 4).map fun c => ((ctxOf s c).state, 4 * c, 3))
  | 0x50 =>
    let n (k : Nat) : Nat := count (·.state = k) s.stp.adapters
    pack [cap s.stp.adapters.length 0 11, cap (n 2) 11 11, cap (n 3) 22 11, cap (n 1) 33 11]
  | _ => 0

/-! ### ARI_ (R133 to R137) and ATN_ (R161 to R167) -/

/-- The ARI_ registers. -/
def ariValue (off : Nat) (s : State) : Nat :=
  match off with
  | 0x00 => pack [(replayLevel, 0, 8), (2 ^ replayLevel, 8, 16), (1, 24, 2)]
  | 0x08 => two32 s.ari.nanLogits s.ari.allMasked
  | 0x10 => two32 s.ari.outOfVocab s.ari.nanBlocks
  | 0x20 =>
    pack [flag s.ari.katDone 0, flag s.ari.katPass 1, (s.ari.katTests, 2, 5), cap s.ari.katCells 8 9]
  | _ => 0

/-- Retained rows with pages in a tier, of the sessions in PLACE 0 and 1 (R163). A row counts as spilled to T1 where a page of it lies there,
whatever brought it (log entry 150). -/
def rowsIn (s : State) (tier : Nat) : Nat :=
  sumN (s.ses.table.map fun p =>
    if p.2.e.place ≤ 1 && p.2.e.state ≠ .ash then count (fun r => r.pages.any fun q => q.tier = tier) p.2.st.rows else 0)

/-- The ATN_ registers. -/
def atnValue (acc : Port) (off : Nat) (s : State) : Nat :=
  let t := (accRegs s acc).labSel
  match off with
  | 0x00 => s.regs.atnCfg.toNat
  | 0x08 => pack [(1024, 0, 11), cap (ceilDiv (poolUsedBytes s) (2 ^ 20)) 11 11]
  | 0x10 => pack [cap (rowsIn s 0) 0 21, cap (rowsIn s 1) 21 21, cap (rowsIn s 2) 42 21]
  | 0x18 => two32 s.atn.evicted s.atn.poolWaits
  | 0x20 => two32 s.atn.spilled s.atn.returned
  | 0x28 => t
  | 0x30 => if t > 47 then 0 else two32 (findD t s.atn.hits 0) (findD t s.atn.misses 0)
  | _ => 0

/-! ### MEM_ (R197 to R209) -/

/-- MEM_BANK_INFO. -/
def bankInfo (s : State) (k : Nat) : Nat :=
  let b := bankOf s k
  if k ≥ 3072 then 0
  else
    pack [(b.owner, 0, 7), (b.ctx, 7, 2), (b.use, 9, 3), (b.home, 12, 3), flag b.lent 15, flag b.pending.isSome 16,
          flag (bankFenced s k) 17, cap b.cePeriod 18 16, cap b.ceTotal 34 30]

/-- MEM_T2_INFO: blocks of 64 KiB in GB; a channel's mean of program and erase cycles over its blocks, per mille of 3,000; the spare
blocks left, which a channel reports once the start-up sequence has brought it up (log entry 34). -/
def chanInfo (s : State) (k : Nat) : Nat :=
  let c := chanOf s k
  pack [cap ((c.used + c.vecUsed) * 65536 / 1000000000) 0 12, cap (c.wear * 1000 / (chanBlocks * 3000)) 12 10,
        cap (if s.pwr.bootStage ≤ 5 then 0 else (spareBlocks - c.retired) * 100 / spareBlocks) 22 7, flag c.fenced 29, cap c.readFail 30 16]

/-- FREE_Rn: the free T1 of a region in GiB, once the start-up sequence has brought up the region's T1 (R198, log entry 34). -/
def freeGib (s : State) (r : Nat) : Nat := if s.pwr.bootStage ≤ 5 then 0 else t1FreeIn s r / 16384

/-- The MEM_ registers. -/
def memValue (acc : Port) (off : Nat) (s : State) : Nat :=
  let a := accRegs s acc
  match off with
  | 0x00 => s.regs.memCfg.toNat
  | 0x08 => pack ((List.range 8).map fun r => cap (freeGib s r) (8 * r) 8)
  | 0x10 => pack [cap s.mem.queue.length 0 16, (s.mem.mirrorA, 16, 3), (s.mem.mirrorB, 19, 3), flag s.mem.degraded 22]
  | 0x18 => a.bankSel
  | 0x20 => bankInfo s a.bankSel
  | 0x30 => pack [(a.bankCode, 0, 3), (a.bankNo, 3, 12), flag a.bankDone 15]
  | 0x38 => pack [cap s.mem.t0Ce 0 40, cap s.mem.t0Ue 40 24]
  | 0x40 => pack [cap s.mem.t1Ce 0 40, cap s.mem.t1Ue 40 24]
  | 0x48 => a.t2Sel
  | 0x50 => chanInfo s a.t2Sel
  | 0x58 => s.regs.t2Part.toNat
  | 0x68 =>
    let tier := match obj? s a.objId with | some o => if a.objCode = 0 || a.objCode = 7 then a.objTier else o.tier | none => a.objTier
    pack [(a.objCode, 0, 4), (a.objId, 4, 20), (tier, 24, 2), flag a.objDone 26]
  | _ => 0

/-! ### VEC_ (R235 to R242) -/

/-- The selected index, where it exists and the accessor may see it. -/
def indexSeen (acc : Port) (s : State) : Option VIndex :=
  match vindex? s (accRegs s acc).idxSel with
  | some x => if x.dropped || foreign acc s x.tenant then none else some x
  | none => none

/-- The VEC_ registers. -/
def vecValue (acc : Port) (off : Nat) (s : State) : Nat :=
  let k := (accRegs s acc).engSel
  let held := s.vec.idxs.filter (!·.dropped)
  match off with
  | 0x00 => s.regs.vecCfg.toNat
  | 0x08 =>
    let chans := List.range 32
    pack [cap held.length 0 9, cap (sumN (chans.map (engCoord s))) 9 14, cap (sumN (chans.map (engInput s))) 23 18,
          cap (sumN (s.vec.idxs.map fun x => count (fun b => !b.closed) x.batches)) 41 16, flag (s.vec.idxs.any (·.repairing.isSome)) 57,
          flag (held.any fun x => x.chans.any fun c => (chanOf s c).fenced) 58]
  | 0x10 => k
  | 0x18 =>
    pack [cap (engCoord s k) 0 9, cap (engFwd s k) 9 10, cap (engInput s k) 19 13, cap (engFwdQueue s k) 32 20,
          cap (nandCmds s k) 52 9,
          flag (chanOf s k).fenced 61]
  | 0x20 => (accRegs s acc).idxSel
  | 0x28 => ((indexSeen acc s).map (·.pub)).getD 0
  | 0x30 => ((indexSeen acc s).map (·.horizon)).getD 0
  | 0x38 =>
    match indexSeen acc s with
    | some x => two32 (count (x.visible x.pub) x.recs) x.dels.length
    | none => 0
  | 0x40 => two32 s.vec.queries s.vec.short
  | 0x48 => two32 s.vec.passes s.vec.busy
  | _ => 0

/-! ### HST_ (R270 to R278) -/

/-- HST_QP_INFO of a queue pair. -/
def qpInfo (s : State) (k : Nat) : Nat :=
  let q := qpOf s k
  pack [(q.st, 0, 2), (q.version, 2, 8), flag q.result.isSome 10, flag q.event.isSome 11, (readsOut q, 12, 7), cap q.lost 19 32]

/-- POOL_FREE: the free receive buffers, once the start-up sequence has brought up the host port's receiver (log entry 34). -/
def poolFree (s : State) : Nat := if s.pwr.bootStage ≤ 7 then 0 else 1024 - s.hst.poolUsed

/-- The HST_ registers. -/
def hstValue (acc : Port) (off : Nat) (s : State) : Nat :=
  let k := (accRegs s acc).qpSel
  match off with
  | 0x00 => s.regs.hstCtrl.toNat
  | 0x08 => s.regs.hstCfg.toNat
  | 0x10 => s.rom.mac % 2 ^ 48
  | 0x18 => s.regs.ipv4.toNat
  | 0x20 => s.regs.ipv6Hi.toNat
  | 0x28 => s.regs.ipv6Lo.toNat
  | 0x30 =>
    pack [flag s.hst.linkUp 0, flag s.hst.txOn 1, (s.clk.state, 2, 2), cap (count (·.2.st = 2) s.hst.qps) 4 15,
          cap (poolFree s) 19 11]
  | 0x38 => pack [(satInt32 s.clk.offset, 0, 32), cap s.clk.pathDelay 32 32]
  | 0x40 => now s
  | 0x48 => k
  | 0x50 => if foreign acc s (tenantOf s k) then 0 else qpInfo s k
  | 0x58 => two32 s.hst.tacks s.hst.refused
  | 0x60 => two32 s.hst.rnrNaks s.hst.noRing
  | _ => 0

/-! ### SHP_ (R293 to R301) -/

/-- The selected meter, where the image has it and the accessor may see it: a meter is a tenant's where one of its queue pairs names
it. -/
def meterSeen (acc : Port) (s : State) : Option Meter :=
  let m := (accRegs s acc).meterSel
  let n := ((s.img.active.map (·.meters)).getD []).length
  let mine : Bool := match acc with
    | .host qp => (qpCfgs s).any fun c => c.meter = m && c.tenant = tenantOf s qp
    | _ => true
  if m < n && mine then some (findD m s.shp.meters {}) else none

/-- Whether the gate of a queue is open now (R289, R299). -/
def gateOpen (s : State) (p q : Nat) : Bool :=
  let x := portOf s p
  match x.running, x.gates with
  | true, some g => g.opens (g.at_ (now s)).1 q
  | _, _ => true

/-- SHP_QUEUE_INFO. -/
def queueInfo (s : State) (p q : Nat) : Nat :=
  let x := findD q (portOf s p).queues {}
  pack [cap (sumN (x.frames.map (·.len))) 0 28, (x.weight, 28, 16), flag (gateOpen s p q) 44, flag (!x.frames.isEmpty) 45,
        cap x.lost 46 18]

/-- SHP_GATE_STATUS. -/
def gateInfo (s : State) (p : Nat) : Nat :=
  let x := portOf s p
  let entry := match x.running, x.gates with
    | true, some g => (g.at_ (now s)).1
    | _, _ => 0
  pack [flag x.running 0, flag x.pend.isSome 1, (entry, 2, 8), cap x.overruns 10 32]

/-- The SHP_ registers. -/
def shpValue (acc : Port) (off : Nat) (s : State) : Nat :=
  let a := accRegs s acc
  let p := a.portSel % 64
  let m := (meterSeen acc s).getD {}
  match off with
  | 0x00 => s.regs.shpCfg.toNat
  | 0x10 => a.meterSel
  | 0x18 => two32 m.green m.yellow
  | 0x20 => two32 m.yRef m.red
  | 0x28 => two32 (m.tc / 1000000) (m.tp / 1000000)
  | 0x30 => pack ((List.range 4).map fun c => cap (findD c s.shp.cls []).length (16 * c) 16)
  | 0x38 => a.portSel
  | 0x40 => if p > 32 then 0 else queueInfo s p (a.portSel / 64)
  | 0x48 => if p > 32 then 0 else gateInfo s p
  | 0x50 => if p > 32 then 0 else (portOf s p).v
  | 0x58 => a.histSel
  | _ => if 0x60 ≤ off && off ≤ 0x98 then binsAt a.histSnap ((off - 0x60) / 8) else 0

/-! ### WLT_ (R329 to R339) -/

/-- Tags in use by an issuer group. -/
def groupTags (s : State) (g : Nat) : Nat := count (·.group = g) s.wlt.outst

/-- WLT_LINK_INFO. -/
def linkInfo (s : State) (l : Nat) : Nat :=
  let k := linkOf s l
  pack [(k.st, 0, 3), flag (k.lanes ≠ 15) 3, flag k.encrypted 4, (k.version, 5, 8), (k.peerNode, 13, 12), (k.peerLink, 25, 5),
        (k.reason, 30, 4), cap k.retrains 34 16]

/-- The WLT_ registers. -/
def wltValue (acc : Port) (off : Nat) (s : State) : Nat :=
  let l := (accRegs s acc).linkSel
  let k := linkOf s l
  match off with
  | 0x00 => s.regs.wltEnable.toNat
  | 0x08 => s.regs.wltCfg.toNat
  | 0x10 => pack ((upLinks s).map (fun n => (1, n, 1)) ++ [(nodeState s, 32, 2), (s.rom.incarnation, 34, 30)])
  | 0x18 => l
  | 0x20 => linkInfo s l
  | 0x28 => pack [cap k.fecCorrected 0 32, cap k.replays 32 16, cap k.uncorrected 48 16]
  | 0x30 => pack [cap k.forwarded 0 48, cap k.discarded 48 16]
  | 0x38 => pack ((List.range 4).map fun g => cap (groupTags s g) (16 * g) 16)
  | 0x40 => pack [cap (groupTags s 4) 0 16, cap (groupTags s 5) 16 16, cap s.wlt.outst.length 32 17]
  | 0x48 => pack [cap s.wlt.once.length 0 21, cap s.wlt.buffer.length 21 16, flag (s.wlt.once.length ≥ onceMax) 37]
  | 0x50 => two32 s.wlt.duplicates s.wlt.gaps
  | 0x58 => two32 s.wlt.resends s.wlt.dead
  | 0x60 => s.regs.wltQmap.toNat
  | 0x68 => two32 s.wlt.stale 0
  | _ => 0

/-! ### MAP_ (R366 to R372) -/

/-- The selected job, where this module is a member and the accessor may see it. -/
def jobSeen (acc : Port) (s : State) : Option Job :=
  match job? s (accRegs s acc).jobSel with
  | some j => if j.map.state = 0 || foreign acc s j.map.tenant then none else some j
  | none => none

/-- MAP_JOB_INFO. -/
def jobInfo (s : State) (j : Job) : Nat :=
  let me := selfNode s
  let roles := ((j.map.members.find? (·.node = me)).map (·.roles)).getD 0
  pack [(j.map.state, 0, 3), flag (j.map.cobbler = me) 3, (roles, 4, 4), (j.map.cobbler, 8, 12), cap j.map.members.length 20 13,
        cap (voters j.map).length 33 4, flag j.drainOn 37, flag (leads s j) 38]

/-- The MAP_ registers. MAP_REQ_KEY exists for host queue pairs alone (R494). -/
def mapValue (acc : Port) (off : Nat) (s : State) : Nat :=
  let a := accRegs s acc
  let jobs := s.map.jobs.filter (·.2.live)
  match off with
  | 0x00 =>
    pack [cap jobs.length 0 7, cap (count (fun j => j.2.map.cobbler = selfNode s) jobs) 7 7,
          cap (sumN (s.map.jobs.map (·.2.locRecs.length))) 14 26]
  | 0x08 => a.jobSel
  | 0x10 => match jobSeen acc s with | some j => jobInfo s j | none => 0
  | 0x18 => match jobSeen acc s with | some j => j.map.epoch % 2 ^ 48 | none => 0
  | 0x20 => match jobSeen acc s with | some j => j.map.term % 2 ^ 32 | none => 0
  | 0x28 => a.reqAddr
  | 0x30 => match acc with | .host _ => a.reqKey | _ => 0
  | 0x48 => pack [(a.reqCode, 0, 4), (a.reqReason, 4, 4), (a.reqJob, 8, 16), (a.reqEpoch, 24, 40)]
  | 0x50 => pack [cap s.map.commits 0 16, cap s.map.elections 16 16, cap s.map.teardowns 32 16, cap s.map.redirects 48 16]
  | 0x58 => two32 s.map.forwards s.map.catchFails
  | _ => 0

/-! ### CKP_ (R393 to R398) -/

/-- The CKP_ registers. -/
def ckpValue (off : Nat) (s : State) : Nat :=
  let c := s.ckp
  match off with
  | 0x00 => s.regs.ckpCfg.toNat
  | 0x08 => pack [(c.st, 0, 3), flag c.coord 3, (c.job, 4, 16), cap c.shards 20 16, cap c.failCount 36 16]
  | 0x10 => c.step
  | 0x18 => c.last
  | 0x20 => two32 c.written c.shared
  | 0x28 => two32 c.restored c.failedN
  | _ => if 0x30 ≤ off && off ≤ 0x48 && c.st = 4 then wordAt c.digest ((off - 0x30) / 8) else 0

/-! ### SEC_ (R47 to R51, R423 to R429) -/

/-- SEC_IMG_STATUS. -/
def imgStatus (s : State) : Nat :=
  let i := s.img
  pack [(i.st, 0, 3), flag i.active.isSome 3, flag i.isSealed 4, flag i.draining 5, (i.source, 6, 2), (i.placeKind, 8, 2),
        (i.placeIdx, 10, 6), (i.staged, 16, 25), (i.stageQp, 41, 14)]

/-- The registers of the image controller. -/
def imgValue (off : Nat) (s : State) : Nat :=
  match off with
  | 0x00 => imgStatus s
  | 0x08 => pack [(s.img.code, 0, 8), (s.img.section_, 8, 10), (s.img.detail, 18, 32)]
  | 0x10 => pack [(ofImage s (·.revision), 0, 32), (ofImage s (·.build), 32, 32)]
  | 0x38 => s.regs.imgExpect0.toNat
  | 0x40 => s.regs.imgExpect1.toNat
  | 0x48 => s.regs.imgExpect2.toNat
  | 0x50 => s.regs.imgExpect3.toNat
  | 0x60 => s.regs.stageAddr.toNat
  | _ =>
    match s.img.active with
    | some i => if 0x18 ≤ off && off ≤ 0x30 then wordAt i.measured ((off - 0x18) / 8) else 0
    | none => 0

/-- STALL_RECORDS as taken (R427). -/
def stallRecords (s : State) : Nat := max 1 (wfield s.regs.audCfg 0 24)

/-- SEC_ID_STATUS. -/
def idStatus (s : State) : Nat :=
  pack [flag s.sec.identity 0, flag s.rom.endorsement.isSome 1, flag s.sec.helperFail 2, flag (dsk? s).isSome 3,
        cap (enrolledKeys s).length 4 3, flag s.sec.fwMeasured 7, (s.rom.keySeq, 8, 40)]

/-- SEC_QUOTE_STATUS. -/
def quoteStatus (s : State) : Nat :=
  pack [flag (s.sec.quotes.any (·.hdr.isNone)) 0, flag s.sec.quoteReady 1, cap s.sec.quoteOut.length 2 15]

/-- The registers of the security block. -/
def idValue (off : Nat) (s : State) : Nat :=
  let c := s.sec
  match off with
  | 0x00 => idStatus s
  | 0x48 => c.fwLength
  | 0x80 => pack [(c.keyCode, 0, 4), (c.keySlot, 4, 2), flag c.keyDone 6]
  | 0x88 => s.regs.quoteNonce0.toNat
  | 0x90 => s.regs.quoteNonce1.toNat
  | 0x98 => s.regs.quoteNonce2.toNat
  | 0xA0 => s.regs.quoteNonce3.toNat
  | 0xB0 => quoteStatus s
  | 0xC0 => s.regs.audCfg.toNat
  | 0xC8 => pack [cap (audUsed s / 2 ^ 20) 0 9, cap (count (fun t => t.2.log.length ≥ stallRecords s) c.aud) 9 13]
  | 0xD0 => c.rootSeq
  | 0xD8 => two32 c.noRing c.stalled
  | _ =>
    if 0x08 ≤ off && off ≤ 0x20 then wordAt c.pubkey ((off - 0x08) / 8)
    else if 0x28 ≤ off && off ≤ 0x40 then wordAt c.fwDigest ((off - 0x28) / 8)
    else if 0x50 ≤ off && off ≤ 0x68 then leNat (slotKeyId s ((off - 0x50) / 8))
    else 0

/-! ### ERR_ (R443 to R449) -/

/-- ERR_CELL_INFO of a selection. -/
def cellInfo (s : State) (sel : Nat) : Nat :=
  let k := (sel % 64, sel / 64)
  if k.1 > 47 || k.2 > 73 then 0
  else
    let f := find? k s.err.cells
    pack [flag f.isSome 0, (f.getD 0, 1, 4), cap (findD k s.err.ue 0) 5 16]

/-- The ERR_ registers. -/
def errValue (acc : Port) (off : Nat) (s : State) : Nat :=
  let e := s.err
  let sel := (accRegs s acc).cellSel
  match off with
  | 0x00 =>
    pack ([flag e.chipOut 0] ++ e.regions.map (fun r => (1, 1 + r % 8, 1)) ++
          [(e.tiles.length, 9, 6), cap e.cells.length 15 12, flag e.switching 27, flag e.armedTo.isSome 28])
  | 0x08 => pack (e.tiles.map fun t => (1, t % 48, 1))
  | 0x10 => sel
  | 0x18 => cellInfo s sel
  | 0x20 => s.regs.errCfg.toNat
  | 0x30 => s.regs.injectAddr.toNat
  | 0x38 => pack [cap e.cellFences 0 16, cap e.tileFences 16 16, cap e.ctxFaults 32 16, cap e.sesLost 48 16]
  | _ => 0

/-! ### PWR_, CLK_ (R468 to R476) and LIM_ (R480 to R483) -/

/-- The PWR_ registers. -/
def pwrValue (off : Nat) (s : State) : Nat :=
  let p := s.pwr
  match off with
  | 0x00 => pack [(p.state, 0, 2), (p.bootStage, 2, 5), (p.resetKind, 7, 2), (p.cmdResult, 9, 3), cap p.bootMs 12 20]
  | 0x08 => pack [cap p.vinMv 0 16, cap p.pinW 16 12, cap p.peakW 28 12, cap p.excursions 40 16]
  | 0x18 => s.regs.pwrCfg.toNat
  | 0x20 => s.regs.pwrThermal.toNat
  | 0x28 =>
    pack [cap p.maxC 0 8, (p.hotTile, 8, 6), cap p.inletC 14 8, cap p.outletC 22 8, (p.level, 30, 2), (p.cause, 32, 2),
          cap p.changes 34 16]
  | 0x30 => s.regs.pwrEnable.toNat
  | 0x38 => s.regs.norAddr.toNat
  | 0x50 => pack [flag p.norBusy 0, flag p.norError 1]
  | _ => 0

/-- CLK_STATUS. -/
def clkValue (s : State) : Nat :=
  let p := s.pwr
  pack [flag p.refOk 0, flag p.rootLock 1, flag p.hostSerdes 2, (p.weltSerdes, 3, 8), (p.ariDiv, 11, 4)]

/-- The LIM_ registers. -/
def limValue (acc : Port) (off : Nat) (s : State) : Nat :=
  let a := accRegs s acc
  match off with
  | 0x00 => s.regs.limCfg.toNat
  | 0x08 => a.termSel
  | 0x50 => two32 s.lim.measured s.lim.unmeasured
  | 0x58 => a.hwmSel
  | 0x60 =>
    let i := a.hwmSel
    if i > 31 then 0 else pack [cap (limitNow s i) 0 24, cap (findD i s.lim.peaks 0) 24 24, cap (findD i s.lim.hits 0) 48 16]
  | _ => if 0x10 ≤ off && off ≤ 0x48 then binsAt a.termSnap ((off - 0x10) / 8) else 0

/-! ### Every register -/

/-- What a register of the index reads as, by its block (R484). SEC_QUOTE_DATA, whose read has an effect, is read in
Registers. -/
def regValue (acc : Port) (off : Nat) (s : State) : Nat :=
  let o := off % 2 ^ 20
  match off / 2 ^ 20 with
  | 0x0 => sesValue acc o s
  | 0x1 => stpValue o s
  | 0x2 => ariValue o s
  | 0x3 => atnValue acc o s
  | 0x4 => memValue acc o s
  | 0x5 => vecValue acc o s
  | 0x6 => hstValue acc o s
  | 0x7 => shpValue acc o s
  | 0x8 => wltValue acc o s
  | 0x9 => mapValue acc o s
  | 0xA => ckpValue o s
  | 0xB => if o < 0x1000 then imgValue o s else idValue (o - 0x1000) s
  | 0xC => errValue acc o s
  | 0xD => pwrValue o s
  | 0xE => clkValue s
  | _ => limValue acc o s

end Sys2Proof.Machine
end

