-- ==== Sys2Proof/Machine/Registers.lean ====
section
/-!
DEFINITION. Sys2Proof/Machine/Registers.lean: register accesses: what a write does by access code, field and port (R7, R9, R486 to
R491), reads, the REG_READ and REG_WRITE tacks (R258), and the owner port's private transfers (R400).
-/
namespace Sys2Proof.Machine
open Sys2Proof

/-! ### Registers that hold what is written -/

/-- A shared register that holds what is written: the masks of its RW and its RWS fields, and its place. -/
structure Slot where
  rw  : Nat
  rws : Nat
  get : Regs → Word
  set : Word → Regs → Regs

/-- The shared registers that need nothing but to hold their RW fields. -/
def rwSlot? (off : Nat) : Option Slot :=
  match off with
  | 0x000000 => some ⟨2 ^ 64 - 1, 0, (·.sesCfg), fun v r => { r with sesCfg := v }⟩
  | 0x000008 => some ⟨2 ^ 48 - 1, 0, (·.reviveEst), fun v r => { r with reviveEst := v }⟩
  | 0x100008 => some ⟨2 ^ 40 - 1, 0, (·.stpCfg), fun v r => { r with stpCfg := v }⟩
  | 0x100030 => some ⟨2 ^ 36 - 1, 0, (·.ctxLanes), fun v r => { r with ctxLanes := v }⟩
  | 0x100038 => some ⟨0x7777, 0, (·.ctxCfg), fun v r => { r with ctxCfg := v }⟩
  | 0x300000 => some ⟨2 ^ 48 - 1, 0, (·.atnCfg), fun v r => { r with atnCfg := v }⟩
  | 0x400000 => some ⟨2 ^ 52 - 1, 0, (·.memCfg), fun v r => { r with memCfg := v }⟩
  | 0x500000 => some ⟨2 ^ 54 - 1, 0, (·.vecCfg), fun v r => { r with vecCfg := v }⟩
  | 0x600008 => some ⟨2 ^ 42 - 1, 0, (·.hstCfg), fun v r => { r with hstCfg := v }⟩
  | 0x700000 => some ⟨2 ^ 11 - 1, 0, (·.shpCfg), fun v r => { r with shpCfg := v }⟩
  | 0x800008 => some ⟨2 ^ 45 - 1, 0, (·.wltCfg), fun v r => { r with wltCfg := v }⟩
  | 0x800060 => some ⟨2 ^ 48 - 1, 0, (·.wltQmap), fun v r => { r with wltQmap := v }⟩
  | 0xA00000 => some ⟨2 ^ 64 - 1, 0, (·.ckpCfg), fun v r => { r with ckpCfg := v }⟩
  | 0xB00038 => some ⟨2 ^ 64 - 1, 0, (·.imgExpect0), fun v r => { r with imgExpect0 := v }⟩
  | 0xB00040 => some ⟨2 ^ 64 - 1, 0, (·.imgExpect1), fun v r => { r with imgExpect1 := v }⟩
  | 0xB00048 => some ⟨2 ^ 64 - 1, 0, (·.imgExpect2), fun v r => { r with imgExpect2 := v }⟩
  | 0xB00050 => some ⟨2 ^ 64 - 1, 0, (·.imgExpect3), fun v r => { r with imgExpect3 := v }⟩
  | 0xB01088 => some ⟨2 ^ 64 - 1, 0, (·.quoteNonce0), fun v r => { r with quoteNonce0 := v }⟩
  | 0xB01090 => some ⟨2 ^ 64 - 1, 0, (·.quoteNonce1), fun v r => { r with quoteNonce1 := v }⟩
  | 0xB01098 => some ⟨2 ^ 64 - 1, 0, (·.quoteNonce2), fun v r => { r with quoteNonce2 := v }⟩
  | 0xB010A0 => some ⟨2 ^ 64 - 1, 0, (·.quoteNonce3), fun v r => { r with quoteNonce3 := v }⟩
  | 0xB010C0 => some ⟨2 ^ 46 - 1, 0, (·.audCfg), fun v r => { r with audCfg := v }⟩
  | 0xC00030 => some ⟨2 ^ 48 - 1, 0, (·.injectAddr), fun v r => { r with injectAddr := v }⟩
  | 0xD00030 => some ⟨3, 0, (·.pwrEnable), fun v r => { r with pwrEnable := v }⟩
  | 0xD00038 => some ⟨2 ^ 24 - 1, 0, (·.norAddr), fun v r => { r with norAddr := v }⟩
  | 0xF00000 => some ⟨2 ^ 10 - 1, 0, (·.limCfg), fun v r => { r with limCfg := v }⟩
  | _ => none

/-- The registers that hold RWS fields (R491). -/
def rwsSlot? (off : Nat) : Option Slot :=
  match off with
  | 0x400058 => some ⟨0, 2 ^ 7 - 1, (·.t2Part), fun v r => { r with t2Part := v }⟩
  | 0x600018 => some ⟨0, 2 ^ 39 - 1, (·.ipv4), fun v r => { r with ipv4 := v }⟩
  | 0x600020 => some ⟨0, 2 ^ 64 - 1, (·.ipv6Hi), fun v r => { r with ipv6Hi := v }⟩
  | 0x600028 => some ⟨0, 2 ^ 64 - 1, (·.ipv6Lo), fun v r => { r with ipv6Lo := v }⟩
  | 0xC00020 => some ⟨0, 2 ^ 41 - 1, (·.errCfg), fun v r => { r with errCfg := v }⟩
  | 0xD00018 => some ⟨2 ^ 16 - 1, 2 ^ 28 - 2 ^ 16, (·.pwrCfg), fun v r => { r with pwrCfg := v }⟩
  | 0xD00020 => some ⟨0, 2 ^ 24 - 1, (·.pwrThermal), fun v r => { r with pwrThermal := v }⟩
  | _ => none

/-- The value a slot holds after a write: the RW fields as written, the RWS fields as written until the seal, reserved bits
zero (R7, R9). -/
def Slot.value (k : Slot) (held : Bool) (old v : Word) : Word :=
  let rws := BitVec.ofNat 64 k.rws
  (v &&& BitVec.ofNat 64 k.rw) ||| (if held then old &&& rws else v &&& rws)

/-- A write to a register that holds its fields. Under the seal, RWS fields keep their values, and the write is logged only where it
would have changed one (R9). -/
def writeSlot (acc : Port) (off : Nat) (k : Slot) (v : Word) (s : State) : State :=
  let old := k.get s.regs
  let rws := BitVec.ofNat 64 k.rws
  let held := s.img.isSealed
  let s := { s with regs := k.set (k.value held old v) s.regs }
  if held && (old &&& rws) ≠ (v &&& rws) then registerWarn acc off 1 s else s

/-- Whether a VECTOR_PCT leaves some channel's vector segments more than their share (R188). -/
def pctBelowUse (v : Word) (s : State) : Bool :=
  let share := chanBlocks * min 90 (wfield v 0 7) / 100
  (List.range 32).any fun c => share < (chanOf s c).vecUsed

/-! ### Selectors and other registers of one accessor (R489) -/

/-- A selector that an accessor holds for itself. -/
def writeSelector (acc : Port) (off : Nat) (v : Word) (s : State) : Option State :=
  match off with
  | 0x300028 => some (modAcc acc (fun a => { a with labSel := wfield v 0 6 }) s)
  | 0x400018 => some (modAcc acc (fun a => { a with bankSel := wfield v 0 12 }) s)
  | 0x400048 => some (modAcc acc (fun a => { a with t2Sel := wfield v 0 5 }) s)
  | 0x500010 => some (modAcc acc (fun a => { a with engSel := wfield v 0 5 }) s)
  | 0x500020 => some (modAcc acc (fun a => { a with idxSel := wfield v 0 12 }) s)
  | 0x600048 => some (modAcc acc (fun a => { a with qpSel := wfield v 0 14 }) s)
  | 0x700010 => some (modAcc acc (fun a => { a with meterSel := wfield v 0 12 }) s)
  | 0x700038 => some (modAcc acc (fun a => { a with portSel := wfield v 0 12 }) s)
  | 0x800018 => some (modAcc acc (fun a => { a with linkSel := wfield v 0 5 }) s)
  | 0x900008 => some (modAcc acc (fun a => { a with jobSel := wfield v 0 16 }) s)
  | 0xC00010 => some (modAcc acc (fun a => { a with cellSel := wfield v 0 13 }) s)
  | 0xF00058 => some (modAcc acc (fun a => { a with hwmSel := wfield v 0 6 }) s)
  | 0x900028 =>
    some (modAcc acc (fun a => { a with reqAddr := match acc with | .host _ => v.toNat | _ => wfield v 0 21 / 8 * 8 }) s)
  | 0x900030 => some (match acc with | .host _ => modAcc acc (fun a => { a with reqKey := wfield v 0 54 }) s | _ => s)
  | 0x000028 => some (inspect acc v s)
  | 0x700058 => some (histSelect acc v s)
  | 0xF00008 => some (termSelect acc v s)
  | _ => none

/-! ### Registers whose write acts -/

/-- `f` where bit `i` of the written value is set. -/
def onBit (v : Word) (i : Nat) (f : State → State) (s : State) : State := if bit v.toNat i then f s else s

/-- STP_CTRL (R99). -/
def writeStpCtrl (v : Word) (s : State) : State :=
  let s := onBit v 1 (fun s => { s with stp := { s.stp with maxNs := 0 } }) s
  { s with regs := { s.regs with stpCtrl := BitVec.ofNat 64 (wfield v 0 1) } }

/-- STP_CTX_CMD (R105): a write with both LOAD and UNLOAD has no effect. -/
def writeCtxCmd (acc : Port) (v : Word) (s : State) : State :=
  let c := wfield v 0 2
  match bit v.toNat 2, bit v.toNat 3 with
  | true, true => registerWarn acc 0x100048 3 s
  | true, false => startLoad c s
  | false, true => unloadContext c s
  | false, false => s

/-- MEM_OBJ_CMD (R207). -/
def writeObjCmd (acc : Port) (v : Word) (s : State) : State :=
  let tier := wfield v 6 2
  let id := wfield v 12 20
  match wfield v 0 3 with
  | 0 => createObj acc (wfield v 3 3) tier (wfield v 8 4) (wfield v 32 32) s
  | 1 => onObj acc id (moveObj acc tier) s
  | 2 => onObj acc id (pinObj acc true) s
  | 3 => onObj acc id (pinObj acc false) s
  | 4 => onObj acc id (freeObj acc) s
  | _ => objResult acc 6 id 0 false s

/-- ERR_INJECT (R441, R447). What lies at a T1 address is a free value. -/
def writeInject (v : Word) (s : State) : State :=
  let u := wfield v 4 32
  match wfield v 0 4 with
  | 1 => injectCe u s
  | 2 => injectUe u s
  | 3 => injectCell u s
  | 4 => injectTile u s
  | 5 => injectT1 u (Config.t1Area s.free (wfield s.regs.injectAddr 0 48)) { s with free := s.free + 1 }
  | 6 => injectT2 u s
  | 7 => injectCrc u s
  | 8 => injectRegion u s
  | k => inject k 6 u (none : Option Nat) (fun _ s => s) s

/-- PWR_CTRL (R470): CLEAR_PEAK, then RESET, else GOTO. -/
def writePwrCtrl (v : Word) (s : State) : State :=
  let s := onBit v 3 clearPeak s
  if bit v.toNat 2 then warmReset s
  else match wfield v 0 2 with
    | 0 => s
    | 1 => gotoStandby s
    | 2 => gotoOn s
    | _ => gotoOff s

/-- The registers whose write acts, by offset. A CLEAR_ field comes first (R490). -/
def writeAction (acc : Port) (off : Nat) (v : Word) (s : State) : Option State :=
  match off with
  | 0x100000 => some (writeStpCtrl v s)
  | 0x100048 => some (writeCtxCmd acc v s)
  | 0x200018 => some (onBit v 1 (startKat acc) (onBit v 0 ariClear s))
  | 0x300038 => some (onBit v 1 labFlushDue (onBit v 0 atnClear s))
  | 0x400028 => some (handover acc v s)
  | 0x400060 => some (writeObjCmd acc v s)
  | 0x400070 => some (onBit v 1 (modMem fun m => { m with scrubbing := true }) (onBit v 0 memClear s))
  | 0x500050 => some (onBit v 1 startAllRepairs (onBit v 0 vecClear s))
  | 0x600000 => some (txEnable acc (bit v.toNat 0) (onBit v 1 hstClear s))
  | 0x700008 => some (onBit v 1 histClear (onBit v 0 shpClear s))
  | 0x800000 => some (writeWltEnable v s)
  | 0x800070 => some (onBit v 1 (retrainSelected acc) (onBit v 0 wltClear s))
  | 0x900038 => some (mapReqData acc v s)
  | 0x900040 => some (mapReqSubmit acc v s)
  | 0x900060 => some (onBit v 1 (syncNow acc) (onBit v 0 mapClear s))
  | 0xA00050 => some (onBit v 2 releaseHold (onBit v 1 (ckpFail 0x63) (onBit v 0 ckpClear s)))
  | 0xB00058 => some (writeImgCmd v s)
  | 0xB00060 => some (writeStageAddr v s)
  | 0xB00068 => some (writeStageData v s)
  | 0xB01070 => some (keyCommand (wfield v 0 3) (wfield v 3 2) s)
  | 0xB01078 => some (keyData v s)
  | 0xB010A8 => some (onBit v 0 quoteGo s)
  | 0xB010E0 => some (onBit v 0 secAudClear s)
  | 0xC00028 => some (writeInject v s)
  | 0xC00040 => some ((if acc = .owner then onBit v 1 armOne else id) (onBit v 0 errClear s))
  | 0xD00010 => some (writePwrCtrl v s)
  | 0xD00040 => some (norData v s)
  | 0xD00048 => some (onBit v 0 eraseFirmware s)
  | 0xF00068 => some (onBit v 1 peaksClear (onBit v 0 limHistClear s))
  | _ => none

/-! ### An access -/

/-- A write that the index and the boot stage let through. A read-only register keeps its value (R7). -/
def writeDefined (acc : Port) (off : Nat) (v : Word) (s : State) : State :=
  match writeAction acc off v s, writeSelector acc off v s, rwsSlot? off, rwSlot? off with
  | some t, _, _, _ => t
  | none, some t, _, _ => t
  | none, none, some k, _ =>
    if off = 0x400058 && !s.img.isSealed && pctBelowUse v s then registerWarn acc off 3 s else writeSlot acc off k v s
  | none, none, none, some k => writeSlot acc off k v s
  | none, none, none, none => s

/-- Whether an accessor is there to make an access: the owner port only while it is on its bus. -/
def reaches (acc : Port) (s : State) : Bool := acc ≠ .owner || onBus s

/-- A write of a register offset by an accessor: one where no register is defined has no effect and is logged (R9). -/
def writeRegister (acc : Port) (off : Nat) (v : Word) (s : State) : State :=
  if (regRow? off).isNone then (if reaches acc s then registerWarn acc off 2 s else s)
  else gateWrite acc off (writeDefined acc off v) s

/-- Whether the index lets an accessor read a register (R486, R488). -/
def mayRead (acc : Port) (r : RegRow) (s : State) : Bool :=
  match acc with
  | .owner => true
  | .host qp => hostMayRead s qp r
  | .core n => r.core && coreServes s n

/-- A read of a register offset by an accessor: the value, and what the read leaves. -/
def readRegister (acc : Port) (off : Nat) (s : State) : Word × State :=
  match regRow? off with
  | none => (0, registerWarn acc off 2 s)
  | some r =>
    if !mayRead acc r s then (0, s)
    else if off = 0xB010B8 then readQuote s
    else (BitVec.ofNat 64 (regValue acc off s), s)

/-! ### The commands -/

/-- REGISTER_WRITE. -/
def execRegisterWrite (acc : Port) (off : Nat) (val : Word) (s : State) : Host.Outcome State Fault Refusal :=
  run (writeRegister acc off val) s

/-- Whether the index grants an access under the rights of a tack's arrival (R43, R488); an undefined offset follows R9. -/
def hostGranted (may : Nat → RegRow → Bool) (d : Bind) (off : Nat) : Bool :=
  match regRow? off with
  | none => true
  | some r => may d.rights r

/-- A read of a register that is granted: the value, and what the read leaves. -/
def readGranted (acc : Port) (off : Nat) (s : State) : Word × State :=
  match regRow? off with
  | none => (0, registerWarn acc off 2 s)
  | some _ => if off = 0xB010B8 then readQuote s else (BitVec.ofNat 64 (regValue acc off s), s)

/-- A write of a register that is granted. -/
def writeGranted (acc : Port) (off : Nat) (v : Word) (s : State) : State :=
  if (regRow? off).isNone then registerWarn acc off 2 s else writeDefined acc off v s

/-- REG_READ at check 8 of R253: the value goes into the completion. -/
def regReadEff (h : TackHdr) (d : Bind) (off : Nat) (s : State) : State :=
  if !hostGranted rightsRead d off then completeOp h 0x30 0x04 s
  else
    let (v, s) := readGranted (.host h.qp) off s
    completeOp h 0x30 0 s { a := v.toNat }

/-- REG_READ. -/
def execRegRead (h : TackHdr) (off : Nat) (s : State) : Host.Outcome State Fault Refusal :=
  run (tackRowB h (.regRead off) fun _ d => regReadEff h d off) s

/-- REG_WRITE at check 8 of R253: the write takes effect before its completion is written. -/
def regWriteEff (h : TackHdr) (d : Bind) (off : Nat) (val : Word) (s : State) : State :=
  if !hostGranted rightsWrite d off then completeOp h 0x31 0x04 s
  else completeOp h 0x31 0 (writeGranted (.host h.qp) off val s)

/-- REG_WRITE. -/
def execRegWrite (h : TackHdr) (off : Nat) (val : Word) (s : State) : Host.Outcome State Fault Refusal :=
  run (tackRowB h (.regWrite off val) fun _ d => regWriteEff h d off val) s

/-- `f` where the owner port has a dynamic address and so takes private transfers (R400). -/
def ownerXfer (f : State → State) (s : State) : State := if addressed s then f s else s

/-- A private write with OP 0: the offset of the reads that follow. -/
def execOwnerSelect (off : Nat) (s : State) : Host.Outcome State Fault Refusal :=
  run (ownerXfer (modI3c fun c => { c with sel := off })) s

/-- A private write with OP 1. -/
def execOwnerWrite (off : Nat) (val : Word) (s : State) : Host.Outcome State Fault Refusal :=
  run (ownerXfer (writeRegister .owner off val)) s

/-- A private write with OP 2: every group of 8 bytes goes to the offset, in order. -/
def execOwnerWriteBurst (off : Nat) (vals : List Word) (s : State) : Host.Outcome State Fault Refusal :=
  run (ownerXfer fun s => vals.foldl (fun s v => writeRegister .owner off v s) s) s

/-- Groups of a private read, each a fresh read of the selected register. -/
def ownerReads : Nat → State → State
  | 0, s => s
  | n + 1, s =>
    let (v, s) := readRegister .owner s.i3c.sel s
    ownerReads n (emit (.i3c (le v.toNat 8)) s)

/-- A private read. -/
def execOwnerRead (groups : Nat) (s : State) : Host.Outcome State Fault Refusal := run (ownerXfer (ownerReads groups)) s

end Sys2Proof.Machine
end

