-- ==== Sys2Proof/Machine/Perform.lean ====
section
/-!
DEFINITION. Sys2Proof/Machine/Perform.lean: what follows the fetch of a data reference (R251), and tacks that another member
forwarded (R354, R358).
-/
namespace Sys2Proof.Machine
open Sys2Proof

/-! ### Fetches that end (R251) -/

/-- A session tack whose data was fetched to be forwarded meets check 7 again: it goes on as its handle is served now. -/
def forwardFetched (h : TackHdr) (b : TackBody) (t : Nat) (s : State) : State :=
  match routeIn s (jobOfQp s h.qp) h.mapEpoch h.handle h.fwd.isSome with
  | .forward n j =>
    let s := { s with map := { s.map with forwards := sat (s.map.forwards + 1) 32 } }
    sendSession n j (.tack h b) s
  | _ => routeTack h b t (performSession h b t) s

/-- What a tack does with the bytes it has fetched, by the fetch's stage. -/
def fetched (f : Fetch) (data : Bytes) (s : State) : State :=
  let h := f.hdr
  match f.stage, f.body with
  | 9, b => forwardFetched h (inlineBody b data) f.tArr s
  | 20, _ => ckpFetched data s
  | 21, _ => compose (.host h.qp) data s
  | 1, .adapterLoad _ => adapterRest h (f.part ++ data) s
  | _, .adapterLoad r => adapterHeader h f.bind r data s
  | _, .turn b => admitTurn h b f.tArr (idsOf b.inputCount data) s
  | _, .ckpReplay b => admitReplay h b f.tArr (idsOf b.count data) s
  | _, .stageData off _ => stageDataBytes h off data s
  | _, .weightsStage c _ => weightsFetched h c data s
  | _, .vecCreate _ => vecCreateBytes h data s
  | _, .ckpStore job kind flags node r => ckpStoreRead h job kind flags node r data s
  | _, _ => s

/-- The READs of a reference complete with its bytes, the last of them sent as earlier ones were answered: those that wait go out, and
the tack goes on. A fetch none of whose READs has been sent cannot complete. -/
def fetchComplete (qp : Nat) (tag : Word) (data : Bytes) (s : State) : State :=
  match (qpOf s qp).fetches.find? fun f => f.left < readsOf f.ref && f.hdr.tag = tag with
  | none => s
  | some f =>
    if data.length ≠ f.ref.len then s
    else
      let s := issueReads qp f.ref (readsOf f.ref - f.left) f.left s
      let s := readsDone qp f.ref.addr f.ref.len (modQp qp (fun q => { q with fetches := q.fetches.erase f }) s)
      fetched f data (launchReads qp s)

/-- FETCH_COMPLETE. -/
def execFetchComplete (qp : Nat) (tag : Word) (data : Bytes) (s : State) : Host.Outcome State Fault Refusal :=
  run (fetchComplete qp tag data) s

/-! ### Forwarded tacks (R354, R358) -/

/-- A vector tack at the member that holds its index. -/
def performVector (h : TackHdr) (b : TackBody) (s : State) : State :=
  match b with
  | .vecCreate p => vecCreateEff h p s
  | .vecDrop id => vecDropEff h id s
  | .vecInsert x => vecInsertEff h x s
  | .vecDelete id cls slot gen => vecDeleteEff h id cls slot gen s
  | .vecQuery r q => vecQueryEff h r q s
  | _ => s

/-- FORWARDED_TACK from a member of a job: a session tack as R354 lays down, a vector tack by R358. -/
def takeForwarded (src job : Nat) (h : TackHdr) (b : TackBody) (s : State) : State :=
  let held := match job? s job with | some j => j.map.members.any (·.node = src) | none => false
  let op := opcodeOf b
  if 0x20 ≤ op && op ≤ 0x24 then (if held then performVector { h with fwd := some (src, job) } b s else s)
  else forwardedTack src job h b s

/-- FORWARDED_TACK. -/
def execForwardedTack (src : Nat) (job : Nat) (h : TackHdr) (b : TackBody) (s : State) : Host.Outcome State Fault Refusal :=
  run (takeForwarded src job h b) s

end Sys2Proof.Machine
end

