-- ==== Sys2Proof/Machine/Dispatch.lean ====
section
/-!
DEFINITION. Sys2Proof/Machine/Dispatch.lean: one arm for each command, in the opcode table's order.
-/
namespace Sys2Proof.Machine
open Sys2Proof

def exec (i : Instr) (s : State) : Host.Outcome State Fault Refusal :=
  match i with
  | .registerWrite acc off val => Sys2Proof.Machine.execRegisterWrite acc off val s
  | .eventRingDrain tenant consumed => Sys2Proof.Machine.execEventRingDrain tenant consumed s
  | .arbiterGrant arb reqs accs => Sys2Proof.Machine.execArbiterGrant arb reqs accs s
  | .ownerStageBegin => Sys2Proof.Machine.execOwnerStageBegin s
  | .ownerStageEnd len => Sys2Proof.Machine.execOwnerStageEnd len s
  | .secImgStageData val => Sys2Proof.Machine.execSecImgStageData val s
  | .stageLockTimeout => Sys2Proof.Machine.execStageLockTimeout s
  | .activate sealToo persist auto drainMs => Sys2Proof.Machine.execActivate sealToo persist auto drainMs s
  | .sealImage => Sys2Proof.Machine.execSealImage s
  | .abortStage => Sys2Proof.Machine.execAbortStage s
  | .imageCheckDone => Sys2Proof.Machine.execImageCheckDone s
  | .drainTimeout => Sys2Proof.Machine.execDrainTimeout s
  | .imagePersistComplete ok => Sys2Proof.Machine.execImagePersistComplete ok s
  | .openTack h b => Sys2Proof.Machine.execOpenTack h b s
  | .turn h b => Sys2Proof.Machine.execTurn h b s
  | .park h tier => Sys2Proof.Machine.execPark h tier s
  | .wake h => Sys2Proof.Machine.execWake h s
  | .kindle h etaUs => Sys2Proof.Machine.execKindle h etaUs s
  | .pin h => Sys2Proof.Machine.execPin h s
  | .unpin h => Sys2Proof.Machine.execUnpin h s
  | .moveTack h dest => Sys2Proof.Machine.execMoveTack h dest s
  | .closeTack h => Sys2Proof.Machine.execCloseTack h s
  | .confirm h node => Sys2Proof.Machine.execConfirm h node s
  | .resolve h node => Sys2Proof.Machine.execResolve h node s
  | .bankingComplete idx => Sys2Proof.Machine.execBankingComplete idx s
  | .bankingWriteFail idx => Sys2Proof.Machine.execBankingWriteFail idx s
  | .wakeStart => Sys2Proof.Machine.execWakeStart s
  | .wakeComplete idx => Sys2Proof.Machine.execWakeComplete idx s
  | .wakeFailed idx => Sys2Proof.Machine.execWakeFailed idx s
  | .copyToT0Complete idx => Sys2Proof.Machine.execCopyToT0Complete idx s
  | .kindleAtReached idx => Sys2Proof.Machine.execKindleAtReached idx s
  | .kindleHoldExpired idx => Sys2Proof.Machine.execKindleHoldExpired idx s
  | .pressureRule => Sys2Proof.Machine.execPressureRule s
  | .moveOffer src job e => Sys2Proof.Machine.execMoveOffer src job e s
  | .moveStorageReceived handle st => Sys2Proof.Machine.execMoveStorageReceived handle st s
  | .moveAck handle epoch => Sys2Proof.Machine.execMoveAck handle epoch s
  | .moveRelease handle => Sys2Proof.Machine.execMoveRelease handle s
  | .moveTimeout handle => Sys2Proof.Machine.execMoveTimeout handle s
  | .moveQuery src job handle => Sys2Proof.Machine.execMoveQuery src job handle s
  | .moveQueryAnswer handle committed => Sys2Proof.Machine.execMoveQueryAnswer handle committed s
  | .moveQueryTimeout handle => Sys2Proof.Machine.execMoveQueryTimeout handle s
  | .moveCancel handle => Sys2Proof.Machine.execMoveCancel handle s
  | .moveReleaseTimeout handle => Sys2Proof.Machine.execMoveReleaseTimeout handle s
  | .suspectReport src job handle => Sys2Proof.Machine.execSuspectReport src job handle s
  | .claimQuery home job handle => Sys2Proof.Machine.execClaimQuery home job handle s
  | .claimAnswer handle ans => Sys2Proof.Machine.execClaimAnswer handle ans s
  | .claimCollectionEnd handle => Sys2Proof.Machine.execClaimCollectionEnd handle s
  | .disputeSettle handle winner epoch => Sys2Proof.Machine.execDisputeSettle handle winner epoch s
  | .storageReclaimed idx => Sys2Proof.Machine.execStorageReclaimed idx s
  | .moveKeepExpired idx => Sys2Proof.Machine.execMoveKeepExpired idx s
  | .sesInspectIndex acc val => Sys2Proof.Machine.execSesInspectIndex acc val s
  | .stepBoundary => Sys2Proof.Machine.execStepBoundary s
  | .emptyBoundary => Sys2Proof.Machine.execEmptyBoundary s
  | .adapterLoad h r => Sys2Proof.Machine.execAdapterLoad h r s
  | .adapterLoadComplete ctx id => Sys2Proof.Machine.execAdapterLoadComplete ctx id s
  | .adapterDrop h ctx id => Sys2Proof.Machine.execAdapterDrop h ctx id s
  | .contextLoad acc ctx => Sys2Proof.Machine.execContextLoad acc ctx s
  | .contextUnload acc ctx => Sys2Proof.Machine.execContextUnload acc ctx s
  | .contextLoadComplete ctx => Sys2Proof.Machine.execContextLoadComplete ctx s
  | .weightsInPlace ctx => Sys2Proof.Machine.execWeightsInPlace ctx s
  | .contextTeardownComplete ctx => Sys2Proof.Machine.execContextTeardownComplete ctx s
  | .stpClearMax => Sys2Proof.Machine.execStpClearMax s
  | .ariClearCounts acc => Sys2Proof.Machine.execAriClearCounts acc s
  | .runKat acc => Sys2Proof.Machine.execRunKat acc s
  | .katComplete fails => Sys2Proof.Machine.execKatComplete fails s
  | .kvSpill tile => Sys2Proof.Machine.execKvSpill tile s
  | .pageSpillComplete idx v tile => Sys2Proof.Machine.execPageSpillComplete idx v tile s
  | .pageBringBack tile => Sys2Proof.Machine.execPageBringBack tile s
  | .longRowSpill idx => Sys2Proof.Machine.execLongRowSpill idx s
  | .atnClearCounts acc => Sys2Proof.Machine.execAtnClearCounts acc s
  | .labFlush acc => Sys2Proof.Machine.execLabFlush acc s
  | .t1AllocGrant => Sys2Proof.Machine.execT1AllocGrant s
  | .allocWait => Sys2Proof.Machine.execAllocWait s
  | .sessionSpillT1 tile => Sys2Proof.Machine.execSessionSpillT1 tile s
  | .sessionSpillT1Complete idx => Sys2Proof.Machine.execSessionSpillT1Complete idx s
  | .objCreate acc kind tier region size => Sys2Proof.Machine.execObjCreate acc kind tier region size s
  | .objMove acc obj tier => Sys2Proof.Machine.execObjMove acc obj tier s
  | .objPin acc obj => Sys2Proof.Machine.execObjPin acc obj s
  | .objUnpin acc obj => Sys2Proof.Machine.execObjUnpin acc obj s
  | .objFree acc obj => Sys2Proof.Machine.execObjFree acc obj s
  | .objTransferDone obj => Sys2Proof.Machine.execObjTransferDone obj s
  | .bankHandover acc val => Sys2Proof.Machine.execBankHandover acc val s
  | .bankHandoverDone bank => Sys2Proof.Machine.execBankHandoverDone bank s
  | .scrubPeriodEnd => Sys2Proof.Machine.execScrubPeriodEnd s
  | .scrubNow acc => Sys2Proof.Machine.execScrubNow acc s
  | .memClearCounts acc => Sys2Proof.Machine.execMemClearCounts acc s
  | .ueT1 addr area => Sys2Proof.Machine.execUeT1 addr area s
  | .ueT2 ch block => Sys2Proof.Machine.execUeT2 ch block s
  | .blockRetire ch block => Sys2Proof.Machine.execBlockRetire ch block s
  | .vecCreate h p => Sys2Proof.Machine.execVecCreate h p s
  | .vecDrop h id => Sys2Proof.Machine.execVecDrop h id s
  | .vecInsert h b => Sys2Proof.Machine.execVecInsert h b s
  | .vecDelete h id cls slot gen => Sys2Proof.Machine.execVecDelete h id cls slot gen s
  | .vecQuery h r q => Sys2Proof.Machine.execVecQuery h r q s
  | .coordinatorAdmit ch => Sys2Proof.Machine.execCoordinatorAdmit ch s
  | .forwardedWork ch => Sys2Proof.Machine.execForwardedWork ch s
  | .vecQueryComplete idx qseq => Sys2Proof.Machine.execVecQueryComplete idx qseq s
  | .batchClose ch idx list => Sys2Proof.Machine.execBatchClose ch idx list s
  | .tailFlush idx list => Sys2Proof.Machine.execTailFlush idx list s
  | .updateDurable idx useq => Sys2Proof.Machine.execUpdateDurable idx useq s
  | .horizonAdvance => Sys2Proof.Machine.execHorizonAdvance s
  | .repairStart => Sys2Proof.Machine.execRepairStart s
  | .vectorPass idx => Sys2Proof.Machine.execVectorPass idx s
  | .vecRepairNow acc => Sys2Proof.Machine.execVecRepairNow acc s
  | .vecClearCounts acc => Sys2Proof.Machine.execVecClearCounts acc s
  | .hostLinkUp => Sys2Proof.Machine.execHostLinkUp s
  | .hostLinkDown => Sys2Proof.Machine.execHostLinkDown s
  | .sendMessage qp msg pkts ce => Sys2Proof.Machine.execSendMessage qp msg pkts ce s
  | .peerRdmaRequest qp kind => Sys2Proof.Machine.execPeerRdmaRequest qp kind s
  | .pfcFrame prios quanta => Sys2Proof.Machine.execPfcFrame prios quanta s
  | .cnp qp => Sys2Proof.Machine.execCnp qp s
  | .rateRecovery qp => Sys2Proof.Machine.execRateRecovery qp s
  | .ackTimeout qp => Sys2Proof.Machine.execAckTimeout qp s
  | .rdmaNak qp => Sys2Proof.Machine.execRdmaNak qp s
  | .fetchComplete qp tag data => Sys2Proof.Machine.execFetchComplete qp tag data s
  | .cmReq priv remote ip => Sys2Proof.Machine.execCmReq priv remote ip s
  | .cmRtu qp => Sys2Proof.Machine.execCmRtu qp s
  | .cmDreq qp => Sys2Proof.Machine.execCmDreq qp s
  | .cmDrep qp => Sys2Proof.Machine.execCmDrep qp s
  | .connectTimeout qp => Sys2Proof.Machine.execConnectTimeout qp s
  | .qpErrorTimeout qp => Sys2Proof.Machine.execQpErrorTimeout qp s
  | .stageBegin h => Sys2Proof.Machine.execStageBegin h s
  | .stageData h off p => Sys2Proof.Machine.execStageData h off p s
  | .stageEnd h len => Sys2Proof.Machine.execStageEnd h len s
  | .weightsStage h ctx r => Sys2Proof.Machine.execWeightsStage h ctx r s
  | .regRead h off => Sys2Proof.Machine.execRegRead h off s
  | .regWrite h off val => Sys2Proof.Machine.execRegWrite h off val s
  | .ringSetup h b => Sys2Proof.Machine.execRingSetup h b s
  | .nop h => Sys2Proof.Machine.execNop h s
  | .ringConsumerRead qp kind count => Sys2Proof.Machine.execRingConsumerRead qp kind count s
  | .egressFrame port => Sys2Proof.Machine.execEgressFrame port s
  | .gateEntry port => Sys2Proof.Machine.execGateEntry port s
  | .ptpSync hdr twoStep rx src => Sys2Proof.Machine.execPtpSync hdr twoStep rx src s
  | .ptpFollowUp hdr origin => Sys2Proof.Machine.execPtpFollowUp hdr origin s
  | .ptpDelayResp hdr rx => Sys2Proof.Machine.execPtpDelayResp hdr rx s
  | .ptpAnnounce hdr master => Sys2Proof.Machine.execPtpAnnounce hdr master s
  | .ptpDelayReq => Sys2Proof.Machine.execPtpDelayReq s
  | .ptpHoldover => Sys2Proof.Machine.execPtpHoldover s
  | .hostTxEnable on => Sys2Proof.Machine.execHostTxEnable on s
  | .hstClearCounts => Sys2Proof.Machine.execHstClearCounts s
  | .histSample => Sys2Proof.Machine.execHistSample s
  | .shpClearCounts acc => Sys2Proof.Machine.execShpClearCounts acc s
  | .clearHist acc => Sys2Proof.Machine.execClearHist acc s
  | .shpHistSel acc val => Sys2Proof.Machine.execShpHistSel acc val s
  | .wltEnable val => Sys2Proof.Machine.execWltEnable val s
  | .laneLock link mask => Sys2Proof.Machine.execLaneLock link mask s
  | .signalTimeout link => Sys2Proof.Machine.execSignalTimeout link s
  | .alignDone link => Sys2Proof.Machine.execAlignDone link s
  | .alignTimeout link => Sys2Proof.Machine.execAlignTimeout link s
  | .trainSend link => Sys2Proof.Machine.execTrainSend link s
  | .train link t => Sys2Proof.Machine.execTrain link t s
  | .paramTimeout link => Sys2Proof.Machine.execParamTimeout link s
  | .key link k => Sys2Proof.Machine.execKey link k s
  | .keyConfirmTimeout link => Sys2Proof.Machine.execKeyConfirmTimeout link s
  | .rekeyStart link => Sys2Proof.Machine.execRekeyStart link s
  | .rekeyDeadline link => Sys2Proof.Machine.execRekeyDeadline link s
  | .laneLockLoss loss => Sys2Proof.Machine.execLaneLockLoss loss s
  | .fecSecond link corrected uncorrected => Sys2Proof.Machine.execFecSecond link corrected uncorrected s
  | .retrainTimer link => Sys2Proof.Machine.execRetrainTimer link s
  | .flit link raw => Sys2Proof.Machine.execFlit link raw s
  | .flitAckTimeout link => Sys2Proof.Machine.execFlitAckTimeout link s
  | .forwardFrame link f => Sys2Proof.Machine.execForwardFrame link f s
  | .load link r => Sys2Proof.Machine.execLoad link r s
  | .store link r => Sys2Proof.Machine.execStore link r s
  | .fadd link r => Sys2Proof.Machine.execFadd link r s
  | .swap link r => Sys2Proof.Machine.execSwap link r s
  | .cas link r => Sys2Proof.Machine.execCas link r s
  | .fand link r => Sys2Proof.Machine.execFand link r s
  | .forOp link r => Sys2Proof.Machine.execForOp link r s
  | .fxor link r => Sys2Proof.Machine.execFxor link r s
  | .lineUnitAccept region => Sys2Proof.Machine.execLineUnitAccept region s
  | .fabricResponse r => Sys2Proof.Machine.execFabricResponse r s
  | .respTimeout tag => Sys2Proof.Machine.execRespTimeout tag s
  | .targetDead tag => Sys2Proof.Machine.execTargetDead tag s
  | .onceResultExpire node stream sq => Sys2Proof.Machine.execOnceResultExpire node stream sq s
  | .nodeState link node sq => Sys2Proof.Machine.execNodeState link node sq s
  | .wltClearCounts acc => Sys2Proof.Machine.execWltClearCounts acc s
  | .wltRetrain acc => Sys2Proof.Machine.execWltRetrain acc s
  | .propose l part => Sys2Proof.Machine.execPropose l part s
  | .accept l => Sys2Proof.Machine.execAccept l s
  | .refuse l reason => Sys2Proof.Machine.execRefuse l reason s
  | .commit l => Sys2Proof.Machine.execCommit l s
  | .heartbeatTimer job => Sys2Proof.Machine.execHeartbeatTimer job s
  | .heartbeat l => Sys2Proof.Machine.execHeartbeat l s
  | .heartbeatAck l => Sys2Proof.Machine.execHeartbeatAck l s
  | .electionTimeout job => Sys2Proof.Machine.execElectionTimeout job s
  | .voteRequest l => Sys2Proof.Machine.execVoteRequest l s
  | .vote l granted => Sys2Proof.Machine.execVote l granted s
  | .candidateTimeout job => Sys2Proof.Machine.execCandidateTimeout job s
  | .syncRequest l => Sys2Proof.Machine.execSyncRequest l s
  | .sync l part => Sys2Proof.Machine.execSync l part s
  | .report l kind node count => Sys2Proof.Machine.execReport l kind node count s
  | .teardown l hdr => Sys2Proof.Machine.execTeardown l hdr s
  | .location l recs => Sys2Proof.Machine.execLocation l recs s
  | .compose l req => Sys2Proof.Machine.execCompose l req s
  | .memberSilent job node => Sys2Proof.Machine.execMemberSilent job node s
  | .recomposePropose job => Sys2Proof.Machine.execRecomposePropose job s
  | .formTimeout job => Sys2Proof.Machine.execFormTimeout job s
  | .proposalTimeout job => Sys2Proof.Machine.execProposalTimeout job s
  | .drainWindowEnd job => Sys2Proof.Machine.execDrainWindowEnd job s
  | .forwardedTack src job h b => Sys2Proof.Machine.execForwardedTack src job h b s
  | .forwardedRecord src qp r => Sys2Proof.Machine.execForwardedRecord src qp r s
  | .catchUpTimeout qp tag => Sys2Proof.Machine.execCatchUpTimeout qp tag s
  | .mapReqData acc val => Sys2Proof.Machine.execMapReqData acc val s
  | .mapReqSubmit acc val => Sys2Proof.Machine.execMapReqSubmit acc val s
  | .mapClearCounts => Sys2Proof.Machine.execMapClearCounts s
  | .syncNow => Sys2Proof.Machine.execSyncNow s
  | .ckpStore h job kind flags node r => Sys2Proof.Machine.execCkpStore h job kind flags node r s
  | .ckpBegin h job members pool flags step base => Sys2Proof.Machine.execCkpBegin h job members pool flags step base s
  | .claimPoll => Sys2Proof.Machine.execClaimPoll s
  | .checkpointWriteDone ok => Sys2Proof.Machine.execCheckpointWriteDone ok s
  | .checkpointAllDone => Sys2Proof.Machine.execCheckpointAllDone s
  | .ckpCommit h job step sig => Sys2Proof.Machine.execCkpCommit h job step sig s
  | .ckpAbort h job step => Sys2Proof.Machine.execCkpAbort h job step s
  | .signWaitTimeout => Sys2Proof.Machine.execSignWaitTimeout s
  | .ckpRestore h job which flags slotLo slotHi r => Sys2Proof.Machine.execCkpRestore h job which flags slotLo slotHi r s
  | .restoreComplete => Sys2Proof.Machine.execRestoreComplete s
  | .ckpReplay h b => Sys2Proof.Machine.execCkpReplay h b s
  | .ckpCollect h job => Sys2Proof.Machine.execCkpCollect h job s
  | .collectComplete => Sys2Proof.Machine.execCollectComplete s
  | .replayHoldExpired => Sys2Proof.Machine.execReplayHoldExpired s
  | .ckpClearCounts acc => Sys2Proof.Machine.execCkpClearCounts acc s
  | .ckpCtrlAbort acc => Sys2Proof.Machine.execCkpCtrlAbort acc s
  | .releaseReplay acc => Sys2Proof.Machine.execReleaseReplay acc s
  | .ownerSelect off => Sys2Proof.Machine.execOwnerSelect off s
  | .ownerWrite off val => Sys2Proof.Machine.execOwnerWrite off val s
  | .ownerWriteBurst off vals => Sys2Proof.Machine.execOwnerWriteBurst off vals s
  | .ownerRead groups => Sys2Proof.Machine.execOwnerRead groups s
  | .entdaa addr => Sys2Proof.Machine.execEntdaa addr s
  | .rstdaa => Sys2Proof.Machine.execRstdaa s
  | .enec => Sys2Proof.Machine.execEnec s
  | .disec => Sys2Proof.Machine.execDisec s
  | .getpid => Sys2Proof.Machine.execGetpid s
  | .getbcr => Sys2Proof.Machine.execGetbcr s
  | .getdcr => Sys2Proof.Machine.execGetdcr s
  | .getstatus => Sys2Proof.Machine.execGetstatus s
  | .getmwl => Sys2Proof.Machine.execGetmwl s
  | .getmrl => Sys2Proof.Machine.execGetmrl s
  | .secKeyData val => Sys2Proof.Machine.execSecKeyData val s
  | .enrol slot => Sys2Proof.Machine.execEnrol slot s
  | .remove slot => Sys2Proof.Machine.execRemove slot s
  | .setSecret slot => Sys2Proof.Machine.execSetSecret slot s
  | .clearAll slot => Sys2Proof.Machine.execClearAll slot s
  | .keyCmdComplete ok => Sys2Proof.Machine.execKeyCmdComplete ok s
  | .quote h nonce r => Sys2Proof.Machine.execQuote h nonce r s
  | .quoteGo => Sys2Proof.Machine.execQuoteGo s
  | .quoteReady => Sys2Proof.Machine.execQuoteReady s
  | .secQuoteData => Sys2Proof.Machine.execSecQuoteData s
  | .identityRead h r => Sys2Proof.Machine.execIdentityRead h r s
  | .auditRingSetup h b => Sys2Proof.Machine.execAuditRingSetup h b s
  | .auditRingPoll tenant consumed => Sys2Proof.Machine.execAuditRingPoll tenant consumed s
  | .auditIntervalEnd => Sys2Proof.Machine.execAuditIntervalEnd s
  | .auditRootSigned => Sys2Proof.Machine.execAuditRootSigned s
  | .auditRootRead h sq r => Sys2Proof.Machine.execAuditRootRead h sq r s
  | .secAudClearCounts => Sys2Proof.Machine.execSecAudClearCounts s
  | .cellFence tile cell cause => Sys2Proof.Machine.execCellFence tile cell cause s
  | .stepWatchdog tile cell => Sys2Proof.Machine.execStepWatchdog tile cell s
  | .tileFence tile cause => Sys2Proof.Machine.execTileFence tile cause s
  | .salvageComplete tile => Sys2Proof.Machine.execSalvageComplete tile s
  | .salvageTimeout tile => Sys2Proof.Machine.execSalvageTimeout tile s
  | .coreWatchdog n => Sys2Proof.Machine.execCoreWatchdog n s
  | .regionFence r cause => Sys2Proof.Machine.execRegionFence r cause s
  | .leaveService cause sound => Sys2Proof.Machine.execLeaveService cause sound s
  | .errArm => Sys2Proof.Machine.execErrArm s
  | .armExpired => Sys2Proof.Machine.execArmExpired s
  | .errClearCounts acc => Sys2Proof.Machine.execErrClearCounts acc s
  | .injectCorrectable ueUnit => Sys2Proof.Machine.execInjectCorrectable ueUnit s
  | .injectUncorrectable ueUnit => Sys2Proof.Machine.execInjectUncorrectable ueUnit s
  | .injectCellFault ueUnit => Sys2Proof.Machine.execInjectCellFault ueUnit s
  | .injectTileFault ueUnit => Sys2Proof.Machine.execInjectTileFault ueUnit s
  | .injectT1Read ueUnit area => Sys2Proof.Machine.execInjectT1Read ueUnit area s
  | .injectT2Read ueUnit => Sys2Proof.Machine.execInjectT2Read ueUnit s
  | .injectFlitCrc ueUnit => Sys2Proof.Machine.execInjectFlitCrc ueUnit s
  | .injectRegionFault ueUnit => Sys2Proof.Machine.execInjectRegionFault ueUnit s
  | .vinAuxUp mv => Sys2Proof.Machine.execVinAuxUp mv s
  | .vinStart => Sys2Proof.Machine.execVinStart s
  | .vinOutOfRange mv => Sys2Proof.Machine.execVinOutOfRange mv s
  | .vinStop mv => Sys2Proof.Machine.execVinStop mv s
  | .railPowerGood rail => Sys2Proof.Machine.execRailPowerGood rail s
  | .railTimeout rail => Sys2Proof.Machine.execRailTimeout rail s
  | .rootPllUnlock refLost => Sys2Proof.Machine.execRootPllUnlock refLost s
  | .bootStageEnd fails chipFail => Sys2Proof.Machine.execBootStageEnd fails chipFail s
  | .pwrReset => Sys2Proof.Machine.execPwrReset s
  | .gotoStandby => Sys2Proof.Machine.execGotoStandby s
  | .standbyQuiesced => Sys2Proof.Machine.execStandbyQuiesced s
  | .standbyQuiesceTimeout => Sys2Proof.Machine.execStandbyQuiesceTimeout s
  | .gotoOn => Sys2Proof.Machine.execGotoOn s
  | .resumeComplete => Sys2Proof.Machine.execResumeComplete s
  | .gotoOff => Sys2Proof.Machine.execGotoOff s
  | .clearPeak => Sys2Proof.Machine.execClearPeak s
  | .idleEntry => Sys2Proof.Machine.execIdleEntry s
  | .idleExit => Sys2Proof.Machine.execIdleExit s
  | .throttleChange up cause maxC hot watts => Sys2Proof.Machine.execThrottleChange up cause maxC hot watts s
  | .thermalTrip hot => Sys2Proof.Machine.execThermalTrip hot s
  | .pwrNorData val => Sys2Proof.Machine.execPwrNorData val s
  | .eraseFw => Sys2Proof.Machine.execEraseFw s
  | .norOpComplete ok => Sys2Proof.Machine.execNorOpComplete ok s
  | .osfpInsert inserted watts => Sys2Proof.Machine.execOsfpInsert inserted watts s
  | .cablePresentChange link present => Sys2Proof.Machine.execCablePresentChange link present s
  | .limTermSel acc val => Sys2Proof.Machine.execLimTermSel acc val s
  | .limClearHist acc => Sys2Proof.Machine.execLimClearHist acc s
  | .clearPeaks acc => Sys2Proof.Machine.execClearPeaks acc s
  | .qpLinkDownTimeout => Sys2Proof.Machine.execQpLinkDownTimeout s
  | .cobblerLeaseExpiry job => Sys2Proof.Machine.execCobblerLeaseExpiry job s
  | .vinAuxDown => Sys2Proof.Machine.execVinAuxDown s
  | .vinExcursion => Sys2Proof.Machine.execVinExcursion s
  | .i3cVrefChange present => Sys2Proof.Machine.execI3cVrefChange present s
  | .roceAck qp n => Sys2Proof.Machine.execRoceAck qp n s

end Sys2Proof.Machine
end

