-- ==== Sys2Proof/Machine/Tick.lean ====
section
/-!
DEFINITION. Sys2Proof/Machine/Tick.lean: one 10 ns tick of the free-running timer (R452) and the slew of module time
that it carries (R266), and what goes on beside it without a command.
-/
namespace Sys2Proof.Machine
open Sys2Proof

/-- One timer tick: the count rises by one and module time by 10 ns, moved by at most 5 ps toward the slew that is
still to be made (500 parts per million, R266). -/
def Clock.tick (c : Clock) : Clock :=
  let d : Int := max (-5) (min 5 c.slewPs)
  { c with ticks := c.ticks + 1, nowPs := (Int.ofNat (c.nowPs + 10000) + d).toNat, slewPs := c.slewPs - d }

/-- The clock's part of what passes when no command waits. -/
def tick (s : State) : State := { s with clk := s.clk.tick }

/-- What passes when no command waits: one timer tick, the first frame that the module has sent to itself is delivered (log entry
141), and the channel engines go on (log entry 161). -/
def idle (s : State) : State := after s (engines (deliverHere (tick s)))

end Sys2Proof.Machine
end

