-- ==== Sys2Proof/Safety.lean ====
section
/-!
DEFINITION. Sys2Proof/Safety.lean: what counts as a good state of the block, and the conditions on the state and the
operands under which a command's own effect follows.
-/
namespace Sys2Proof
open Sys2Proof.Machine

/-- Blocks under numbers are listed once each, in rising order. -/
def Rising {α : Type} (l : List (Nat × α)) : Prop := l.Pairwise fun p q => p.1 < q.1

/-- Every memory of the block keeps its canonical form: T0 banks, T1, the blocks of T2, the image stage buffer, the NOR and the
MAP_REQ buffers. -/
def MemoriesWf (s : State) : Prop :=
  Rising s.mem.t2 ∧ (∀ p ∈ s.accs, Memory.wf Config.ramDefault p.2.reqBuf = true) ∧
  Memory.wf Config.ramDefault s.mem.t0 = true ∧ Memory.wf Config.ramDefault s.mem.t1 = true ∧
  Memory.wf Config.ramDefault s.img.buf = true ∧ Memory.wf Config.norDefault s.pwr.nor = true

/-- The peaks of R482 cover the present counts: each limit's mark is at least the present count, or the mark's width full. -/
def PeaksCover (s : State) : Prop :=
  ∀ i, i < 32 → min (limitNow s i) (2 ^ 24 - 1) ≤ findD i s.lim.peaks 0

/-- A write of port `acc` at offset `off` reaches the register: the owner while its port is on its bus and the boot stage does
not hold the write back (R487); a tenant's queue pair as R8 and the register's row grant it; the core where its row does and its region serves (R15). -/
def opens (acc : Port) (off : Nat) (s : State) : Bool :=
  match acc, regRow? off with
  | .owner, _ => onBus s && !(bootLimits s && !bootWritable off)
  | .host qp, some r => hostMayWrite s qp r
  | .core n, some r => r.core && coreServes s n
  | _, none => false

/-- The checkpoint commands are open, or the tack is not one of them (R461). -/
def ckpOpen (b : TackBody) (s : State) : Bool :=
  !(decide (0x40 ≤ opcodeOf b) && decide (opcodeOf b ≤ 0x47) && !bit s.regs.pwrEnable.toNat 1)

/-- A session tack is served by this module (R354, check 7 of R253); every other tack is. -/
def servedHere (h : TackHdr) (b : TackBody) (s : State) : Bool :=
  !sessionOp (opcodeOf b) || decide (routeIn s (jobOfQp s h.qp) h.mapEpoch h.handle h.fwd.isSome = .here)

/-- A tack passes every check that stands before its own (R253): when it arrived, the bindings of its arrival, and the state in which
its own checks begin; `none` where it is refused, waits, or goes to another node. -/
def servedB (h : TackHdr) (b : TackBody) (s : State) : Option (Nat × Bind × State) :=
  match takeTack h b s with
  | .done _ => none
  | .taken t d u =>
    if (rightsRefuse d h b u).isNone && servedHere h b u && ckpOpen b u then some (t, d, u) else none

/-- The same, for a tack whose own checks ask nothing of the bindings. -/
def served (h : TackHdr) (b : TackBody) (s : State) : Option (Nat × State) := (servedB h b s).map fun x => (x.1, x.2.2)

/-- A CONFIRM or RESOLVE passes every check that stands before its own, and waits for no map epoch: the state in which its
own checks begin. -/
def settles (h : TackHdr) (b : TackBody) (s : State) : Option State :=
  match takeTack h b s with
  | .done _ => none
  | .taken _ d u =>
    if (rightsRefuse d h b u).isNone && !(decide (h.mapEpoch > epochOfQp u h.qp) && (jobOfQp u h.qp).isSome) then some u
    else none

/-- A tack names a session that this module holds and that is not ASH: its index and the session. -/
def names (h : TackHdr) (idx : Nat) (x : Sess) (s : State) : Prop :=
  byHandle? s h.handle = some (idx, x) ∧ x.e.state ≠ .ash

/-- The state in which a request that is next in its stream is applied at its home: its flits' credits owed, the results it
acknowledges freed, NEXT_SEQ advanced (R321). -/
def homeState (l : Nat) (r : Request) (s : State) : State :=
  let u := freeOnce r (owe l (.req r) s)
  let x := homeStream u r.hdr.src r.stream
  setHome r.hdr.src r.stream { x with next := (x.next + 1) % 2 ^ 32 } u

/-- A LOAD, STORE or atomic is for this node, next in its stream, and reaches T1 address `t`: no request of the stream waits, an
atomic finds room for its result, nothing refuses it, and an image is active (R320, R321, R326). -/
def appliesAt (l : Nat) (r : Request) (t : Nat) (s : State) : Prop :=
  let u := owe l (.req r) s
  let x := homeStream u r.hdr.src r.stream
  let v := homeState l r s
  r.hdr.dest = selfNode s ∧ u.err.chipOut = false ∧ r.incarnation = x.incarnation ∧ r.seq = x.next % 2 ^ 32 ∧
  (u.wlt.buffer.any fun b => b.2.2.hdr.src = r.hdr.src && b.2.2.stream = r.stream) = false ∧
  (atomicOp r.op = true → (freeOnce r u).wlt.once.length < onceMax) ∧ x.lost = false ∧
  jobServed v r.hdr.job = true ∧ homeAddr v r = .inl t ∧ v.err.regions.contains (t1Map v t).1 = false ∧
  imageOn s = true

/-- Whether the unit that a command names exists on the module. -/
def hasUnit : Instr → Bool
  | .contextLoad _ x | .contextUnload _ x | .contextLoadComplete x | .weightsInPlace x | .contextTeardownComplete x => x < 4
  | .cellFence t x _ | .stepWatchdog t x => t < 48 && x < 74
  | .tileFence t _ | .salvageComplete t | .salvageTimeout t | .kvSpill t | .pageSpillComplete _ _ t | .pageBringBack t |
    .sessionSpillT1 t | .thermalTrip t => t < 48
  | .coreWatchdog r | .regionFence r _ | .lineUnitAccept r => r < 8
  | .egressFrame p | .gateEntry p => p < 33
  | .arbiterGrant a _ _ => arbExists a
  | .bankHandoverDone k => k < 3072
  | .ueT1 a _ => a < 0x18000000000
  | .ueT2 ch _ | .coordinatorAdmit ch | .forwardedWork ch | .batchClose ch _ _ => ch < 32
  | .blockRetire ch b => ch < 32 && b < chanBlocks
  | .railPowerGood r | .railTimeout r => 1 ≤ r && r ≤ 5
  | .flitAckTimeout l | .flit l _ | .nodeState l _ _ | .cablePresentChange l _ | .laneLock l _ | .signalTimeout l | .alignDone l |
    .alignTimeout l | .paramTimeout l | .trainSend l | .key l _ | .train l _ | .keyConfirmTimeout l | .rekeyStart l |
    .rekeyDeadline l | .fecSecond l _ _ | .retrainTimer l | .forwardFrame l _ | .load l _ | .store l _ |
    .fadd l _ | .swap l _ | .cas l _ | .fand l _ | .forOp l _ | .fxor l _ => l < 32
  | .laneLockLoss k => k.link < 32
  | _ => true

end Sys2Proof
end

