-- ==== Sys2Proof/WellFormed.lean ====
section
/-!
DEFINITION. Sys2Proof/WellFormed.lean: the operands a command can carry: every number fits the field that the spec
gives it, and every unit number names a unit of the part. A command that is not well formed cannot reach the part.
-/
namespace Sys2Proof

/-- An accessor that exists: queue pairs 0 to 16,383 (R244), control cores 0 to 7 (R15). -/
def Port.wf : Port → Bool
  | .owner => true
  | .host qp => qp < 16384
  | .core n => n < 8

/-- An arbiter that exists (R17): tiles 0 to 47, regions 0 to 7, the cells and ports of a tile. -/
def Arbiter.wf : Arbiter → Bool
  | .cell t c => t < 48 && c < 74
  | .block t => t < 48
  | .region r => r < 8
  | .chip => true

/-- An access to a bank word that exists (R180): 3,072 banks of 524,288 words of 64 bytes; a write carries a mask and its bytes. -/
def BankAccess.wf (a : BankAccess) : Bool :=
  a.bank < 3072 && a.word < 524288 && a.mask < 2 ^ 64 && (if a.write then a.data.length == 64 else a.data.isEmpty)

/-- A data reference's fields fit (R251). -/
def DataRef.wf (r : DataRef) : Bool := r.addr < 2 ^ 64 && r.len < 2 ^ 64 && r.rkey < 2 ^ 32

/-- A payload's fields fit (R249); no message carries more than 65,536 bytes. -/
def Payload.wf : Payload → Bool
  | .inline b => b.length ≤ 65536
  | .ref r => r.wf

/-- The tack header's fields fit (R249). A tack on the wire carries no forwarder. -/
def TackHdr.wf (h : TackHdr) : Bool :=
  h.qp < 16384 && h.version < 256 && h.flags < 65536 && h.length < 2 ^ 32 && h.mapEpoch < 2 ^ 64 && h.dscp < 64 && h.fwd.isNone

/-- OPEN's fields fit (R254). -/
def OpenBody.wf (b : OpenBody) : Bool :=
  b.ctx < 4 && b.cls < 4 && b.flags < 4 && b.budget < 2 ^ 32 && b.adapterId < 65536 && b.seedKey.length == 16

/-- TURN's fields fit (R255). -/
def TurnBody.wf (b : TurnBody) : Bool :=
  b.cls < 8 && b.stopCount < 256 && b.maxTokens < 65536 && b.inputCount < 2 ^ 32 && b.deadline < 2 ^ 64 && b.samp.topK < 65536 &&
  b.stops.length == min b.stopCount 8 && b.stops.all (· < 2 ^ 32) && b.input.wf

/-- CKP_REPLAY's fields fit (R389). -/
def ReplayBody.wf (b : ReplayBody) : Bool :=
  b.cls < 8 && b.flags < 4 && b.adapterVersion < 2 ^ 32 && b.expectLength < 2 ^ 32 && b.count < 2 ^ 32 && b.firstSample < 2 ^ 32 &&
  b.expectLast < 2 ^ 32 && b.samp.topK < 65536 && b.expectTurnSeq < 2 ^ 64 && b.input.wf

/-- VEC_INSERT's fields fit (R257). -/
def VecInsertBody.wf (b : VecInsertBody) : Bool := b.indexId < 65536 && b.cls < 256 && b.data.length ≤ 65536

/-- RING_SETUP's and AUDIT_RING_SETUP's fields fit (R260, R415). -/
def RingBody.wf (b : RingBody) : Bool :=
  b.kind < 256 && b.log2Slots < 256 && b.rkey < 2 ^ 32 && b.addr < 2 ^ 64 && b.consumerAddr < 2 ^ 64 && b.producerAddr < 2 ^ 64

/-- A frame header's fields fit (R310). -/
def FrameHdr.wf (h : FrameHdr) : Bool :=
  h.cls < 256 && h.dest < 4096 && h.src < 4096 && h.job < 65536 && h.hops < 256 && h.route < 16 && h.path < 65536

/-- A request's fields fit (R320): a STORE carries a mask and a line, a MESSAGE 8 to 4,096 bytes in eights, an atomic its operands,
any other operation no body. -/
def Request.wf (r : Request) : Bool :=
  r.hdr.wf && r.op < 256 && r.stream < 256 && r.tag < 65536 && r.seq < 2 ^ 32 && r.addr < 2 ^ 64 && r.ackThrough < 2 ^ 32 &&
  r.incarnation < 2 ^ 32 && r.msgKind < 65536 && r.mask < 2 ^ 128 && (r.op == 2 || r.mask == 0) &&
  (if r.op == 2 then r.data.length == 128
   else if r.op == 3 then 8 ≤ r.data.length && r.data.length ≤ 4096 && r.data.length % 8 == 0
   else r.data.isEmpty) &&
  ((0x10 ≤ r.op && r.op ≤ 0x15) || (r.a == 0 && r.b == 0))

/-- A response's fields fit (R320). -/
def Response.wf (r : Response) : Bool :=
  r.hdr.wf && r.op < 256 && r.stream < 256 && r.tag < 65536 && r.seq < 2 ^ 32 && r.status < 256 && r.nextSeq < 2 ^ 32 &&
  r.data.length ≤ 128 && r.data.length % 8 == 0

/-- TRAIN's fields fit (R307). -/
def TrainMsg.wf (t : TrainMsg) : Bool :=
  1 ≤ t.versions.length && t.versions.length ≤ 4 && t.versions.all (· < 256) && t.laneMask < 16 && t.node < 4096 &&
  t.coords.length == 4 && t.coords.all (· < 256) && t.link < 256 && t.direction < 256 && t.flags < 256 && t.kind < 256 &&
  t.seedCheck < 2 ^ 32 && t.dims.length == 4 && t.dims.all (· < 256) && t.incarnation < 2 ^ 32

/-- KEY's fields fit (R408). -/
def KeyMsg.wf (k : KeyMsg) : Bool := k.step < 256 && k.keySeq < 2 ^ 32 && k.nonce.length == 32 && k.tag.length == 16

/-- A frame's fields fit. -/
def Frame.wf : Frame → Bool
  | .req r => r.wf
  | .rsp r => r.wf
  | .train h t => h.wf && t.wf
  | .key h k => h.wf && k.wf
  | .nodeState h node sq => h.wf && node < 4096 && sq < 2 ^ 32

/-- A lace header's fields fit (R346). -/
def LaceHdr.wf (h : LaceHdr) : Bool :=
  h.job < 65536 && h.term < 2 ^ 32 && h.epoch < 2 ^ 64 && h.sender < 4096 && h.part < 65536 && h.parts < 65536 && h.mapId.length == 8

/-- A location record's fields fit (R353). -/
def LocRec.wf (r : LocRec) : Bool := r.owner < 4096 && r.epoch < 2 ^ 64

/-- A session table entry's fields fit (R54). -/
def Entry.wf (e : Entry) : Bool :=
  e.ctx < 4 && e.cls < 4 && e.turnCls < 4 && e.place < 4 && e.index < 2 ^ 21 && e.lane < 65536 && e.adapterId < 65536 &&
  e.adapterVersion < 2 ^ 32 && e.tenant < 65536 && e.length < 2 ^ 32 && e.retained < 2 ^ 32 && e.budget < 2 ^ 32 && e.ptRoot < 2 ^ 64 &&
  e.stateAddr < 2 ^ 64 && e.deadline < 2 ^ 64 && e.ownerEpoch < 2 ^ 64 && e.mapEpoch < 2 ^ 64 && e.kindleAt < 2 ^ 64 &&
  e.seedKey.length == 16 && e.turnSeq < 2 ^ 64 && e.lastUse < 2 ^ 64 && e.auditHead.length == 32 && e.auditCount < 2 ^ 64 &&
  e.forwardNode < 4096 && e.created < 2 ^ 64

/-- A claim answer's fields fit (R66). -/
def ClaimAns.wf (a : ClaimAns) : Bool :=
  a.node < 4096 && a.epoch < 2 ^ 64 && a.count < 2 ^ 64 && a.head.length == 32 && a.forward < 4096

/-- A result record's fields fit (R262). -/
def ResultRec.wf (r : ResultRec) : Bool :=
  r.kind < 256 && r.status < 256 && r.opcode < 256 && r.flags < 256 && r.wordA < 2 ^ 64 && r.wordB < 2 ^ 64 && r.wordC < 2 ^ 64 &&
  r.time < 2 ^ 64

/-- The owner of a T1 address names a unit that exists. -/
def T1Area.wf : T1Area → Bool
  | .mirrored | .unused => true
  | .session idx | .pool idx => idx < 2 ^ 21
  | .weightSource c => c < 4
  | .adapter c id ver => c < 4 && id < 65536 && ver < 2 ^ 32
  | .once node stream => node < 4096 && stream < 256
  | .auditLog t => t < 65536
  | .vecTable i => i < 65536

/-- A tack body's fields fit (R252). -/
def TackBody.wf : TackBody → Bool
  | .openSes b => b.wf
  | .turn b => b.wf
  | .park tier => tier < 256
  | .kindle eta => eta < 2 ^ 32
  | .move node | .confirm node | .resolve node => node < 4096
  | .wake | .pin | .unpin | .close | .stageBegin | .nop => true
  | .stageData off p => off < 2 ^ 32 && p.wf
  | .stageEnd len => len < 2 ^ 32
  | .adapterLoad r => r.wf
  | .adapterDrop c id => c < 256 && id < 65536
  | .weightsStage c r => c < 256 && r.wf
  | .vecCreate p => p.wf
  | .vecDrop id => id < 65536
  | .vecInsert b => b.wf
  | .vecDelete id cls slot gen => id < 65536 && cls < 256 && slot < 2 ^ 32 && gen < 2 ^ 24
  | .vecQuery r q => r.wf && q.length ≤ 65536
  | .regRead off => off < 2 ^ 24
  | .regWrite off _ => off < 2 ^ 24
  | .ringSetup b | .auditRingSetup b => b.wf
  | .ckpStore job kind flags node r => job < 65536 && kind < 256 && flags < 256 && node < 4096 && r.wf
  | .ckpBegin job members pool flags step base =>
    job < 65536 && members < 65536 && pool < 65536 && flags < 256 && step < 2 ^ 64 && base < 2 ^ 64
  | .ckpCommit job step sig => job < 65536 && step < 2 ^ 64 && sig.length == 16224
  | .ckpAbort job step => job < 65536 && step < 2 ^ 64
  | .ckpRestore job which flags lo hi r => job < 65536 && which < 256 && flags < 256 && lo < 65536 && hi < 65536 && r.wf
  | .ckpReplay b => b.wf
  | .ckpCollect job => job < 65536
  | .quote nonce r => nonce.length == 32 && r.wf
  | .auditRootRead sq r => sq < 2 ^ 64 && r.wf
  | .identityRead r => r.wf

/-- The packets of a SEND. -/
def Packets.wf (p : Packets) : Bool := p.dscps.length ≤ 64 && p.dscps.all (· < 64)

/-- A traffic class of 8 bits, a flow label of 20. -/
def IpFlow.wf (f : IpFlow) : Bool := f.cls < 256 && f.flow < 2 ^ 20

/-- A PTP header. -/
def PtpHdr.wf (h : PtpHdr) : Bool := h.sq < 65536 && h.dom < 256 && h.tr < 3

/-- An announced master. -/
def PtpMaster.wf (m : PtpMaster) : Bool := m.src < 2 ^ 80 && m.prio < 2 ^ 64

/-- The well-formed commands. -/
def Instr.wf : Instr → Bool
  | .registerWrite acc off _ => acc.wf && off < 2 ^ 24
  | .eventRingDrain tenant consumed => tenant < 65536 && consumed < 2 ^ 64
  | .arbiterGrant arb _ accs => arb.wf && accs.all BankAccess.wf
  | .ownerStageBegin => true
  | .ownerStageEnd len => len < 2 ^ 32
  | .secImgStageData _ => true
  | .stageLockTimeout => true
  | .activate _ _ _ drainMs => drainMs < 65536
  | .sealImage => true
  | .abortStage => true
  | .imageCheckDone => true
  | .drainTimeout => true
  | .imagePersistComplete _ => true
  | .openTack h b => h.wf && b.wf
  | .turn h b => h.wf && b.wf
  | .park h tier => h.wf && tier < 256
  | .wake h => h.wf
  | .kindle h etaUs => h.wf && etaUs < 2 ^ 32
  | .pin h => h.wf
  | .unpin h => h.wf
  | .moveTack h dest => h.wf && dest < 4096
  | .closeTack h => h.wf
  | .confirm h node => h.wf && node < 4096
  | .resolve h node => h.wf && node < 4096
  | .bankingComplete idx => idx < 2 ^ 21
  | .bankingWriteFail idx => idx < 2 ^ 21
  | .wakeStart => true
  | .wakeComplete idx => idx < 2 ^ 21
  | .wakeFailed idx => idx < 2 ^ 21
  | .copyToT0Complete idx => idx < 2 ^ 21
  | .kindleAtReached idx => idx < 2 ^ 21
  | .kindleHoldExpired idx => idx < 2 ^ 21
  | .pressureRule => true
  | .moveOffer src job e => src < 4096 && job < 65536 && e.wf
  | .moveStorageReceived _ _ => true
  | .moveAck _ epoch => epoch < 2 ^ 64
  | .moveRelease _ => true
  | .moveTimeout _ => true
  | .moveQuery src job _ => src < 4096 && job < 65536
  | .moveQueryAnswer _ _ => true
  | .moveQueryTimeout _ => true
  | .moveCancel _ => true
  | .moveReleaseTimeout _ => true
  | .suspectReport src job _ => src < 4096 && job < 65536
  | .claimQuery home job _ => home < 4096 && job < 65536
  | .claimAnswer _ ans => ans.wf
  | .claimCollectionEnd _ => true
  | .disputeSettle _ winner epoch => winner < 4096 && epoch < 2 ^ 64
  | .storageReclaimed idx => idx < 2 ^ 21
  | .moveKeepExpired idx => idx < 2 ^ 21
  | .sesInspectIndex acc _ => acc.wf
  | .stepBoundary => true
  | .emptyBoundary => true
  | .adapterLoad h r => h.wf && r.wf
  | .adapterLoadComplete ctx id => ctx < 4 && id < 65536
  | .adapterDrop h ctx id => h.wf && ctx < 256 && id < 65536
  | .contextLoad acc ctx => acc.wf && ctx < 4
  | .contextUnload acc ctx => acc.wf && ctx < 4
  | .contextLoadComplete ctx => ctx < 4
  | .weightsInPlace ctx => ctx < 4
  | .contextTeardownComplete ctx => ctx < 4
  | .stpClearMax => true
  | .ariClearCounts acc => acc.wf
  | .runKat acc => acc.wf
  | .katComplete fails => (fails.all fun f => f.1 < 48 && f.2.1 < 74 && f.2.2 < 32)
  | .kvSpill tile => tile < 48
  | .pageSpillComplete idx v tile => idx < 2 ^ 21 && v < 65536 && tile < 48
  | .pageBringBack tile => tile < 48
  | .longRowSpill idx => idx < 2 ^ 21
  | .atnClearCounts acc => acc.wf
  | .labFlush acc => acc.wf
  | .t1AllocGrant => true
  | .allocWait => true
  | .sessionSpillT1 tile => tile < 48
  | .sessionSpillT1Complete idx => idx < 2 ^ 21
  | .objCreate acc kind tier region size => acc.wf && kind < 8 && tier < 4 && region < 16 && size < 2 ^ 32
  | .objMove acc obj tier => acc.wf && obj < 2 ^ 20 && tier < 4
  | .objPin acc obj => acc.wf && obj < 2 ^ 20
  | .objUnpin acc obj => acc.wf && obj < 2 ^ 20
  | .objFree acc obj => acc.wf && obj < 2 ^ 20
  | .objTransferDone obj => obj < 2 ^ 20
  | .bankHandover acc _ => acc.wf
  | .bankHandoverDone bank => bank < 3072
  | .scrubPeriodEnd => true
  | .scrubNow acc => acc.wf
  | .memClearCounts acc => acc.wf
  | .ueT1 addr area => addr < 2 ^ 48 && area.wf
  | .ueT2 ch block => ch < 32 && block < 2 ^ 48
  | .blockRetire ch block => ch < 32 && block < 2 ^ 48
  | .vecCreate h p => h.wf && p.wf
  | .vecDrop h id => h.wf && id < 65536
  | .vecInsert h b => h.wf && b.wf
  | .vecDelete h id cls slot gen => h.wf && id < 65536 && cls < 256 && slot < 2 ^ 32 && gen < 2 ^ 24
  | .vecQuery h r q => h.wf && r.wf && q.length ≤ 65536
  | .coordinatorAdmit ch => ch < 32
  | .forwardedWork ch => ch < 32
  | .vecQueryComplete idx qseq => idx < 65536 && qseq < 2 ^ 64
  | .batchClose ch idx list => ch < 32 && idx < 65536 && list < 65536
  | .tailFlush idx list => idx < 65536 && list < 65536
  | .updateDurable idx useq => idx < 65536 && useq < 2 ^ 64
  | .horizonAdvance => true
  | .repairStart => true
  | .vectorPass idx => idx < 65536
  | .vecRepairNow acc => acc.wf
  | .vecClearCounts acc => acc.wf
  | .hostLinkUp => true
  | .hostLinkDown => true
  | .sendMessage qp msg pkts _ => qp < 16384 && msg.length ≤ 65536 && pkts.wf
  | .peerRdmaRequest qp kind => qp < 16384 && kind < 256
  | .pfcFrame prios quanta => prios < 256 && quanta < 65536
  | .cnp qp => qp < 16384
  | .rateRecovery qp => qp < 16384
  | .ackTimeout qp => qp < 16384
  | .rdmaNak qp => qp < 16384
  | .fetchComplete qp _ _ => qp < 16384
  | .cmReq priv remote ip => priv.length ≤ 92 && remote < 2 ^ 24 && ip.wf
  | .cmRtu qp => qp < 16384
  | .cmDreq qp => qp < 16384
  | .cmDrep qp => qp < 16384
  | .connectTimeout qp => qp < 16384
  | .qpErrorTimeout qp => qp < 16384
  | .stageBegin h => h.wf
  | .stageData h off p => h.wf && off < 2 ^ 32 && p.wf
  | .stageEnd h len => h.wf && len < 2 ^ 32
  | .weightsStage h ctx r => h.wf && ctx < 256 && r.wf
  | .regRead h off => h.wf && off < 2 ^ 24
  | .regWrite h off _ => h.wf && off < 2 ^ 24
  | .ringSetup h b => h.wf && b.wf
  | .nop h => h.wf
  | .ringConsumerRead qp kind count => qp < 16384 && kind < 3 && count < 2 ^ 64
  | .egressFrame port => port < 33
  | .gateEntry port => port < 33
  | .ptpSync hdr _ rx src => hdr.wf && rx < 2 ^ 64 && src < 2 ^ 80
  | .ptpFollowUp hdr origin => hdr.wf && origin < 2 ^ 64
  | .ptpDelayResp hdr rx => hdr.wf && rx < 2 ^ 64
  | .ptpAnnounce hdr master => hdr.wf && master.wf
  | .ptpDelayReq => true
  | .ptpHoldover => true
  | .hostTxEnable _ => true
  | .hstClearCounts => true
  | .histSample => true
  | .shpClearCounts acc => acc.wf
  | .clearHist acc => acc.wf
  | .shpHistSel acc _ => acc.wf
  | .wltEnable _ => true
  | .laneLock link mask => link < 32 && mask < 16
  | .signalTimeout link => link < 32
  | .alignDone link => link < 32
  | .alignTimeout link => link < 32
  | .trainSend link => link < 32
  | .train link t => link < 32 && t.wf
  | .paramTimeout link => link < 32
  | .key link k => link < 32 && k.wf
  | .keyConfirmTimeout link => link < 32
  | .rekeyStart link => link < 32
  | .rekeyDeadline link => link < 32
  | .laneLockLoss loss => loss.link < 32
  | .fecSecond link corrected uncorrected => link < 32 && corrected < 2 ^ 64 && uncorrected < 2 ^ 64
  | .retrainTimer link => link < 32
  | .flit link raw => link < 32 && raw.length == 512
  | .flitAckTimeout link => link < 32
  | .forwardFrame link f => link < 32 && f.wf
  | .load link r => link < 32 && r.wf
  | .store link r => link < 32 && r.wf
  | .fadd link r => link < 32 && r.wf
  | .swap link r => link < 32 && r.wf
  | .cas link r => link < 32 && r.wf
  | .fand link r => link < 32 && r.wf
  | .forOp link r => link < 32 && r.wf
  | .fxor link r => link < 32 && r.wf
  | .lineUnitAccept region => region < 8
  | .fabricResponse r => r.wf
  | .respTimeout tag => tag < 65536
  | .targetDead tag => tag < 65536
  | .onceResultExpire node stream sq => node < 4096 && stream < 256 && sq < 2 ^ 32
  | .nodeState link node sq => link < 32 && node < 4096 && sq < 2 ^ 32
  | .wltClearCounts acc => acc.wf
  | .wltRetrain acc => acc.wf
  | .propose l part => l.wf && part.length ≤ 4064
  | .accept l => l.wf
  | .refuse l reason => l.wf && reason < 256
  | .commit l => l.wf
  | .heartbeatTimer job => job < 65536
  | .heartbeat l => l.wf
  | .heartbeatAck l => l.wf
  | .electionTimeout job => job < 65536
  | .voteRequest l => l.wf
  | .vote l _ => l.wf
  | .candidateTimeout job => job < 65536
  | .syncRequest l => l.wf
  | .sync l part => l.wf && part.length ≤ 4064
  | .report l kind node count => l.wf && kind < 256 && node < 4096 && count < 2 ^ 32
  | .teardown l hdr => l.wf && hdr.length ≤ 4064
  | .location l recs => l.wf && (recs.length ≤ 127 && recs.all LocRec.wf)
  | .compose l req => l.wf && req.length ≤ 4064
  | .memberSilent job node => job < 65536 && node < 4096
  | .recomposePropose job => job < 65536
  | .formTimeout job => job < 65536
  | .proposalTimeout job => job < 65536
  | .drainWindowEnd job => job < 65536
  | .forwardedTack src job h b => src < 4096 && job < 65536 && h.wf && b.wf
  | .forwardedRecord src qp r => src < 4096 && qp < 16384 && r.wf
  | .catchUpTimeout qp _ => qp < 16384
  | .mapReqData acc _ => acc.wf
  | .mapReqSubmit acc _ => acc.wf
  | .mapClearCounts => true
  | .syncNow => true
  | .ckpStore h job kind flags node r => h.wf && job < 65536 && kind < 256 && flags < 256 && node < 4096 && r.wf
  | .ckpBegin h job members pool flags step base => 
    h.wf && job < 65536 && members < 65536 && pool < 65536 && flags < 256 && step < 2 ^ 64 && base < 2 ^ 64
  | .claimPoll => true
  | .checkpointWriteDone _ => true
  | .checkpointAllDone => true
  | .ckpCommit h job step sig => h.wf && job < 65536 && step < 2 ^ 64 && sig.length == 16224
  | .ckpAbort h job step => h.wf && job < 65536 && step < 2 ^ 64
  | .signWaitTimeout => true
  | .ckpRestore h job which flags slotLo slotHi r => 
    h.wf && job < 65536 && which < 256 && flags < 256 && slotLo < 65536 && slotHi < 65536 && r.wf
  | .restoreComplete => true
  | .ckpReplay h b => h.wf && b.wf
  | .ckpCollect h job => h.wf && job < 65536
  | .collectComplete => true
  | .replayHoldExpired => true
  | .ckpClearCounts acc => acc.wf
  | .ckpCtrlAbort acc => acc.wf
  | .releaseReplay acc => acc.wf
  | .ownerSelect off => off < 2 ^ 24
  | .ownerWrite off _ => off < 2 ^ 24
  | .ownerWriteBurst off _ => off < 2 ^ 24
  | .ownerRead groups => groups < 2 ^ 64
  | .entdaa addr => addr < 128
  | .rstdaa => true
  | .enec => true
  | .disec => true
  | .getpid => true
  | .getbcr => true
  | .getdcr => true
  | .getstatus => true
  | .getmwl => true
  | .getmrl => true
  | .secKeyData _ => true
  | .enrol slot => slot < 4
  | .remove slot => slot < 4
  | .setSecret slot => slot < 4
  | .clearAll slot => slot < 4
  | .keyCmdComplete _ => true
  | .quote h nonce r => h.wf && nonce.length == 32 && r.wf
  | .quoteGo => true
  | .quoteReady => true
  | .secQuoteData => true
  | .identityRead h r => h.wf && r.wf
  | .auditRingSetup h b => h.wf && b.wf
  | .auditRingPoll tenant consumed => tenant < 65536 && consumed < 2 ^ 64
  | .auditIntervalEnd => true
  | .auditRootSigned => true
  | .auditRootRead h sq r => h.wf && sq < 2 ^ 64 && r.wf
  | .secAudClearCounts => true
  | .cellFence tile cell cause => tile < 48 && cell < 74 && cause < 16
  | .stepWatchdog tile cell => tile < 48 && cell < 74
  | .tileFence tile cause => tile < 48 && cause < 16
  | .salvageComplete tile => tile < 48
  | .salvageTimeout tile => tile < 48
  | .coreWatchdog n => n < 8
  | .regionFence r cause => r < 8 && cause < 16
  | .leaveService cause _ => cause < 16
  | .errArm => true
  | .armExpired => true
  | .errClearCounts acc => acc.wf
  | .injectCorrectable ueUnit => ueUnit < 2 ^ 32
  | .injectUncorrectable ueUnit => ueUnit < 2 ^ 32
  | .injectCellFault ueUnit => ueUnit < 2 ^ 32
  | .injectTileFault ueUnit => ueUnit < 2 ^ 32
  | .injectT1Read ueUnit area => ueUnit < 2 ^ 32 && area.wf
  | .injectT2Read ueUnit => ueUnit < 2 ^ 32
  | .injectFlitCrc ueUnit => ueUnit < 2 ^ 32
  | .injectRegionFault ueUnit => ueUnit < 2 ^ 32
  | .vinAuxUp mv => mv < 65536
  | .vinStart => true
  | .vinOutOfRange mv => mv < 65536
  | .vinStop mv => mv < 65536
  | .railPowerGood rail => 1 ≤ rail && rail ≤ 5
  | .railTimeout rail => 1 ≤ rail && rail ≤ 5
  | .rootPllUnlock _ => true
  | .bootStageEnd fails _ => (fails.all fun f => f.1 < 2 ^ 32 && f.2 < 32)
  | .pwrReset => true
  | .gotoStandby => true
  | .standbyQuiesced => true
  | .standbyQuiesceTimeout => true
  | .gotoOn => true
  | .resumeComplete => true
  | .gotoOff => true
  | .clearPeak => true
  | .idleEntry => true
  | .idleExit => true
  | .throttleChange _ cause maxC hot watts => 1 ≤ cause && cause ≤ 2 && maxC < 256 && hot < 48 && watts < 4096
  | .thermalTrip hot => hot < 48
  | .pwrNorData _ => true
  | .eraseFw => true
  | .norOpComplete _ => true
  | .osfpInsert _ watts => watts < 4096
  | .cablePresentChange link _ => link < 32
  | .limTermSel acc _ => acc.wf
  | .limClearHist acc => acc.wf
  | .clearPeaks acc => acc.wf
  | .qpLinkDownTimeout => true
  | .cobblerLeaseExpiry job => job < 65536
  | .vinAuxDown => true
  | .vinExcursion => true
  | .i3cVrefChange _ => true
  | .roceAck qp n => qp < 16384 && n < 2 ^ 64

end Sys2Proof
end

