-- ==== Sys2Proof/Certificates/Slice0/Obligations.lean ====
section
/-!
DEFINITION. Sys2Proof/Certificates/Slice0/Obligations.lean: the statements for the provers. A statement that a command completes
gives the state it leaves in full: `after s t` is `t` with the high-water marks of R482 brought up to date and the waiting commands
kept, so each of them is the command's frame as well. The word `served` is the passage of a tack through the checks that stand
before its own, `opens` that of a register write.
-/
open Sys2Proof Sys2Proof.Machine

/-- For every command c, every queue and every state: a step with c at the front of the queue is exec of c on the state whose
queue is the rest. That commands wait in a queue is the model's own form (log entry 2). (R253, R490; basis: derived.) -/
def Obligations.StepRunsFrontCommand : Prop :=
  ∀ (c : Instr) (rest : List Instr) (s : State), step { s with pending := c :: rest } = exec c { s with pending := rest }

/-- With an empty queue a step raises the timer count by one and module time by 10 ns moved by at most 5 ps toward the slew still
to be made. Then the first frame that the module has sent to itself is delivered and the channel engines go on; where no such
frame waits and no engine has work, nothing but the clock changes. That an idle step is a tick, and that these two go on at
it, is the model's choice (log entries 1, 141, 161). (R266, R452; basis: derived.) -/
def Obligations.IdleStepIsOneTick : Prop :=
  ∀ s : State, s.pending = [] →
    ∃ d : Int, -5 ≤ d ∧ d ≤ 5 ∧ (s.clk.slewPs = 0 → d = 0) ∧ (d ≠ 0 → (0 < d ↔ 0 < s.clk.slewPs)) ∧
      let t : State := { s with clk := { s.clk with
        ticks := s.clk.ticks + 1, nowPs := (Int.ofNat (s.clk.nowPs + 10000) + d).toNat, slewPs := s.clk.slewPs - d } }
      step s = .next (after s (engines (deliverHere t))) ∧
      (s.wlt.here = [] → s.vec.work = [] → step s = .next (after s t))

/-- A command that names a context of 0 to 3, a tile of 0 to 47 and a cell of 0 to 73, a region of 0 to 7, a link of 0 to 31, a
port of 0 to 32, a bank of 0 to 3,071, a channel of 0 to 31 and a block of it, a rail of 1 to 5, an arbiter that exists, a T1
address inside T1, answers a next state in every state. Any other number there answers the fault noSuchUnit. No command
answers a refusal. (R13, R14, R17, R244, R305; basis: derived.) -/
def Obligations.CommandsStopOnlyWithoutTheirUnit : Prop :=
  ∀ (c : Instr) (s : State),
    (hasUnit c = true → ∃ t, exec c s = .next t) ∧ (hasUnit c = false → exec c s = .fault .noSuchUnit)

/-- Where a command answers a next state, the queue of that state is the queue it was run with. The queue is the model's own (log
entry 2). (R253; basis: derived.) -/
def Obligations.CommandsKeepTheQueue : Prop :=
  ∀ (c : Instr) (s t : State), exec c s = .next t → t.pending = s.pending

/-- Where every peak of LIM_HWM is at least the present count of its limit, or full at 2^24 - 1, it is so after any step that
answers a next state: a command's, which may raise a count, or clear the peaks, and a tick's. (R482 has the marks keep the
largest value since reset or CLEAR_PEAKS.) (R481, R482; basis: derived.) -/
def Obligations.PeaksCoverTheCounts : Prop :=
  ∀ s t : State, PeaksCover s → step s = .next t → PeaksCover t

/-- The state after reset meets the invariant that every step keeps. (R481, R482; basis: derived.) -/
def Obligations.PeaksCoverAtReset : Prop :=
  PeaksCover State.reset

/-- T0, T1, T2, the image buffer and the SPI NOR list nothing, in the canonical form; no command waits; no session, queue pair,
job or region is there. (R456, R459; basis: derived.) -/
def Obligations.MemoriesWfAtReset : Prop :=
  MemoriesWf State.reset ∧ State.reset.pending = [] ∧ State.reset.mem.t0 = [] ∧ State.reset.mem.t1 = [] ∧ State.reset.mem.t2 = [] ∧ State.reset.img.buf = [] ∧
    State.reset.pwr.nor = [] ∧ State.reset.ses.table = [] ∧ State.reset.hst.qps = [] ∧ State.reset.map.jobs = [] ∧
    State.reset.ckp.regions = [] ∧ State.reset.regs = Regs.reset

/-- STORE and the atomics of the fabric, LOAD, the owner's image staging, storing an activated image, and the end of a NOR
operation, completed or failed, keep the canonical form of T0, T1, T2, the image buffer, the NOR and the MAP_REQ buffers, for
all operands and in every state that has it. (R40, R44, R320, R459, R475; basis: derived.) -/
def Obligations.MemoriesKeepTheirForm : Prop :=
  ∀ (s t : State), MemoriesWf s →
    (∀ l r, exec (.load l r) s = .next t ∨ exec (.store l r) s = .next t ∨ exec (.fadd l r) s = .next t ∨ exec (.swap l r) s = .next t ∨
      exec (.cas l r) s = .next t ∨ exec (.fand l r) s = .next t ∨ exec (.forOp l r) s = .next t ∨ exec (.fxor l r) s = .next t →
      MemoriesWf t) ∧
    (∀ val, exec (.secImgStageData val) s = .next t → MemoriesWf t) ∧
    (∀ ok, exec (.imagePersistComplete ok) s = .next t → MemoriesWf t) ∧
    (∀ ok, exec (.norOpComplete ok) s = .next t → MemoriesWf t)

/-- For every request, response, TRAIN, KEY and NODE_STATE frame whose fields fit, and a response that carries the data of its
operation and status (128 bytes for a LOAD that succeeded, 16 for an atomic, none otherwise): reading the frame's bytes gives
the frame. (R3, R307, R310, R320, R328, R408; basis: derived.) -/
def Obligations.FramesReadBackAsWritten : Prop :=
  ∀ f : Frame, f.wf = true → (∀ r, f = .rsp r → 32 + r.data.length = frameLen f) → readFrame (frameBytes f) = some f

/-- The bytes of a session's entry are 256, and reading them gives the entry with RETAINED counting the rows it keeps, for every
entry whose fields fit, in every state of the session. (R3, R54, R55; basis: derived.) -/
def Obligations.EntriesReadBackAsWritten : Prop :=
  ∀ x : Sess, x.e.wf = true → retained x.st.rows < 2 ^ 32 →
    (entryBytes x).length = 256 ∧ readEntry (entryBytes x) = { x.e with retained := retained x.st.rows }

/-- Through every accessor to whom the register is open: a write to a register of RW fields replaces the fields by the written
ones and leaves its reserved bits zero, and it then reads so; to a register with RWS fields the same before the seal
(VECTOR_PCT below its use apart, which changes nothing and logs REGISTER_WARN 3); under the seal the RW fields are replaced,
the RWS fields keep their values, and REGISTER_WARN 1 is logged only where the write would have changed one. Nothing else
changes. (R4, R7, R9, R45, R491; basis: derived.) -/
def Obligations.StorageRegistersHoldTheirFields : Prop :=
  ∀ acc off v s, opens acc off s = true →
    (∀ k, rwSlot? off = some k →
      exec (.registerWrite acc off v) s = .next (after s { s with regs := k.set (v &&& BitVec.ofNat 64 k.rw) s.regs }) ∧
      k.get (k.set (v &&& BitVec.ofNat 64 k.rw) s.regs) = v &&& BitVec.ofNat 64 k.rw ∧
      regValue acc off { s with regs := k.set (v &&& BitVec.ofNat 64 k.rw) s.regs } = (v &&& BitVec.ofNat 64 k.rw).toNat) ∧
    (∀ k, rwsSlot? off = some k →
      let fields := BitVec.ofNat 64 (k.rw + k.rws)
      let rws := BitVec.ofNat 64 k.rws
      let kept := (v &&& BitVec.ofNat 64 k.rw) ||| (k.get s.regs &&& rws)
      (s.img.isSealed = false → (off = 0x400058 → pctBelowUse v s = false) →
        exec (.registerWrite acc off v) s = .next (after s { s with regs := k.set (v &&& fields) s.regs }) ∧
        regValue acc off { s with regs := k.set (v &&& fields) s.regs } = (v &&& fields).toNat) ∧
      (s.img.isSealed = false → off = 0x400058 → pctBelowUse v s = true →
        exec (.registerWrite acc off v) s = .next (after s (registerWarn acc off 3 s))) ∧
      (s.img.isSealed = true →
        exec (.registerWrite acc off v) s = .next (after s (
          let t : State := { s with regs := k.set kept s.regs }
          if k.get s.regs &&& rws = v &&& rws then t else registerWarn acc off 1 t)) ∧
        k.get (k.set kept s.regs) &&& rws = k.get s.regs &&& rws))

/-- MAXn of STP_CTX_LANES is at [9n + 8:9n] for n from 0 to 3, 256 at reset, written and read, and taken as 256 above it; bits
[63:36] are reserved. STP_CTX_CFG holds AUTO_RELOADn in [4n], reset 1, LOAD_ON_TURNn in [4n + 1], reset 0, LEND_WHEN_UNLOADEDn
in [4n + 2], reset 1, all written and read; bit [4n + 3] and bits [63:16] are reserved. (R104; basis: stated.) -/
def Obligations.LaneCapsAndContextFlags : Prop :=
  (∀ n, n < 4 →
    wfield (BitVec.ofNat 64 (regValue .owner 0x100030 State.reset)) (9 * n) 9 = 256 ∧
    bit (regValue .owner 0x100038 State.reset) (4 * n) = true ∧ bit (regValue .owner 0x100038 State.reset) (4 * n + 1) = false ∧
    bit (regValue .owner 0x100038 State.reset) (4 * n + 2) = true) ∧
  (∀ acc v s, opens acc 0x100030 s = true → ∃ t, exec (.registerWrite acc 0x100030 v) s = .next (after s t) ∧
    t = { s with regs := { s.regs with ctxLanes := t.regs.ctxLanes } } ∧ regValue acc 0x100030 t < 2 ^ 36 ∧
    ∀ n, n < 4 → wfield (BitVec.ofNat 64 (regValue acc 0x100030 t)) (9 * n) 9 = wfield v (9 * n) 9 ∧ laneCap t n = min 256 (wfield v (9 * n) 9)) ∧
  (∀ acc v s, opens acc 0x100038 s = true → ∃ t, exec (.registerWrite acc 0x100038 v) s = .next (after s t) ∧
    t = { s with regs := { s.regs with ctxCfg := t.regs.ctxCfg } } ∧ regValue acc 0x100038 t < 2 ^ 16 ∧
    ∀ n, n < 4 → bit (regValue acc 0x100038 t) (4 * n) = bit v.toNat (4 * n) ∧
      bit (regValue acc 0x100038 t) (4 * n + 1) = bit v.toNat (4 * n + 1) ∧
      bit (regValue acc 0x100038 t) (4 * n + 2) = bit v.toNat (4 * n + 2) ∧ bit (regValue acc 0x100038 t) (4 * n + 3) = false)

/-- At reset THROTTLE_C is 95, RELEASE_C 90, TRIP_C 110, bits [63:24] zero. A write before the seal replaces the three fields, one
under the seal keeps them. RELEASE_C not below THROTTLE_C is taken as THROTTLE_C - 5; TRIP_C above 110 is taken as 110, below
THROTTLE_C + 5 as that. (R472; basis: stated.) -/
def Obligations.ThermalLimitsAreTakenInRange : Prop :=
  regValue .owner 0xD00020 State.reset = 95 + 90 * 2 ^ 8 + 110 * 2 ^ 16 ∧
  (∀ v s, opens .owner 0xD00020 s = true →
    (s.img.isSealed = false → ∃ t, exec (.registerWrite .owner 0xD00020 v) s = .next (after s t) ∧
      t = { s with regs := { s.regs with pwrThermal := t.regs.pwrThermal } } ∧ regValue .owner 0xD00020 t = v.toNat % 2 ^ 24 ∧
      throttleC t = v.toNat % 256) ∧
    (s.img.isSealed = true → ∃ t, exec (.registerWrite .owner 0xD00020 v) s = .next (after s t) ∧
      (s.regs.pwrThermal.toNat < 2 ^ 24 → regValue .owner 0xD00020 t = regValue .owner 0xD00020 s))) ∧
  (∀ s : State,
    (wfield s.regs.pwrThermal 8 8 < throttleC s → releaseC s = wfield s.regs.pwrThermal 8 8) ∧
    (throttleC s ≤ wfield s.regs.pwrThermal 8 8 → releaseC s = throttleC s - 5) ∧
    (110 < wfield s.regs.pwrThermal 16 8 → throttleC s + 5 ≤ 110 → tripC s = 110) ∧
    (wfield s.regs.pwrThermal 16 8 < throttleC s + 5 → throttleC s ≤ 105 → tripC s = throttleC s + 5) ∧
    (throttleC s + 5 ≤ wfield s.regs.pwrThermal 16 8 → wfield s.regs.pwrThermal 16 8 ≤ 110 → tripC s = wfield s.regs.pwrThermal 16 8))

/-- With the owner port on its bus and BOOT_STAGE below 9 (WAIT_IMAGE; 8 is FW_ABSENT): a write to PWR_CTRL, a PWR_NOR_ register,
SEC_QUOTE_NONCE0-3 or SEC_QUOTE_CMD has its effect; a key command and its payload follow R467; one to any other register
changes no register, completes, and logs REGISTER_WARN with 3. (R487; basis: stated.) -/
def Obligations.BootStageHoldsOwnerWritesBack : Prop :=
  ∀ off v s, onBus s = true → s.pwr.bootStage < 9 → (regRow? off).isSome = true →
    let named := off ∈ [0xD00010, 0xD00038, 0xD00040, 0xD00048, 0xD00050, 0xB01088, 0xB01090, 0xB01098, 0xB010A0, 0xB010A8]
    (named → exec (.registerWrite .owner off v) s = .next (after s (writeDefined .owner off v s))) ∧
    (off ∈ [0xB01070, 0xB01078] → s.pwr.bootStage < 8 →
      exec (.registerWrite .owner 0xB01070 v) s = .next (after s (keyResult 7 (wfield v 3 2) s)) ∧
      exec (.registerWrite .owner 0xB01078 v) s = .next (after s (keyData v s))) ∧
    (¬ named → off ∉ [0xB01070, 0xB01078] →
      exec (.registerWrite .owner off v) s = .next (after s (registerWarn .owner off 3 s)) ∧
      (after s (registerWarn .owner off 3 s)).regs = s.regs ∧ (after s (registerWarn .owner off 3 s)).accs = s.accs)

/-- STP_COUNT holds DEADLINE_MISSED in [31:0] and PREEMPTED in [63:32], ERR_COUNT CELL_FENCES, TILE_FENCES, CONTEXT_FAULTS and
SESSIONS_LOST in 16 bits each; each reads as its count or full where the count is beyond it, and zero at reset. ARI_REPLAY
reads LEVEL 1, SUPPORTED 2, GENERATION 1 always. A write to any of them, where it is open, has no effect. (R103, R133, R448;
basis: stated.) -/
def Obligations.CountersReadAsStated : Prop :=
  (∀ acc s, regValue acc 0x100028 s = min s.stp.missed (2 ^ 32 - 1) + min s.stp.preempted (2 ^ 32 - 1) * 2 ^ 32 ∧
    regValue acc 0xC00038 s = min s.err.cellFences (2 ^ 16 - 1) + min s.err.tileFences (2 ^ 16 - 1) * 2 ^ 16 +
      min s.err.ctxFaults (2 ^ 16 - 1) * 2 ^ 32 + min s.err.sesLost (2 ^ 16 - 1) * 2 ^ 48 ∧
    regValue acc 0x200000 s = 1 + 2 * 2 ^ 8 + 1 * 2 ^ 24) ∧
  regValue .owner 0x100028 State.reset = 0 ∧ regValue .owner 0xC00038 State.reset = 0 ∧
  (∀ acc off v s, off ∈ [0x100028, 0xC00038, 0x200000] → opens acc off s = true →
    exec (.registerWrite acc off v) s = .next (after s s))

/-- For every written value: with only CLEAR_COUNTS set, ARI_CTRL clears ARI_NUMERIC and ARI_INPUT, with only RUN_KAT it runs the
known-answer tests; CKP_CTRL is CKP_CLEAR_COUNTS, CKP_CTRL_ABORT or RELEASE_REPLAY; PWR_CTRL is GOTO_STANDBY, GOTO_ON or
GOTO_OFF by GOTO, PWR_RESET or CLEAR_PEAK. With none of the fields set nothing changes. All read as zero. (R136, R398, R470;
basis: stated.) -/
def Obligations.ControlRegistersActAsTheirCommands : Prop :=
  ∀ acc v s,
    (regValue acc 0x200018 s = 0 ∧ regValue acc 0xA00050 s = 0 ∧ regValue acc 0xD00010 s = 0) ∧
    (opens acc 0x200018 s = true →
      (wfield v 0 2 = 1 → exec (.registerWrite acc 0x200018 v) s = exec (.ariClearCounts acc) s ∧
        exec (.ariClearCounts acc) s = .next (after s { s with ari := { s.ari with nanLogits := 0, allMasked := 0, outOfVocab := 0, nanBlocks := 0 } })) ∧
      (wfield v 0 2 = 2 → exec (.registerWrite acc 0x200018 v) s = exec (.runKat acc) s) ∧
      (wfield v 0 2 = 0 → exec (.registerWrite acc 0x200018 v) s = .next (after s s))) ∧
    (opens acc 0xA00050 s = true →
      (wfield v 0 3 = 1 → exec (.registerWrite acc 0xA00050 v) s = exec (.ckpClearCounts acc) s ∧
        exec (.ckpClearCounts acc) s = .next (after s { s with ckp := { s.ckp with written := 0, shared := 0, restored := 0, failedN := 0 } })) ∧
      (wfield v 0 3 = 2 → exec (.registerWrite acc 0xA00050 v) s = exec (.ckpCtrlAbort acc) s) ∧
      (wfield v 0 3 = 4 → exec (.registerWrite acc 0xA00050 v) s = exec (.releaseReplay acc) s) ∧
      (wfield v 0 3 = 0 → exec (.registerWrite acc 0xA00050 v) s = .next (after s s))) ∧
    (opens .owner 0xD00010 s = true →
      (wfield v 0 4 = 1 → exec (.registerWrite .owner 0xD00010 v) s = exec .gotoStandby s) ∧
      (wfield v 0 4 = 2 → exec (.registerWrite .owner 0xD00010 v) s = exec .gotoOn s) ∧
      (wfield v 0 4 = 3 → exec (.registerWrite .owner 0xD00010 v) s = exec .gotoOff s) ∧
      (wfield v 0 4 = 4 → exec (.registerWrite .owner 0xD00010 v) s = exec .pwrReset s) ∧
      (wfield v 0 4 = 8 → exec (.registerWrite .owner 0xD00010 v) s = exec .clearPeak s ∧
        exec .clearPeak s = .next (after s { s with pwr := { s.pwr with peakW := 0 } })) ∧
      (wfield v 0 4 = 0 → exec (.registerWrite .owner 0xD00010 v) s = .next (after s s)))

/-- At an offset that the index does not define (an offset that is not a multiple of 8 is one: log entry 37), a read by any
accessor gives zero, a write by an accessor that is there changes no register, and each logs REGISTER_WARN with 2 and the
offset. (R7, R9; basis: derived.) -/
def Obligations.UndefinedOffsetsReadZeroAndWarn : Prop :=
  ∀ acc off v s, regRow? off = none →
    readRegister acc off s = (0, registerWarn acc off 2 s) ∧
    (reaches acc s = true → exec (.registerWrite acc off v) s = .next (after s (registerWarn acc off 2 s))) ∧
    (registerWarn acc off 2 s).regs = s.regs ∧ (registerWarn acc off 2 s).accs = s.accs

/-- A register write by a queue pair whose tenant lacks the rights of the index changes nothing; REG_READ and REG_WRITE, by the
rights that held when the tack arrived (R43), then answer NOT_PERMITTED and change nothing else. What a queue pair reads of a
selected queue pair, index, job or inspected session of another tenant, or of a meter that none of its tenant's queue pairs
names, is zero. (R258, R486, R488; basis: derived.) -/
def Obligations.HostAccessNeedsItsRights : Prop :=
  (∀ qp off v s r, regRow? off = some r → hostMayWrite s qp r = false → exec (.registerWrite (.host qp) off v) s = .next (after s s)) ∧
  (∀ h off s t d u r, servedB h (.regRead off) s = some (t, d, u) → regRow? off = some r → rightsRead d.rights r = false →
    exec (.regRead h off) s = .next (after s (completeOp h 0x30 0x04 u))) ∧
  (∀ h off v s t d u r, servedB h (.regWrite off v) s = some (t, d, u) → regRow? off = some r → rightsWrite d.rights r = false →
    exec (.regWrite h off v) s = .next (after s (completeOp h 0x31 0x04 u))) ∧
  (∀ qp s, let a := accRegs s (.host qp)
    (tenantOf s a.qpSel ≠ tenantOf s qp → regValue (.host qp) 0x600050 s = 0) ∧
    (∀ x, vindex? s a.idxSel = some x → x.tenant ≠ tenantOf s qp →
      ∀ off ∈ [0x500028, 0x500030, 0x500038], regValue (.host qp) off s = 0) ∧
    (∀ j, job? s a.jobSel = some j → j.map.tenant ≠ tenantOf s qp →
      ∀ off ∈ [0x900010, 0x900018, 0x900020], regValue (.host qp) off s = 0) ∧
    (a.inspectTenant ≠ tenantOf s qp → ∀ i, i < 32 → regValue (.host qp) (0x000030 + 8 * i) s = 0) ∧
    ((qpCfgs s).all (fun c => !(c.meter = a.meterSel && c.tenant = tenantOf s qp)) = true →
      ∀ off ∈ [0x700018, 0x700020, 0x700028], regValue (.host qp) off s = 0))

/-- TREE_SUM of no values is +0, of one value that value; of n > 1 values it is TREE_SUM of the floor(n/2) rounded sums of values
2i and 2i+1, followed by the last value where n is odd. For every list of FP32 values. (R113; basis: stated.) -/
def Obligations.TreeSumPairsByIndex : Prop :=
  treeSum [] = f32Zero false ∧ (∀ a : F32, treeSum [a] = a) ∧
  ∀ v : List F32, 2 ≤ v.length →
    treeSum v = treeSum ((List.range (v.length / 2)).map (fun i => fadd (v.getD (2 * i) 0) (v.getD (2 * i + 1) 0)) ++
      (if v.length % 2 = 1 then [v.getD (v.length - 1) 0] else []))

/-- For NEXACT a power of two from 1 to 256, SUB_BITS from 0 to 4 with 2^SUB_BITS at most NEXACT, and 1 to 1,024 buckets: a
distance below NEXACT is its own bucket; another, with e the floor of its base-2 logarithm, has bucket NEXACT + 2^SUB_BITS (e
- log2 NEXACT) + (distance >> (e - SUB_BITS)) - 2^SUB_BITS. No bucket exceeds NBUCKETS - 1. All arithmetic is on integers.
(R146; basis: stated.) -/
def Obligations.BucketOfADistance : Prop :=
  ∀ (w : Wt) (k d : Nat), w.nexact = 2 ^ k → k ≤ 8 → w.subBits ≤ 4 → 2 ^ w.subBits ≤ w.nexact → 1 ≤ w.nbuckets → w.nbuckets ≤ 1024 →
    (d < w.nexact → w.bucket d = min d (w.nbuckets - 1)) ∧
    (w.nexact ≤ d → ∀ e, 2 ^ e ≤ d → d < 2 ^ (e + 1) →
      w.subBits ≤ e ∧ 2 ^ w.subBits ≤ d >>> (e - w.subBits) ∧
      w.bucket d = min (w.nexact + 2 ^ w.subBits * (e - k) + (d >>> (e - w.subBits) - 2 ^ w.subBits)) (w.nbuckets - 1))

/-- For all operands, sums, differences, products, negations, reciprocals, reciprocal square roots, maxima and BF16 roundings have
no subnormal result, and a NaN result is 0x7FC0_0000; a NaN operand gives it; infinity less infinity and zero times infinity
give it. RN(a + b) = RN(b + a) and RN(a × b) = RN(b × a). (R107, R116; basis: derived.) -/
def Obligations.ArithmeticAnswersAreCanonical : Prop :=
  let canonical (x : F32) : Prop :=
    (field x.toNat 23 8 = 0 → field x.toNat 0 23 = 0) ∧ (field x.toNat 23 8 = 255 → field x.toNat 0 23 ≠ 0 → x = f32NaN)
  (∀ a b : F32, canonical (fadd a b) ∧ canonical (fsub a b) ∧ canonical (fmul a b) ∧ canonical (fmax a b)) ∧
  (∀ a : F32, canonical (fneg a) ∧ canonical (recip a) ∧ canonical (rsqrt a) ∧ canonical (bf16 a)) ∧
  (∀ a b : F32, isNaN a = true → fadd a b = f32NaN ∧ fadd b a = f32NaN ∧ fmul a b = f32NaN ∧ fmul b a = f32NaN ∧
    fmax a b = f32NaN ∧ fmax b a = f32NaN ∧ recip a = f32NaN ∧ rsqrt a = f32NaN ∧ bf16 a = f32NaN) ∧
  (∀ n : Bool, fsub (f32Inf n) (f32Inf n) = f32NaN ∧ (∀ m, fmul (f32Zero m) (f32Inf n) = f32NaN)) ∧
  ∀ a b : F32, fadd a b = fadd b a ∧ fmul a b = fmul b a

/-- Taking a record into a buffer within its bounds keeps the bounds; every severity 3 record held stays held, the new one is held
if a record of lower severity or a reserve slot can make room, and of the records held and the new one exactly those that are
no longer held are counted. A full buffer of severity below 3 discards the newest. (R12; basis: derived.) -/
def Obligations.BufferedEventsKeepSeverity3 : Prop :=
  ∀ (e : EventRec) (b : EvBuf), b.held.length ≤ 256 → b.reserve.length ≤ 4 →
    let c := b.hold e
    c.held.length ≤ 256 ∧ c.reserve.length ≤ 4 ∧
    c.held.length + c.reserve.length + c.lost = b.held.length + b.reserve.length + b.lost + 1 ∧
    (∀ x, 3 ≤ x.severity → x ∈ b.held ++ b.reserve → x ∈ c.held ++ c.reserve) ∧
    (e.severity = 3 → (b.reserve.length < 4 ∨ b.held.length < 256 ∨ ∃ x ∈ b.held, x.severity < 3) → e ∈ c.held ++ c.reserve) ∧
    (b.held.length = 256 → e.severity ≠ 3 → c.held = b.held ∧ c.reserve = b.reserve)

/-- For a STORE, an atomic or a LOAD for this node, next in its stream, that reaches T1 address t: after a STORE the byte i of the
line is DATA's where BYTE_MASK enables it; an atomic writes its new 64-bit value, least significant byte first, at t; every
other byte of T1, every byte of T0 and every object and page table is as before, and a LOAD changes no memory at all. In every
state whose memories have their canonical form. (R318, R320; basis: derived.) -/
def Obligations.StoreChangesItsLineAlone : Prop :=
  ∀ (l : Nat) (r : Request) (t : Nat) (s u : State), l < 32 → MemoriesWf s →
    (appliesAt l { r with op := 0x02 } t s → exec (.store l r) s = .next u →
      u.mem = { s.mem with t1 := u.mem.t1 } ∧
      ∀ a, readByte Config.ramDefault a u.mem.t1 =
        if t ≤ a ∧ a < t + 128 ∧ bit r.mask (a - t) = true then r.data.getD (a - t) 0 else readByte Config.ramDefault a s.mem.t1) ∧
    (appliesAt l { r with op := 0x10 } t s → exec (.fadd l r) s = .next u →
      u.mem = { s.mem with t1 := u.mem.t1 } ∧
      ∀ a, readByte Config.ramDefault a u.mem.t1 =
        if t ≤ a ∧ a < t + 8 then
          (le ((BitVec.ofNat 64 (leNat (readBytes Config.ramDefault t 8 s.mem.t1)) + r.a).toNat) 8).getD (a - t) 0
        else readByte Config.ramDefault a s.mem.t1) ∧
    (appliesAt l { r with op := 0x01 } t s → exec (.load l r) s = .next u → u.mem = s.mem)

/-- For a request to this node whose INCARNATION is lower than the entry's, or equal to it with a SEQ other than the next one the
home will take: no byte of memory changes, every stream entry stays as it was, and the exactly-once table gains nothing, for
LOAD, STORE and each atomic. (R321; basis: derived.) -/
def Obligations.DuplicatesAreNotAppliedAgain : Prop :=
  ∀ (l : Nat) (r : Request) (s : State),
    let x := homeStream s r.hdr.src r.stream
    let waiting := ((waitingOf s r).map (·.2.2.seq)).eraseDups.length
    let keeps (o : Host.Outcome State Fault Refusal) : Prop :=
      ∀ t, o = .next t → t.mem = s.mem ∧ t.wlt.homes = s.wlt.homes ∧ ∀ y ∈ t.wlt.once, y ∈ s.wlt.once
    l < 32 → r.hdr.dest = selfNode s →
    (r.incarnation < x.incarnation ∨ (r.incarnation = x.incarnation ∧ r.seq ≠ (x.next + waiting) % 2 ^ 32)) →
    keeps (exec (.load l r) s) ∧ keeps (exec (.store l r) s) ∧ keeps (exec (.fadd l r) s) ∧ keeps (exec (.swap l r) s) ∧
    keeps (exec (.cas l r) s) ∧ keeps (exec (.fand l r) s) ∧ keeps (exec (.forOp l r) s) ∧ keeps (exec (.fxor l r) s)

/-- For all operands and in every state, a command here that answers a next state leaves everything as it was but the limit counts
and marks of R481 and R482 and these, per command: ptpSync, ptpDelayResp, ptpAnnounce: the clock; hostLinkDown, pfcFrame, cnp,
cmRtu, cmDrep, roceAck: the host port; peerRdmaRequest, trainSend: the shapers; rateRecovery, connectTimeout, qpErrorTimeout:
the clock, the host port; gateEntry, ptpDelayReq, histSample: the clock, the shapers; eventRingDrain, hostLinkUp, cmReq: the
host port, the shapers; ptpHoldover: the clock, the host port, the shapers. (R12, R243, R244, R246, R248, R266, R267, R274,
R289, R292, R308; basis: derived.) -/
def Obligations.HostPortFrames : Prop :=
  ∀ s : State,
  let k1 (o : Host.Outcome State Fault Refusal) : Prop := ∀ t, o = .next t → t = { s with clk := t.clk, lim := t.lim }
  let k2 (o : Host.Outcome State Fault Refusal) : Prop := ∀ t, o = .next t → t = { s with hst := t.hst, lim := t.lim }
  let k3 (o : Host.Outcome State Fault Refusal) : Prop := ∀ t, o = .next t → t = { s with shp := t.shp, lim := t.lim }
  let k4 (o : Host.Outcome State Fault Refusal) : Prop := ∀ t, o = .next t → t = { s with clk := t.clk, hst := t.hst, lim := t.lim }
  let k5 (o : Host.Outcome State Fault Refusal) : Prop := ∀ t, o = .next t → t = { s with clk := t.clk, shp := t.shp, lim := t.lim }
  let k6 (o : Host.Outcome State Fault Refusal) : Prop := ∀ t, o = .next t → t = { s with hst := t.hst, shp := t.shp, lim := t.lim }
  let k7 (o : Host.Outcome State Fault Refusal) : Prop := ∀ t, o = .next t → t = { s with clk := t.clk, hst := t.hst, shp := t.shp, lim := t.lim }
  (∀ x y z v, k1 (exec (.ptpSync x y z v) s)) ∧ (∀ x y, k1 (exec (.ptpDelayResp x y) s)) ∧
  (∀ x y, k1 (exec (.ptpAnnounce x y) s)) ∧ k2 (exec .hostLinkDown s) ∧ (∀ x y, k2 (exec (.pfcFrame x y) s)) ∧
  (∀ x, k2 (exec (.cnp x) s)) ∧ (∀ x, k2 (exec (.cmRtu x) s)) ∧ (∀ x, k2 (exec (.cmDrep x) s)) ∧
  (∀ x y, k2 (exec (.roceAck x y) s)) ∧ (∀ x y, k3 (exec (.peerRdmaRequest x y) s)) ∧ (∀ x, k3 (exec (.trainSend x) s)) ∧
  (∀ x, k4 (exec (.rateRecovery x) s)) ∧ (∀ x, k4 (exec (.connectTimeout x) s)) ∧ (∀ x, k4 (exec (.qpErrorTimeout x) s)) ∧
  (∀ x, k5 (exec (.gateEntry x) s)) ∧ k5 (exec .ptpDelayReq s) ∧ k5 (exec .histSample s) ∧
  (∀ x y, k6 (exec (.eventRingDrain x y) s)) ∧ k6 (exec .hostLinkUp s) ∧ (∀ x y z, k6 (exec (.cmReq x y z) s)) ∧
  k7 (exec .ptpHoldover s)

/-- For all operands and in every state, a command here that answers a next state leaves everything as it was but the limit counts
and marks of R481 and R482 and these, per command: ownerSelect, entdaa, rstdaa, enec, disec, i3cVrefChange: the I3C
controller; getpid, getbcr, getdcr, getmwl, getmrl: the log of answers; armExpired: the clock, the error block; getstatus: the
free-value counter, the log of answers; secQuoteData: the log of answers, the security block. (R400, R426, R441, R501; basis:
derived.) -/
def Obligations.OwnerPortFrames : Prop :=
  ∀ s : State,
  let k1 (o : Host.Outcome State Fault Refusal) : Prop := ∀ t, o = .next t → t = { s with i3c := t.i3c, lim := t.lim }
  let k2 (o : Host.Outcome State Fault Refusal) : Prop := ∀ t, o = .next t → t = { s with out := t.out, lim := t.lim }
  let k3 (o : Host.Outcome State Fault Refusal) : Prop := ∀ t, o = .next t → t = { s with clk := t.clk, err := t.err, lim := t.lim }
  let k4 (o : Host.Outcome State Fault Refusal) : Prop := ∀ t, o = .next t → t = { s with free := t.free, out := t.out, lim := t.lim }
  let k5 (o : Host.Outcome State Fault Refusal) : Prop := ∀ t, o = .next t → t = { s with out := t.out, sec := t.sec, lim := t.lim }
  (∀ x, k1 (exec (.ownerSelect x) s)) ∧ (∀ x, k1 (exec (.entdaa x) s)) ∧ k1 (exec .rstdaa s) ∧ k1 (exec .enec s) ∧
  k1 (exec .disec s) ∧ (∀ x, k1 (exec (.i3cVrefChange x) s)) ∧ k2 (exec .getpid s) ∧ k2 (exec .getbcr s) ∧
  k2 (exec .getdcr s) ∧ k2 (exec .getmwl s) ∧ k2 (exec .getmrl s) ∧ k3 (exec .armExpired s) ∧ k4 (exec .getstatus s) ∧
  k5 (exec .secQuoteData s)

/-- For all operands and in every state, a command here that answers a next state leaves everything as it was but the limit counts
and marks of R481 and R482 and these, per command: vinAuxUp, railPowerGood, idleExit, cablePresentChange, vinExcursion: the
power controller; drainTimeout: the clock, the image unit; idleEntry: the clock, the power controller; throttleChange,
norOpComplete: the free-value counter, the power controller; osfpInsert: the host port, the power controller, the shapers;
stageLockTimeout: the clock, the host port, the image unit, the shapers; imagePersistComplete: the host port, the image unit,
the power controller, the shapers. (R40, R43, R44, R450, R451, R462, R465, R469, R475, R498, R499; basis: derived.) -/
def Obligations.PowerFrames : Prop :=
  ∀ s : State,
  let k1 (o : Host.Outcome State Fault Refusal) : Prop := ∀ t, o = .next t → t = { s with pwr := t.pwr, lim := t.lim }
  let k2 (o : Host.Outcome State Fault Refusal) : Prop := ∀ t, o = .next t → t = { s with clk := t.clk, img := t.img, lim := t.lim }
  let k3 (o : Host.Outcome State Fault Refusal) : Prop := ∀ t, o = .next t → t = { s with clk := t.clk, pwr := t.pwr, lim := t.lim }
  let k4 (o : Host.Outcome State Fault Refusal) : Prop := ∀ t, o = .next t → t = { s with free := t.free, pwr := t.pwr, lim := t.lim }
  let k5 (o : Host.Outcome State Fault Refusal) : Prop := ∀ t, o = .next t → t = { s with hst := t.hst, pwr := t.pwr, shp := t.shp, lim := t.lim }
  let k6 (o : Host.Outcome State Fault Refusal) : Prop := ∀ t, o = .next t → t = { s with clk := t.clk, hst := t.hst, img := t.img, shp := t.shp, lim := t.lim }
  let k7 (o : Host.Outcome State Fault Refusal) : Prop := ∀ t, o = .next t → t = { s with hst := t.hst, img := t.img, pwr := t.pwr, shp := t.shp, lim := t.lim }
  (∀ x, k1 (exec (.vinAuxUp x) s)) ∧ (∀ x, k1 (exec (.railPowerGood x) s)) ∧ k1 (exec .idleExit s) ∧
  (∀ x y, k1 (exec (.cablePresentChange x y) s)) ∧ k1 (exec .vinExcursion s) ∧ k2 (exec .drainTimeout s) ∧
  k3 (exec .idleEntry s) ∧ (∀ x y z v w, k4 (exec (.throttleChange x y z v w) s)) ∧ (∀ x, k4 (exec (.norOpComplete x) s)) ∧
  (∀ x y, k5 (exec (.osfpInsert x y) s)) ∧ k6 (exec .stageLockTimeout s) ∧ (∀ x, k7 (exec (.imagePersistComplete x) s))

/-- For all operands and in every state, a command here that answers a next state leaves everything as it was but the limit counts
and marks of R481 and R482 and these, per command: alignDone: the Welt links and streams; retrainTimer, onceResultExpire: the
clock, the Welt links and streams; rekeyStart: the free-value counter, the shapers, the Welt links and streams; laneLock,
rekeyDeadline, laneLockLoss, fecSecond, forwardFrame: the host port, the shapers, the Welt links and streams; signalTimeout,
alignTimeout, paramTimeout, keyConfirmTimeout, respTimeout: the clock, the host port, the shapers, the Welt links and streams;
train, key: the free-value counter, the host port, the shapers, the Welt links and streams. (R308, R309, R315, R321, R323,
R408; basis: derived.) -/
def Obligations.LinkFrames : Prop :=
  ∀ s : State,
  let k1 (o : Host.Outcome State Fault Refusal) : Prop := ∀ t, o = .next t → t = { s with wlt := t.wlt, lim := t.lim }
  let k2 (o : Host.Outcome State Fault Refusal) : Prop := ∀ t, o = .next t → t = { s with clk := t.clk, wlt := t.wlt, lim := t.lim }
  let k3 (o : Host.Outcome State Fault Refusal) : Prop := ∀ t, o = .next t → t = { s with free := t.free, shp := t.shp, wlt := t.wlt, lim := t.lim }
  let k4 (o : Host.Outcome State Fault Refusal) : Prop := ∀ t, o = .next t → t = { s with hst := t.hst, shp := t.shp, wlt := t.wlt, lim := t.lim }
  let k5 (o : Host.Outcome State Fault Refusal) : Prop := ∀ t, o = .next t → t = { s with clk := t.clk, hst := t.hst, shp := t.shp, wlt := t.wlt, lim := t.lim }
  let k6 (o : Host.Outcome State Fault Refusal) : Prop := ∀ t, o = .next t → t = { s with free := t.free, hst := t.hst, shp := t.shp, wlt := t.wlt, lim := t.lim }
  (∀ x, k1 (exec (.alignDone x) s)) ∧ (∀ x, k2 (exec (.retrainTimer x) s)) ∧ (∀ x y z, k2 (exec (.onceResultExpire x y z) s))
  ∧ (∀ x, k3 (exec (.rekeyStart x) s)) ∧ (∀ x y, k4 (exec (.laneLock x y) s)) ∧ (∀ x, k4 (exec (.rekeyDeadline x) s)) ∧
  (∀ x, k4 (exec (.laneLockLoss x) s)) ∧ (∀ x y z, k4 (exec (.fecSecond x y z) s)) ∧
  (∀ x y, k4 (exec (.forwardFrame x y) s)) ∧ (∀ x, k5 (exec (.signalTimeout x) s)) ∧ (∀ x, k5 (exec (.alignTimeout x) s)) ∧
  (∀ x, k5 (exec (.paramTimeout x) s)) ∧ (∀ x, k5 (exec (.keyConfirmTimeout x) s)) ∧ (∀ x, k5 (exec (.respTimeout x) s)) ∧
  (∀ x y, k6 (exec (.train x y) s)) ∧ (∀ x y, k6 (exec (.key x y) s))

/-- For all operands and in every state, a command here that answers a next state leaves everything as it was but the limit counts
and marks of R481 and R482 and these, per command: load, store, fadd, swap, cas, fand, forOp, fxor: the host port, the
memories, the shapers, the Welt links and streams. (R320, R321, R325; basis: derived.) -/
def Obligations.FabricRequestFrames : Prop :=
  ∀ s : State,
  let k1 (o : Host.Outcome State Fault Refusal) : Prop := ∀ t, o = .next t → t = { s with hst := t.hst, mem := t.mem, shp := t.shp, wlt := t.wlt, lim := t.lim }
  (∀ x y, k1 (exec (.load x y) s)) ∧ (∀ x y, k1 (exec (.store x y) s)) ∧ (∀ x y, k1 (exec (.fadd x y) s)) ∧
  (∀ x y, k1 (exec (.swap x y) s)) ∧ (∀ x y, k1 (exec (.cas x y) s)) ∧ (∀ x y, k1 (exec (.fand x y) s)) ∧
  (∀ x y, k1 (exec (.forOp x y) s)) ∧ (∀ x y, k1 (exec (.fxor x y) s))

/-- For all operands and in every state, a command here that answers a next state leaves everything as it was but the limit counts
and marks of R481 and R482 and these, per command: moveRelease, claimAnswer: the sessions; kindleAtReached, kindleHoldExpired:
the clock, the sessions; moveOffer: the free- value counter, the sessions; kvSpill, sessionSpillT1: the attention counters,
the memories, the sessions; drainWindowEnd: the clock, the lace agent, the sessions; moveCancel, storageReclaimed: the free-
value counter, the memories, the sessions; bankingWriteFail: the host port, the sessions, the shapers; bankingComplete: the
attention counters, the free-value counter, the memories, the sessions; moveKeepExpired: the clock, the free-value counter,
the memories, the sessions. (R56, R57, R61, R64, R65, R66, R156, R177, R351; basis: derived.) -/
def Obligations.SessionFrames : Prop :=
  ∀ s : State,
  let k1 (o : Host.Outcome State Fault Refusal) : Prop := ∀ t, o = .next t → t = { s with ses := t.ses, lim := t.lim }
  let k2 (o : Host.Outcome State Fault Refusal) : Prop := ∀ t, o = .next t → t = { s with clk := t.clk, ses := t.ses, lim := t.lim }
  let k3 (o : Host.Outcome State Fault Refusal) : Prop := ∀ t, o = .next t → t = { s with free := t.free, ses := t.ses, lim := t.lim }
  let k4 (o : Host.Outcome State Fault Refusal) : Prop := ∀ t, o = .next t → t = { s with atn := t.atn, mem := t.mem, ses := t.ses, lim := t.lim }
  let k5 (o : Host.Outcome State Fault Refusal) : Prop := ∀ t, o = .next t → t = { s with clk := t.clk, map := t.map, ses := t.ses, lim := t.lim }
  let k6 (o : Host.Outcome State Fault Refusal) : Prop := ∀ t, o = .next t → t = { s with free := t.free, mem := t.mem, ses := t.ses, lim := t.lim }
  let k7 (o : Host.Outcome State Fault Refusal) : Prop := ∀ t, o = .next t → t = { s with hst := t.hst, ses := t.ses, shp := t.shp, lim := t.lim }
  let k8 (o : Host.Outcome State Fault Refusal) : Prop := ∀ t, o = .next t → t = { s with atn := t.atn, free := t.free, mem := t.mem, ses := t.ses, lim := t.lim }
  let k9 (o : Host.Outcome State Fault Refusal) : Prop := ∀ t, o = .next t → t = { s with clk := t.clk, free := t.free, mem := t.mem, ses := t.ses, lim := t.lim }
  (∀ x, k1 (exec (.moveRelease x) s)) ∧ (∀ x y, k1 (exec (.claimAnswer x y) s)) ∧ (∀ x, k2 (exec (.kindleAtReached x) s)) ∧
  (∀ x, k2 (exec (.kindleHoldExpired x) s)) ∧ (∀ x y z, k3 (exec (.moveOffer x y z) s)) ∧ (∀ x, k4 (exec (.kvSpill x) s)) ∧
  (∀ x, k4 (exec (.sessionSpillT1 x) s)) ∧ (∀ x, k5 (exec (.drainWindowEnd x) s)) ∧ (∀ x, k6 (exec (.moveCancel x) s)) ∧
  (∀ x, k6 (exec (.storageReclaimed x) s)) ∧ (∀ x, k7 (exec (.bankingWriteFail x) s)) ∧
  (∀ x, k8 (exec (.bankingComplete x) s)) ∧ (∀ x, k9 (exec (.moveKeepExpired x) s))

/-- For all operands and in every state, a command here that answers a next state leaves everything as it was but the limit counts
and marks of R481 and R482 and these, per command: t1AllocGrant: the memories; adapterLoadComplete, contextLoadComplete,
weightsInPlace: the step engine; forwardedWork: the vector engines; objTransferDone: the grant accumulators, the memories;
batchClose: the clock, the vector engines; repairStart, tailFlush, horizonAdvance: the clock, the memories, the vector
engines; bankHandoverDone: the grant accumulators, the attention counters, the memories, the sessions; forwardedRecord: the
free-value counter, the host port, the log of answers, the shapers, the vector engines, the Welt links and streams. (R92, R96,
R173, R182, R208, R218, R224, R226, R228, R229, R354; basis: derived.) -/
def Obligations.EngineFrames : Prop :=
  ∀ s : State,
  let k1 (o : Host.Outcome State Fault Refusal) : Prop := ∀ t, o = .next t → t = { s with mem := t.mem, lim := t.lim }
  let k2 (o : Host.Outcome State Fault Refusal) : Prop := ∀ t, o = .next t → t = { s with stp := t.stp, lim := t.lim }
  let k3 (o : Host.Outcome State Fault Refusal) : Prop := ∀ t, o = .next t → t = { s with vec := t.vec, lim := t.lim }
  let k4 (o : Host.Outcome State Fault Refusal) : Prop := ∀ t, o = .next t → t = { s with accs := t.accs, mem := t.mem, lim := t.lim }
  let k5 (o : Host.Outcome State Fault Refusal) : Prop := ∀ t, o = .next t → t = { s with clk := t.clk, vec := t.vec, lim := t.lim }
  let k6 (o : Host.Outcome State Fault Refusal) : Prop := ∀ t, o = .next t → t = { s with clk := t.clk, mem := t.mem, vec := t.vec, lim := t.lim }
  let k7 (o : Host.Outcome State Fault Refusal) : Prop := ∀ t, o = .next t → t = { s with accs := t.accs, atn := t.atn, mem := t.mem, ses := t.ses, lim := t.lim }
  let k8 (o : Host.Outcome State Fault Refusal) : Prop := ∀ t, o = .next t → t = { s with free := t.free, hst := t.hst, out := t.out, shp := t.shp, vec := t.vec, wlt := t.wlt, lim := t.lim }
  k1 (exec .t1AllocGrant s) ∧ (∀ x y, k2 (exec (.adapterLoadComplete x y) s)) ∧ (∀ x, k2 (exec (.contextLoadComplete x) s)) ∧
  (∀ x, k2 (exec (.weightsInPlace x) s)) ∧ (∀ x, k3 (exec (.forwardedWork x) s)) ∧ (∀ x, k4 (exec (.objTransferDone x) s)) ∧
  (∀ x y z, k5 (exec (.batchClose x y z) s)) ∧ k6 (exec .repairStart s) ∧ (∀ x y, k6 (exec (.tailFlush x y) s)) ∧
  k6 (exec .horizonAdvance s) ∧ (∀ x, k7 (exec (.bankHandoverDone x) s)) ∧ (∀ x y z, k8 (exec (.forwardedRecord x y z) s))

/-- For all operands and in every state, a command here that answers a next state leaves everything as it was but the limit counts
and marks of R481 and R482 and these, per command: heartbeatAck: the lace agent; candidateTimeout, cobblerLeaseExpiry: the
clock, the lace agent; auditIntervalEnd: the clock, the security block; auditRingPoll: the host port, the security block, the
shapers; ptpFollowUp: the clock, the host port, the security block, the shapers; auditRootSigned: the free-value counter, the
host port, the security block, the shapers; syncRequest: the host port, the log of answers, the shapers, the Welt links and
streams; propose, heartbeat, voteRequest: the host port, the lace agent, the log of answers, the shapers, the Welt links and
streams; heartbeatTimer: the clock, the host port, the lace agent, the log of answers, the shapers, the Welt links and
streams; ringConsumerRead: the free-value counter, the host port, the log of answers, the security block, the shapers, the
Welt links and streams. (R261, R267, R347, R348, R349, R416, R418, R419; basis: derived.) -/
def Obligations.AgreementFrames : Prop :=
  ∀ s : State,
  let k1 (o : Host.Outcome State Fault Refusal) : Prop := ∀ t, o = .next t → t = { s with map := t.map, lim := t.lim }
  let k2 (o : Host.Outcome State Fault Refusal) : Prop := ∀ t, o = .next t → t = { s with clk := t.clk, map := t.map, lim := t.lim }
  let k3 (o : Host.Outcome State Fault Refusal) : Prop := ∀ t, o = .next t → t = { s with clk := t.clk, sec := t.sec, lim := t.lim }
  let k4 (o : Host.Outcome State Fault Refusal) : Prop := ∀ t, o = .next t → t = { s with hst := t.hst, sec := t.sec, shp := t.shp, lim := t.lim }
  let k5 (o : Host.Outcome State Fault Refusal) : Prop := ∀ t, o = .next t → t = { s with clk := t.clk, hst := t.hst, sec := t.sec, shp := t.shp, lim := t.lim }
  let k6 (o : Host.Outcome State Fault Refusal) : Prop := ∀ t, o = .next t → t = { s with free := t.free, hst := t.hst, sec := t.sec, shp := t.shp, lim := t.lim }
  let k7 (o : Host.Outcome State Fault Refusal) : Prop := ∀ t, o = .next t → t = { s with hst := t.hst, out := t.out, shp := t.shp, wlt := t.wlt, lim := t.lim }
  let k8 (o : Host.Outcome State Fault Refusal) : Prop := ∀ t, o = .next t → t = { s with hst := t.hst, map := t.map, out := t.out, shp := t.shp, wlt := t.wlt, lim := t.lim }
  let k9 (o : Host.Outcome State Fault Refusal) : Prop := ∀ t, o = .next t → t = { s with clk := t.clk, hst := t.hst, map := t.map, out := t.out, shp := t.shp, wlt := t.wlt, lim := t.lim }
  let k10 (o : Host.Outcome State Fault Refusal) : Prop := ∀ t, o = .next t → t = { s with free := t.free, hst := t.hst, out := t.out, sec := t.sec, shp := t.shp, wlt := t.wlt, lim := t.lim }
  (∀ x, k1 (exec (.heartbeatAck x) s)) ∧ (∀ x, k2 (exec (.candidateTimeout x) s)) ∧
  (∀ x, k2 (exec (.cobblerLeaseExpiry x) s)) ∧ k3 (exec .auditIntervalEnd s) ∧ (∀ x y, k4 (exec (.auditRingPoll x y) s)) ∧
  (∀ x y, k5 (exec (.ptpFollowUp x y) s)) ∧ k6 (exec .auditRootSigned s) ∧ (∀ x, k7 (exec (.syncRequest x) s)) ∧
  (∀ x y, k8 (exec (.propose x y) s)) ∧ (∀ x, k8 (exec (.heartbeat x) s)) ∧ (∀ x, k8 (exec (.voteRequest x) s)) ∧
  (∀ x, k9 (exec (.heartbeatTimer x) s)) ∧ (∀ x y z, k10 (exec (.ringConsumerRead x y z) s))

/-- For all operands and in every state, a command here that answers a next state leaves everything as it was but the limit counts
and marks of R481 and R482 and these, per command: wake, kindle, pin, unpin, adapterLoad, weightsStage, ringSetup, nop,
location, identityRead, auditRootRead: the free- value counter, the host port, the lace agent, the log of answers, the
sessions, the shapers, the Welt links and streams. (R57, R61, R63, R94, R252, R256, R260, R353, R404, R420; basis: derived.) -/
def Obligations.TackFrames : Prop :=
  ∀ s : State,
  let k1 (o : Host.Outcome State Fault Refusal) : Prop := ∀ t, o = .next t → t = { s with free := t.free, hst := t.hst, map := t.map, out := t.out, ses := t.ses, shp := t.shp, wlt := t.wlt, lim := t.lim }
  (∀ x, k1 (exec (.wake x) s)) ∧ (∀ x y, k1 (exec (.kindle x y) s)) ∧ (∀ x, k1 (exec (.pin x) s)) ∧
  (∀ x, k1 (exec (.unpin x) s)) ∧ (∀ x y, k1 (exec (.adapterLoad x y) s)) ∧ (∀ x y z, k1 (exec (.weightsStage x y z) s)) ∧
  (∀ x y, k1 (exec (.ringSetup x y) s)) ∧ (∀ x, k1 (exec (.nop x) s)) ∧ (∀ x y, k1 (exec (.location x y) s)) ∧
  (∀ x y, k1 (exec (.identityRead x y) s)) ∧ (∀ x y z, k1 (exec (.auditRootRead x y z) s))

/-- Where the owner port may write SEC_IMG_STAGE_ADDR, _DATA and SEC_IMG_CMD: OWNER_STAGE_BEGIN in EMPTY takes the stage lock for
the owner with the buffer emptied and the offset 0; SEC_IMG_STAGE_DATA of the owner's lock writes 8 bytes at the offset, and
the offset advances by 8; OWNER_STAGE_END of the owner's lock leaves STAGED with its length; ACTIVATE in STAGED begins the
checks with the flags and DRAIN_MS of the same write; SEAL seals the active image; ABORT_STAGE empties a stage. In STAGING the
lock's timeout empties the buffer 10 s after the last data and logs STAGE_EVENT. In CHECKING, IMAGE_CHECK_DONE goes back to
STAGED with the failure's result, event and IBI, or on to SWITCHING with a drain where REVISION changes. DRAIN_TIMEOUT ends
the drain DRAIN_MS after the checks passed. IMAGE_PERSIST_COMPLETE writes the stored image and its header, or logs that the
persist failed. (R40, R41, R43, R44, R45, R51; basis: derived.) -/
def Obligations.OwnerImageCommandsComplete : Prop :=
  (∀ s, opens .owner 0xB00060 s = true → s.img.st = 0 →
    exec .ownerStageBegin s = .next (after s (beginStage (1, 0) { s with
      regs := { s.regs with stageAddr := 0 }, img := { s.img with addrFull := false } }))) ∧
  (∀ s val, opens .owner 0xB00068 s = true → s.img.addrFull = false → s.img.st = 1 → s.img.source = 1 →
    s.regs.stageAddr.toNat < 0xFFFFF8 →
    exec (.secImgStageData val) s = .next (after s { s with
      img := { s.img with
        buf := writeBytes Config.ramDefault s.regs.stageAddr.toNat (le val.toNat 8) s.img.buf, lastData := now s },
      regs := { s.regs with stageAddr := BitVec.ofNat 64 (s.regs.stageAddr.toNat + 8) } })) ∧
  (∀ s len, opens .owner 0xB00060 s = true → s.img.st = 1 → s.img.source = 1 → len < 2 ^ 32 →
    exec (.ownerStageEnd len) s = .next (after s { s with
      regs := { s.regs with stageAddr := 0 },
      img := { s.img with addrFull := false, st := 2, staged := len } })) ∧
  (∀ s, s.img.st = 1 →
    exec .stageLockTimeout s = .next (after s (logAll 1 6 (unitChip 0) 0x0403 1
      (modImg ImgCtl.emptied (advance (s.img.lastData + 10000000000) s))))) ∧
  (∀ s sealToo persist auto drainMs, opens .owner 0xB00058 s = true → s.img.st = 2 →
    exec (.activate sealToo persist auto drainMs) s = .next (after s { s with img := { s.img with
      st := 3, sealHeld := sealToo, persist := persist, auto := auto, drainMs := drainMs, fromNor := false } })) ∧
  (∀ s, opens .owner 0xB00058 s = true → s.img.active.isSome = true →
    exec .sealImage s = .next (after s { s with img := { s.img with isSealed := true } })) ∧
  (∀ s, opens .owner 0xB00058 s = true → s.img.st = 1 ∨ s.img.st = 2 →
    exec .abortStage s = .next (after s { s with img := s.img.emptied })) ∧
  (∀ s, s.img.st = 3 →
    exec .imageCheckDone s = .next (after s (match checkImage s (stagedBytes s) with
      | some (code, sec, detail) =>
        let u := modImg (fun i => { i with st := 2, code := code, section_ := sec, detail := detail, sealHeld := false }) s
        raiseIbi 1 (logAll 1 6 (unitChip 0) 0x0401 (imgResult u) (backToWait u))
      | none =>
        let i := readImage (stagedBytes s)
        raiseIbi 1 { s with img := { s.img with
          st := 4, code := 1, section_ := 0x3FF, detail := 0, next := some i, passedAt := now s,
          draining := (s.img.active.map fun a => decide (a.revision ≠ i.revision)).getD false,
          drainOver := false } }))) ∧
  (∀ s, s.img.st = 4 → s.img.draining = true → s.img.drainOver = false →
    exec .drainTimeout s = .next (after s (modImg (fun i => { i with drainOver := true })
      (advance (s.img.passedAt + s.img.drainMs * 1000000) s)))) ∧
  (∀ s i, s.img.storing = some i →
    exec (.imagePersistComplete true) s = .next (after s (norWrite 0x1000000 (storeHeader i s.img.persistAuto)
      (norWrite 0x1001000 i.raw { s with img := { s.img with storing := none } }))) ∧
    exec (.imagePersistComplete false) s = .next (after s (logAll 1 6 (unitChip 0) 0x0403 2
      { s with img := { s.img with storing := none } })))

/-- For a tack that has passed the checks of R253 before its own, at state u: STAGE_BEGIN in EMPTY or STAGED takes the stage lock
for its queue pair and completes with OK; STAGE_DATA with inline data at a multiple of 8 inside the buffer, from the holder of
the lock, writes its bytes and completes with OK; STAGE_END of the holder leaves STAGED with its length and completes with OK;
WEIGHTS_STAGE with a data reference that is not refused starts its fetch; ADAPTER_LOAD likewise; ADAPTER_DROP removes an
adapter that no session uses. (R40, R51, R92, R94, R253, R256; basis: derived.) -/
def Obligations.StagingTacksComplete : Prop :=
  (∀ h s t u, served h .stageBegin s = some (t, u) → u.img.st = 0 ∨ u.img.st = 2 →
    exec (.stageBegin h) s = .next (after s (completeOp h 0x10 0 (beginStage (2, h.qp) u)))) ∧
  (∀ h off x s t u, served h (.stageData off (.inline x)) s = some (t, u) → off % 8 = 0 → off + x.length ≤ 2 ^ 24 →
    u.img.st = 1 → u.img.source = 2 → u.img.stageQp = h.qp →
    exec (.stageData h off (.inline x)) s = .next (after s (completeOp h 0x11 0 (stageWrite off x u)))) ∧
  (∀ h len s t u, served h (.stageEnd len) s = some (t, u) → u.img.st = 1 → u.img.source = 2 → u.img.stageQp = h.qp →
    exec (.stageEnd h len) s = .next (after s (completeOp h 0x12 0 { u with img := { u.img with st := 2, staged := len } }))) ∧
  (∀ h ctx r s t u, served h (.weightsStage ctx r) s = some (t, u) → refRefused r = false →
    exec (.weightsStage h ctx r) s = .next (after s (startFetch h (.weightsStage ctx r) r 0 [] u)))

/-- ADAPTER_LOAD that passed the checks before its own, with a reference that is not refused, fetches the container's first 128
bytes under the bindings it arrived with. ADAPTER_LOAD_COMPLETE marks the LOADING version loaded. ADAPTER_DROP cancels the
LOADING version, retires the CURRENT one and completes with OK. For contexts 0 to 3: LOAD of an UNLOADED context makes it
LOADING, at the end of the order of loads, its lent weight banks returned, where a weight set of the context's digest is
staged in T1, and else logs an event (and a VERSION above the one held) and changes nothing; UNLOAD of a RESIDENT context
makes it UNLOADING, of a LOADING one UNLOADED; the last bank of the load at the head makes it ready; the weights in place of a
context that moves make it ready; the end of the teardown of a FAULTED one makes it UNLOADED, to load again under AUTO_RELOAD.
(R92, R94, R96, R253; basis: derived.) -/
def Obligations.ContextCommandsComplete : Prop :=
  (∀ h r s t d u, servedB h (.adapterLoad r) s = some (t, d, u) → refRefused r = false →
    exec (.adapterLoad h r) s = .next (after s (startFetch h (.adapterLoad r) { r with len := min r.len 128 } 0 [] u 0 d))) ∧
  (∀ ctx id s,
    exec (.adapterLoadComplete ctx id) s = .next (after s { s with stp := { s.stp with
      adapters := s.stp.adapters.map fun a =>
        if a.ctx = ctx && a.id = id && a.state = 1 then { a with loaded := true } else a } })) ∧
  (∀ h ctx id s t u, served h (.adapterDrop ctx id) s = some (t, u) →
    exec (.adapterDrop h ctx id) s = .next (after s (completeOp h 0x14 0
      (match adapterIn (cancelLoading ctx id u) ctx id 2 with
        | some a => retire a (cancelLoading ctx id u)
        | none => cancelLoading ctx id u)))) ∧
  (∀ acc c s, c < 4 → opens acc 0x100048 s = true → (ctxOf s c).state = 1 →
    exec (.contextLoad acc c) s = .next (after s (match ctxCfg? s c, sourceOf s c with
      | some cfg, some o =>
        if o.tier = 1 && weightSetOk o.raw cfg (placementNow s) then
          let v := modCtx c (fun x => { x with state := 2, ready := false, weights := o.raw }) (returnWeights c s)
          { v with stp := { v.stp with loads := v.stp.loads ++ [c] } }
        else logAll 1 6 (unitChip 0x36) 0x0303 c
          (if slice o.raw 0 8 = ascii "YWEIGHTS" then noteVersion 0x30 o.raw 8 s else s)
      | _, _ => logAll 1 6 (unitChip 0x36) 0x0303 c s))) ∧
  (∀ acc c s, c < 4 → opens acc 0x100048 s = true → (ctxOf s c).state = 3 →
    exec (.contextUnload acc c) s = .next (after s (modCtx c (fun x => { x with state := 4 }) s))) ∧
  (∀ acc c s, c < 4 → opens acc 0x100048 s = true → (ctxOf s c).state = 2 →
    exec (.contextUnload acc c) s = .next (after s (becomeUnloaded c false s))) ∧
  (∀ c rest s, c < 4 → s.stp.loads = c :: rest → (ctxOf s c).state = 2 →
    exec (.contextLoadComplete c) s = .next (after s (modCtx c (fun x => { x with ready := true })
      { s with stp := { s.stp with loads := s.stp.loads.filter (· ≠ c) } }))) ∧
  (∀ c s, c < 4 → (ctxOf s c).state = 5 →
    exec (.weightsInPlace c) s = .next (after s (modCtx c (fun x => { x with ready := true }) s))) ∧
  (∀ c s, c < 4 → (ctxOf s c).state = 6 →
    exec (.contextTeardownComplete c) s = .next (after s (becomeUnloaded c true s)))

/-- Where the accessor may write the register: CLEAR_MAX zeroes the longest step; ARI CLEAR_COUNTS its four counts; ATN
CLEAR_COUNTS the KV counts and every tile's look-aside counts; LAB_FLUSH makes a flush due at the next boundary; SCRUB_NOW
makes a scrub pass run; MEM, VEC, HST, SHP, WLT, MAP, CKP, SEC_AUD and ERR CLEAR_COUNTS clear the counts of their blocks;
CLEAR_HIST of shaping and of the limits clear their histograms and samples; CLEAR_PEAK of the limits sets the marks to the
present counts and clears the hits, that of power clears the peak; SHP_HIST_SEL and LIM_TERM_SEL select for their accessor
alone and hold what they select; RUN_KAT with steps disabled and none running starts the known-answer tests; their completion
reports and fences the failing cells. (R99, R132, R136, R167, R209, R242, R270, R294, R339, R447, R484; basis: derived.) -/
def Obligations.ClearAndTestCommandsComplete : Prop :=
  (∀ s, opens .owner 0x100000 s = true →
    exec .stpClearMax s = .next (after s { s with stp := { s.stp with maxNs := 0 } })) ∧
  (∀ acc s, opens acc 0x200018 s = true →
    exec (.ariClearCounts acc) s = .next (after s { s with ari := { s.ari with
      nanLogits := 0, allMasked := 0, outOfVocab := 0, nanBlocks := 0 } })) ∧
  (∀ acc s, opens acc 0x200018 s = true → bit s.regs.stpCtrl.toNat 0 = false → s.stp.running = false →
    exec (.runKat acc) s = .next (after s { s with ari := { s.ari with katRunning := true, katDone := false } })) ∧
  (∀ fails s, s.ari.katRunning = true →
    exec (.katComplete fails) s = .next (after s (katResult fails s))) ∧
  (∀ acc s, opens acc 0x300038 s = true →
    exec (.atnClearCounts acc) s = .next (after s { s with atn := { s.atn with
      evicted := 0, poolWaits := 0, spilled := 0, returned := 0, hits := [], misses := [] } })) ∧
  (∀ acc s, opens acc 0x300038 s = true →
    exec (.labFlush acc) s = .next (after s { s with stp := { s.stp with flush := true } })) ∧
  (∀ acc s, opens acc 0x400070 s = true →
    exec (.scrubNow acc) s = .next (after s { s with mem := { s.mem with scrubbing := true } }) ∧
    exec (.memClearCounts acc) s = .next (after s { s with mem := { s.mem with
      t0Ce := 0, t0Ue := 0, t1Ce := 0, t1Ue := 0, banks := s.mem.banks.map fun b => (b.1, { b.2 with ceTotal := 0 }) } })) ∧
  (∀ acc s, opens acc 0x500050 s = true →
    exec (.vecClearCounts acc) s = .next (after s { s with vec := { s.vec with
      queries := 0, short := 0, passes := 0, busy := 0 } })) ∧
  (∀ s, opens .owner 0x600000 s = true →
    exec .hstClearCounts s = .next (after s { s with hst := { s.hst with
      tacks := 0, refused := 0, rnrNaks := 0, noRing := 0, qps := s.hst.qps.map fun q => (q.1, { q.2 with lost := 0 }) } })) ∧
  (∀ acc s, opens acc 0x700008 s = true →
    exec (.shpClearCounts acc) s = .next (after s { s with shp := { s.shp with
      meters := s.shp.meters.map fun m => (m.1, { m.2 with green := 0, yellow := 0, yRef := 0, red := 0 }),
      ports := s.shp.ports.map fun p =>
        (p.1, { p.2 with overruns := 0, queues := p.2.queues.map fun q => (q.1, { q.2 with lost := 0 }) }) } }) ∧
    exec (.clearHist acc) s = .next (after s { s with shp := { s.shp with hist := [], samples := 0 } })) ∧
  (∀ acc val s, opens acc 0x700058 s = true →
    exec (.shpHistSel acc val) s = .next (after s (modAcc acc (fun a => { a with
      histSel := val.toNat % 2 ^ 14,
      histSnap := histBins s (field (val.toNat % 2 ^ 14) 0 6) (field (val.toNat % 2 ^ 14) 6 7)
        (field (val.toNat % 2 ^ 14) 13 1) }) s))) ∧
  (∀ acc s, opens acc 0x800070 s = true →
    exec (.wltClearCounts acc) s = .next (after s { s with wlt := { s.wlt with
      duplicates := 0, gaps := 0, resends := 0, dead := 0, stale := 0,
      links := s.wlt.links.map fun k =>
        (k.1, { k.2 with fecCorrected := 0, replays := 0, uncorrected := 0, forwarded := 0, discarded := 0 }) } })) ∧
  (∀ s, opens .owner 0x900060 s = true →
    exec .mapClearCounts s = .next (after s { s with map := { s.map with
      commits := 0, elections := 0, teardowns := 0, redirects := 0, forwards := 0, catchFails := 0 } })) ∧
  (∀ acc s, opens acc 0xA00050 s = true →
    exec (.ckpClearCounts acc) s = .next (after s { s with ckp := { s.ckp with
      written := 0, shared := 0, restored := 0, failedN := 0 } })) ∧
  (∀ s, opens .owner 0xB010E0 s = true →
    exec .secAudClearCounts s = .next (after s { s with sec := { s.sec with noRing := 0, stalled := 0 } })) ∧
  (∀ acc s, opens acc 0xC00040 s = true →
    exec (.errClearCounts acc) s = .next (after s { s with err := { s.err with
      ue := [], cellFences := 0, tileFences := 0, ctxFaults := 0, sesLost := 0 } })) ∧
  (∀ s, opens .owner 0xD00010 s = true →
    exec .clearPeak s = .next (after s { s with pwr := { s.pwr with peakW := 0 } })) ∧
  (∀ acc val s, opens acc 0xF00008 s = true →
    exec (.limTermSel acc val) s = .next (after s (modAcc acc (fun a => { a with
      termSel := wfield val 0 3, termSnap := findD (wfield val 0 3) s.lim.hist emptyBins }) s))) ∧
  (∀ acc s, opens acc 0xF00068 s = true →
    exec (.limClearHist acc) s = .next (after s { s with lim := { s.lim with hist := [], measured := 0, unmeasured := 0 } }) ∧
    exec (.clearPeaks acc) s = .next (after s { s with lim := { s.lim with
      peaks := (List.range 32).map fun i => (i, min (limitNow s i) (2 ^ 24 - 1)), hits := [] } }))

/-- For a tack that has passed the checks before its own, at state u. OPEN of a context that the image names, with a budget, on a
job that is committed or none and with a free index, makes the entry. TURN with inline input, no deadline before the time is
known, a session, context and adapter that take it and room in the queue, is enqueued at its arrival time with the next
TURN_SEQ. PARK to tier 2 of an EMBER session that is not pinned and has no turn or copy starts a banking. WAKE of a BANKED
session queues its wake, of a BANKING one cancels the banking. KINDLE of a BANKED session, within the bound, sets KINDLED and
KINDLE_AT, the arrival time plus ETA less the revive estimate, and answers it. PIN of an EMBER session of class 0, within the
bound and TOP_CLASS, sets PINNED; UNPIN clears it. MOVE to another compute member of the committed epoch makes the session
MOVING, its source this module, and sends the entry and its storage. CLOSE of a LIVE session waits for the boundary, of any
other that is not MOVING it closes now. CONFIRM of the winner, and RESOLVE of any copy that answered, settle a dispute at the
slot home. (R52, R53, R57, R61, R63, R64, R68, R80, R253, R352; basis: derived.) -/
def Obligations.SessionTacksComplete : Prop :=
  (∀ h b s t u cfg img budget idx, served h (.openSes b) s = some (t, u) →
    ctxCfg? u b.ctx = some cfg → u.img.active = some img → cfg.budgetFor (attnLayers img b.ctx) b.budget = some budget →
    freeIndex? u = some idx →
    (∀ j, (jobOfQp u h.qp).bind (job? u) = some j →
      j.map.state = 2 ∧ ∃ m, ownMember u j.map = some m ∧ m.mstate = 0) →
    exec (.openTack h b) s = .next (after s (openAt h b cfg budget idx (jobOfQp u h.qp) u))) ∧
  (∀ h b x s t u idx ses ver, served h (.turn b) s = some (t, u) → b.input = .inline x → turnBodyBad b = false →
    (b.deadline = 0 ∨ u.clk.everLocked = true) → byHandle? u h.handle = some (idx, ses) → stateRefuses ses.e = none →
    contextRefuses u ses.e.ctx = none → bindFor u ses.e = some ver →
    1 ≤ b.inputCount → b.inputCount ≤ 262144 → ses.e.length + b.inputCount + 1 ≤ maxPositions u ses.e.ctx →
    queueFull u = false →
    exec (.turn h b) s = .next (after s (enqueueTurn h 2 t
      { cls := turnClass b.cls ses, deadline := b.deadline, maxTokens := b.maxTokens, stops := b.stops, samp := b.samp,
        ids := idsOf b.inputCount x } idx ses ver (ses.e.turnSeq + 1) u))) ∧
  (∀ h s t u idx x, served h (.park 2) s = some (t, u) → names h idx x u → x.e.state = .ember → x.e.pinned = false →
    x.e.turnAdmitted = false → x.copyUp = false →
    exec (.park h 2) s = .next (after s (completeOp h 3 0 (startBanking idx 2 false u)))) ∧
  (∀ h s t u idx x, served h .wake s = some (t, u) → names h idx x u →
    (x.e.state = .banked → exec (.wake h) s = .next (after s (completeOp h 4 0 (queueWake idx 6 0 u)))) ∧
    (x.e.state = .banking → exec (.wake h) s = .next (after s (completeOp h 4 0 (cancelBanking idx u))))) ∧
  (∀ h eta s t u idx x, served h (.kindle eta) s = some (t, u) → names h idx x u → sess? u idx = some x →
    x.e.state = .banked → (x.e.kindled = true ∨ kindleCount u < kindleLimit u) →
    exec (.kindle h eta) s = .next (after s (
      let k := max t (t + eta * 1000 - reviveEst u x.e.place)
      completeOp h 5 0 (modSess idx (fun x => { x with
        e := { x.e with kindled := true, kindleAt := k }, kindleEta := t + eta * 1000 }) u) { a := k }))) ∧
  (∀ h s t u idx x, served h .pin s = some (t, u) → names h idx x u → x.e.state = .ember → x.e.cls = 0 →
    (h.fwd.isSome = true ∨ topClass u h.qp = 0) → pinnedCount u < pinLimit u →
    exec (.pin h) s = .next (after s (completeOp h 6 0 (modEntry idx (fun e => { e with pinned := true }) u)))) ∧
  (∀ h s t u idx x, served h .unpin s = some (t, u) → names h idx x u → x.e.state ≠ .moving → x.e.state ≠ .suspect →
    exec (.unpin h) s = .next (after s (completeOp h 7 0 (modEntry idx (fun e => { e with pinned := false }) u)))) ∧
  (∀ h dest s t u idx x n j, served h (.move dest) s = some (t, u) → names h idx x u →
    (x.e.state = .ember ∨ x.e.state = .banked) → x.e.pinned = false → x.e.turnAdmitted = false → x.copyUp = false →
    x.job = some n → job? u n = some j → j.map.state = 2 → dest ≠ selfNode u →
    (j.map.members.any fun m => m.node = dest && bit m.roles 0) = true →
    exec (.moveTack h dest) s = .next (after s (
      let v := labDropSess idx (stopTransfers idx u)
      let mv : MoveInfo := { source := true, peer := dest, job := n, epoch := x.e.ownerEpoch, due := now v + moveTimeout v }
      let v := modSess idx (fun x => { x with
        e := { clearKindle x.e with state := .moving, prior := x.e.state }, mv := some mv }) v
      let e := match sess? v idx with | some y => y.e | none => x.e
      completeOp h 8 0 (sendSession dest n (.storage x.e.handle) (sendSession dest n (.offer e) v))))) ∧
  (∀ h s t u idx x, served h .close s = some (t, u) → names h idx x u →
    (x.e.state = .live →
      exec (.closeTack h) s = .next (after s (completeOp h 9 0 (modSess idx (fun x => { x with closeReq := true }) u)))) ∧
    (x.e.state ≠ .live → x.e.state ≠ .moving →
      exec (.closeTack h) s = .next (after s (completeOp h 9 0 (closeNow idx u))))) ∧
  (∀ h node s u idx x n j d w, settles h (.confirm node) s = some u → byHandle? u h.handle = some (idx, x) →
    x.job = some n → job? u n = some j → homeNode u j.map h.handle = selfNode u →
    u.ses.disputes.find? (·.handle = h.handle) = some d → d.done = true → d.winner = some w → w.1 = node →
    exec (.confirm h node) s = .next (after s (completeOp h 0x0A 0 (settle d node u)))) ∧
  (∀ h node s u idx x n j d, settles h (.resolve node) s = some u → byHandle? u h.handle = some (idx, x) →
    x.job = some n → job? u n = some j → homeNode u j.map h.handle = selfNode u →
    u.ses.disputes.find? (·.handle = h.handle) = some d → d.done = true → (d.answers.any fun a => a.node = node) = true →
    exec (.resolve h node) s = .next (after s (completeOp h 0x0B 0 (settle d node u))))

/-- BANKING_COMPLETE of a banking to T2 with room makes the session BANKED in place 2 with its description. BANKING_WRITE_FAIL
makes a BANKING session EMBER again and logs it. WAKE_START begins the least waiting wake while fewer than 64 run.
WAKE_COMPLETE of a running wake with its storage, whose stripe reads back with its digest, makes it EMBER, in T0 for an
admitted turn, else T1; another fails as WAKE_FAILED does. WAKE_FAILED makes it BANKED again and ends its turn with
STATE_UNREADABLE. COPY_TO_T0_COMPLETE puts a session that is copied up into T0. KINDLE_AT_REACHED wakes a kindled BANKED
session in group 2, and copies up an EMBER one. KINDLE_HOLD_EXPIRED clears the kindle. PRESSURE_RULE starts bankings while
projected free T1 is low. STORAGE_RECLAIMED frees an ASH session's storage that no capture reads, and its entry unless it
moved and is kept still. MOVE_KEEP_EXPIRED frees the entry of an ASH session that moved and is reclaimed. SES_INSPECT_INDEX
takes a snapshot of the entry for its accessor, SEED_KEY zero for a host. (R55, R56, R57, R59, R60, R61, R62, R75; basis:
derived.) -/
def Obligations.SessionTimesAndTransfersComplete : Prop :=
  (∀ idx s x, sess? s idx = some x → x.e.state = .banking → x.bankTier = some 2 →
    (let w := wtOf s x.e.ctx
     let f := fmtOf s x.e.ctx
     let n := stripeTiles w f x.st
     t2Room s n = true → ∀ first, stripePlace s n = some first →
      exec (.bankingComplete idx) s = .next (after s (
        let u := writeStripe (contextKey s x.e.ctx) first (stripe w f x.st) (takeT2 n s)
        let d := descOf w f 2 x.e.ctx idx 0 first x.st
        placeSess idx (retile idx (modSess idx (fun x => { x with
          e := { x.e with state := .banked, place := 2 }, desc := some d,
          bankTier := none, bankPress := false, st := bankedIn (rowListBytes idx x.st.rows) x.st }) (freeSpilled x u)))))) ) ∧
  (∀ idx s x, sess? s idx = some x → x.e.state = .banking →
    exec (.bankingWriteFail idx) s = .next (after s (logAll 2 4 (unitChip 0x35) 0x0105 0 (modSess idx (fun x => { x with
      e := { x.e with state := .ember }, bankTier := none, bankPress := false, desc := none }) s)))) ∧
  (∀ s idx x, wakesRun s < 64 → nextWake? s = some (idx, x) →
    exec .wakeStart s = .next (after s (beginWake idx x s))) ∧
  (∀ idx s x w, sess? s idx = some x → x.e.state = .waking → x.wake = some w → w.running = true →
    allocWaits s idx = false → ∀ d b, x.desc = some d → stripeBack s x d = some b →
    (sha256 b = d.digest → exec (.wakeComplete idx) s = .next (after s (markReady (
      let p := if x.e.turnAdmitted then 0 else 1
      let a := attnCount s x.e.ctx
      placeSess idx (retile idx (modSess idx (fun x => { x with
        e := { x.e with state := .ember, place := p }, wake := none, desc := none, got := [],
        st := placedIn a p { x.st with rows := listedRows x.st.rowList x.st.rows } }) (freeDesc x s))))))) ∧
    (sha256 b ≠ d.digest → exec (.wakeComplete idx) s = .next (after s (markReady (wakeFailed idx s))))) ∧
  (∀ idx s x w, sess? s idx = some x → x.e.state = .waking → x.wake = some w → w.running = true →
    exec (.wakeFailed idx) s = .next (after s (logTo [x.e.tenant] 2 4 (unitChip 0x35) 0x0304 idx (endTurnNow idx 0x1C
      (modSess idx (fun x => { x with e := { x.e with state := .banked }, wake := none, got := [] }) (t1Ask idx [] s)))))) ∧
  (∀ idx s x, sess? s idx = some x → x.copyUp = true →
    exec (.copyToT0Complete idx) s = .next (after s (markReady (placeSess idx (retile idx (modSess idx (fun x => { x with
      e := { x.e with place := 0 }, copyUp := false,
      st := { x.st with
        rows := x.st.rows.map (fun r =>
          { r with pages := r.pages.map fun p => if p.tier = 1 then { p with tier := 0 } else p }),
        recBacked := true, recDirty := [] } }) s)))))) ∧
  (∀ idx s x, sess? s idx = some x → x.e.kindled = true →
    (x.e.state = .banked → exec (.kindleAtReached idx) s = .next (after s (
      queueWake idx 2 x.e.kindleAt (advance x.e.kindleAt s)))) ∧
    (x.e.state = .ember → exec (.kindleAtReached idx) s = .next (after s (startCopy idx (advance x.e.kindleAt s)))) ∧
    exec (.kindleHoldExpired idx) s = .next (after s (modEntry idx (fun e => { e with kindled := false, kindleAt := 0 })
      (advance (x.kindleEta + wfield s.regs.sesCfg 34 16 * 1000000) s)))) ∧
  (∀ s, (s.ses.pressing = true ∨ projectedFree s < wfield s.regs.sesCfg 0 12 * 2 ^ 30) →
    exec .pressureRule s = .next (after s (pressOn 33 { s with ses := { s.ses with pressing := true } }))) ∧
  (∀ idx s x, sess? s idx = some x → x.e.state = .ash → x.reclaimed = false →
    captureReads s x.e.handle = false →
    exec (.storageReclaimed idx) s = .next (after s (
      let v := setT1 idx [] (freeDesc x (freeKept x (freeSpilled x s)))
      let v := modSess idx (fun x => { x with e := { x.e with reclaimed := true }, reclaimed := true, st := {}, desc := none }) v
      if !x.e.moved || decide (x.ashAt + wfield v.regs.sesCfg 50 14 * 1000000 ≤ now v) then freeEntry idx v else v))) ∧
  (∀ idx s x, sess? s idx = some x → x.e.state = .ash → x.e.moved = true → x.reclaimed = true →
    exec (.moveKeepExpired idx) s = .next (after s (freeEntry idx
      (advance (x.ashAt + wfield s.regs.sesCfg 50 14 * 1000000) s)))) ∧
  (∀ acc val s x, opens acc 0x28 s = true → val.toNat % 2 ^ 21 < tableMax s → sess? s (val.toNat % 2 ^ 21) = some x →
    exec (.sesInspectIndex acc val) s = .next (after s (modAcc acc (fun a => { a with
      inspectIdx := val.toNat % 2 ^ 21, inspectTenant := x.e.tenant,
      inspect := match acc with
        | .host _ => (entryBytes x).take 96 ++ zeros 16 ++ (entryBytes x).drop 112
        | _ => entryBytes x }) s)))

/-- While an image is active: MOVE_OFFER at a compute member of the committed epoch that has the context, a free index and no copy
but ASH makes an unpinned entry in MOVING. MOVE_STORAGE_RECEIVED at a destination of place 2 with room stores the stripe and
tells the slot home; where that is this module, or there is none, it writes epoch e + 1 and sends the acknowledgement (log
entry 167). MOVE_ACK of e + 1 makes the source ASH and MOVED and sends the release. MOVE_RELEASE at a destination that
acknowledged begins service in the prior state. MOVE_TIMEOUT sends one query. MOVE_QUERY is answered. MOVE_QUERY_ANSWER
commits the move at the source, or cancels it there. MOVE_QUERY_TIMEOUT and MOVE_RELEASE_TIMEOUT make the copy SUSPECT and
report it. MOVE_CANCEL discards a copy that was not acknowledged. SUSPECT_REPORT of a member at the slot home opens a dispute.
CLAIM_QUERY makes a copy held here SUSPECT and answers it. CLAIM_ANSWER adds one answer of each node to an open collection.
CLAIM_COLLECTION_END names the highest-ranked answer the winner, tells the tenant and completes what waited with SUSPECT, or
drops a collection that no answer ranks in. DISPUTE_SETTLE confirms the winner's SUSPECT copy here at the larger epoch, EMBER
where its prior state was MOVING, and makes a loser's ASH. (R54, R57, R64, R65, R66, R67, R68; basis: derived.) -/
def Obligations.MovesAndDisputesComplete : Prop :=
  (∀ src job e s j idx m, imageOn s = true → job? s job = some j → freeIndex? s = some idx → j.map.state = 2 →
    ownMember s j.map = some m → bit m.roles 0 = true → (ctxCfg? s e.ctx).isSome = true →
    (∀ p, byHandle? s e.handle = some p → p.2.e.state = .ash) →
    exec (.moveOffer src job e) s = .next (after s (
      let e' := { clearKindle e with
        state := .moving, pinned := false, index := idx, lane := 0xFFFF, place := if e.prior = .banked then 2 else 1,
        forwardNode := 0, moved := false, reclaimed := false, mapEpoch := j.map.epoch }
      let mv : MoveInfo := { source := false, peer := src, job := job, epoch := e.ownerEpoch, due := 0 }
      let x : Sess := { e := e', job := some job, mv := some mv }
      placeSess idx { s with ses := { s.ses with table := putN idx x s.ses.table } }))) ∧
  (∀ h st s idx x m, imageOn s = true → byHandle? s h = some (idx, x) → x.mv = some m → x.e.state = .moving → m.source = false →
    m.ackSent = false → m.placed = false → x.e.place = 2 →
    (let w := wtOf s x.e.ctx
     let f := fmtOf s x.e.ctx
     let n := stripeTiles w f st
     t2Room s n = true → ∀ first, stripePlace s n = some first →
      exec (.moveStorageReceived h st) s = .next (after s (
        let u := writeStripe (contextKey s x.e.ctx) first (stripe w f st) (takeT2 n s)
        let d := descOf w f 2 x.e.ctx idx 0 first st
        let v := retile idx (modSess idx (fun x => { x with
          st := bankedIn (rowListBytes idx st.rows) st, desc := some d,
          mv := some { m with placed := true } }) u)
        let home := (job? v m.job).map fun j => homeNode v j.map h
        let v := locate h (m.epoch + 1) (.moved h) (some m.job) v
        if home = some (selfNode v) || home.isNone then ackMove idx v else v)))) ∧
  (∀ h s idx x m, imageOn s = true → inMove s h true = some (idx, x, m) →
    exec (.moveAck h (m.epoch + 1)) s = .next (after s (moveCommitted idx m s))) ∧
  (∀ h s idx x m, imageOn s = true → inMove s h false = some (idx, x, m) → m.ackSent = true →
    exec (.moveRelease h) s = .next (after s (modSess idx (fun x => { x with
      e := { x.e with state := x.e.prior }, mv := none }) s)) ∧
    exec (.moveReleaseTimeout h) s = .next (after s (reportSuspect idx (suspendKeep idx (advance m.due s))))) ∧
  (∀ h s idx x m, imageOn s = true → inMove s h false = some (idx, x, m) → m.ackSent = false →
    exec (.moveCancel h) s = .next (after s (freeEntry idx s))) ∧
  (∀ h s idx x m, inMove s h true = some (idx, x, m) → m.queried = false →
    exec (.moveTimeout h) s = .next (after s (sendSession m.peer m.job (.query h) (modSess idx (fun x => { x with
      mv := some { m with queried := true, due := now (advance m.due s) + moveTimeout s } }) (advance m.due s))))) ∧
  (∀ h s idx x m, imageOn s = true → inMove s h true = some (idx, x, m) → m.queried = true →
    exec (.moveQueryAnswer h true) s = .next (after s (moveCommitted idx m s)) ∧
    exec (.moveQueryAnswer h false) s = .next (after s (modSess idx (fun x => { x with
      e := { x.e with state := x.e.prior }, mv := none }) (sendSession m.peer m.job (.cancel h) s))) ∧
    exec (.moveQueryTimeout h) s = .next (after s (reportSuspect idx (suspendKeep idx (advance m.due s))))) ∧
  (∀ src job h s, imageOn s = true →
    exec (.moveQuery src job h) s = .next (after s (sendSession src job (.queryAnswer h (holdsCommitted s h)) s))) ∧
  (∀ src job h s j, imageOn s = true → job? s job = some j → j.map.state = 2 → homeNode s j.map h = selfNode s → (j.map.members.any (·.node = src)) = true →
    exec (.suspectReport src job h) s = .next (after s (openDispute h job s))) ∧
  (∀ home job h s idx x a, imageOn s = true → byHandle? s h = some (idx, x) → claimOf s h = some a →
    exec (.claimQuery home job h) s = .next (after s (sendSession home job (.claimAnswer h a) (suspend idx s)))) ∧
  (∀ h a s, imageOn s = true →
    exec (.claimAnswer h a) s = .next (after s { s with ses := { s.ses with disputes := s.ses.disputes.map fun d =>
      if d.handle = h && !d.done && !(d.answers.any (·.node = a.node)) then { d with answers := d.answers ++ [a] } else d } })) ∧
  (∀ h s d w, (s.ses.disputes.find? fun d => d.handle = h && !d.done) = some d → (d.answers.any ranks) = true →
    disputeWinner d.answers = some w →
    exec (.claimCollectionEnd h) s = .next (after s (
      let v := advance d.due s
      let d' : Dispute := { d with done := true, winner := some w, waiting := [] }
      let v := { v with ses := { v.ses with disputes := v.ses.disputes.map fun x => if x.handle = h then d' else x } }
      d.waiting.foldl (fun s q => complete q.1 q.2 0x13 s)
        (logTo [disputeTenant v d] 1 7 (unitChip 0x40) 0x0301 (w.1 + w.2 % 2 ^ 48 * 65536) v)))) ∧
  (∀ h s d, (s.ses.disputes.find? fun d => d.handle = h && !d.done) = some d → (d.answers.any ranks) = false →
    exec (.claimCollectionEnd h) s = .next (after s (
      let v := advance d.due s
      d.waiting.foldl (fun s q => complete q.1 q.2 0x10 s)
        { v with ses := { v.ses with disputes := v.ses.disputes.filter (·.handle ≠ h) } }))) ∧
  (∀ h winner epoch s idx x, imageOn s = true → byHandle? s h = some (idx, x) → x.e.state = .suspect →
    (winner = selfNode s →
      exec (.disputeSettle h winner epoch) s = .next (after s (
        let st (e : Entry) : SesState := if e.prior = .moving then .ember else e.prior
        let lane : Nat := ((s.stp.lanes.find? fun l => l.2.turn.idx = idx).map (·.1)).getD 0xFFFF
        emberPlace idx (modSess idx (fun x => { x with
          e := { x.e with
            state := st x.e, lane := if st x.e = .live then lane else 0xFFFF,
            ownerEpoch := max x.e.ownerEpoch epoch }, mv := none }) s)))) ∧
    (winner ≠ selfNode s →
      exec (.disputeSettle h winner epoch) s = .next (after s (toAsh idx (endTurnNow idx 0x2B s)))))

/-- ARBITER_GRANT grants the winner, moves the pointer past it and makes the granted accesses of one bank cycle. On tiles 0 to 47:
KV_SPILL of a tile whose spill is due (below SPILL_LOW, or on its way to SPILL_HIGH) with no whole session to leave spills
rows; PAGE_SPILL_COMPLETE frees the T0 copies of the row's pages on the tile that a transfer has copied, and puts them in T1;
PAGE_BRING_BACK brings rows back from the highest; SESSION_SPILL_T1 of such a tile starts moves of whole sessions, and its
completion puts the session in place 1. LONG_ROW_SPILL moves rows beyond LONG_T1_ROWS to T2. T1_ALLOC_GRANT grants the head of
the queue where its tiles are free. ALLOC_WAIT warns once of a waiting allocation. SCRUB_PERIOD_END ends the pass and starts
the next period. UE_T1 counts the read, logs it and, below the package's threshold, costs what its area holds; UE_T2 counts
and logs and costs what its block holds: a spilled row its session, a waking stripe its wake, an object itself, else what read
it; BLOCK_RETIRE retires the block, and fences the channel with no spare left. (R17, R156, R157, R158, R173, R177, R181, R185,
R186, R191, R431; basis: derived.) -/
def Obligations.SpillAndStorageCommandsComplete : Prop :=
  (∀ arb reqs accs i s, arbExists arb = true → winner s arb reqs = some i →
    exec (.arbiterGrant arb reqs accs) s = .next (after s (bankCycle (accs.filter fun a => accessOk a && accessGranted arb (some i) a)
      { s with mem := { s.mem with arbPtr := put arb (i + 1) s.mem.arbPtr } }))) ∧
  (∀ t s, t < 48 →
    (kvFree s t < spillLow s ∨ (t ∈ s.mem.spilling ∧ kvFree s t < spillHigh s)) →
    let u : State := { s with mem := { s.mem with spilling := addTo t s.mem.spilling } }
    (sessionVictim u t = none → exec (.kvSpill t) s = .next (after s (spillOn (spillRows u t).length t u))) ∧
    exec (.sessionSpillT1 t) s = .next (after s (sessionSpillOn 17 t u))) ∧
  (∀ idx v t s x, t < 48 → sess? s idx = some x → allocWaits s idx = false →
    let lands (r : Row) (p : Page) : Bool := decide (r.v = v) && p.dma && pageOnTile t p
    let n := sumN (x.st.rows.map fun r => r.pages.countP (lands r))
    n ≠ 0 →
    exec (.pageSpillComplete idx v t) s = .next (after s (retile idx
      (modPages idx lands (fun p => { p with tier := 1, dirty := [], dma := false })
        { s with atn := { s.atn with spilled := sat (s.atn.spilled + n) 32 } })))) ∧
  (∀ t s, t < 48 →
    exec (.pageBringBack t) s = .next (after s (bringBack (sumN (s.ses.table.map fun p => p.2.st.rows.length)) t s))) ∧
  (∀ idx s, exec (.longRowSpill idx) s = .next (after s (longSpill 8192 idx s))) ∧
  (∀ q l s, s.mem.queue = q :: l → tilesFit s q.idx q.tiles = true →
    exec .t1AllocGrant s = .next (after s (setT1 q.idx (t1Held s q.idx ++ q.tiles) { s with mem := { s.mem with queue := l } }))) ∧
  (∀ q s, s.mem.queue.find? (fun q => !q.warned) = some q →
    exec .allocWait s = .next (after s (
      let u := advance (q.since + wfield s.regs.memCfg 0 16 * 1000000) s
      let u := { u with mem := { u.mem with
        queue := u.mem.queue.map fun x => if x.idx = q.idx then { x with warned := true } else x } }
      logAll 1 4 (unitChip 0) 0x010B u.mem.queue.length u))) ∧
  (∀ idx s x, sess? s idx = some x → x.spillT1 = true → x.e.state = .ember → allocWaits s idx = false →
    exec (.sessionSpillT1Complete idx) s = .next (after s (placeSess idx (retile idx (modSess idx (fun x => { x with
      e := { x.e with place := 1 }, spillT1 := false, st := { x.st with recBacked := true, recDirty := [] } })
      (modPages idx (fun _ p => decide (p.tier = 0)) (fun p => { p with tier := 1, dirty := [], dma := false }) (labDropSess idx s))))))) ∧
  (∀ s, powered s = true → exec .scrubPeriodEnd s = .next (after s (scrubEnds s))) ∧
  (∀ addr area (s : State) recent, addr < 0x18000000000 →
    recent = (s.err.t1Ues.filter fun x => decide (now s < x.2 + 1000000000)) ++ [(packageOf s addr, now s)] →
    (recent.filter fun x => decide (x.1 = packageOf s addr)).length < max 1 (wfield s.regs.errCfg 10 8) →
    exec (.ueT1 addr area) s = .next (after s (areaLost area addr (unitT1 s addr) (logAll 2 4 (unitT1 s addr) 0x0104 addr { s with
      mem := { s.mem with t1Ue := sat (s.mem.t1Ue + 1) 24 },
      err := { s.err with t1Ues := recent } })))) ∧
  (∀ ch block s, ch < 32 →
    exec (.ueT2 ch block) s = .next (after s (
      let u := logAll 2 4 (unitChannel ch) 0x0105 block (modChan ch (fun c => { c with readFail := sat (c.readFail + 1) 16 }) s)
      if rowsInBlock u ch block ≠ [] then loseMany (rowsInBlock u ch block) (unitChannel ch) 4 u
      else if wakesOf u ch block ≠ [] then (wakesOf u ch block).foldl (fun s i => wakeFailed i s) u
      else match objInBlock u ch block with
        | some o => loseObj o u
        | none => vecReadFail ch block u))) ∧
  (∀ ch block s, ch < 32 → block < chanBlocks →
    exec (.blockRetire ch block) s = .next (after s (
      let u := modChan ch (fun c => { c with retired := c.retired + 1, wear := c.wear + 1 }) s
      if (chanOf u ch).retired ≥ spareBlocks then fenceChannel ch u else u)))

/-- Where the accessor may write the register. OBJ_CREATE of a legal kind, tier and region with room makes the object under the
next free number and answers OK and DONE. OBJ_MOVE of an object that is not busy, to the other tier with room, of one that is
not pinned for T2 and that no context is loading from, begins the copy, with OK and DONE clear. OBJ_PIN and OBJ_UNPIN of one
that is not busy set and clear its pin. OBJ_FREE of one that no load, RESIDENT context or live adapter needs takes it out. The
end of the transfers puts it in its new tier and sets DONE where the accessor's last call is this one. BANK_HANDOVER that
passes the checks is PENDING with its new owner, use and context, and takes effect at its end, once its KV pages have left it,
the bank cleared where its context changes or it becomes free. (R179, R182, R202, R203, R207, R208; basis: derived.) -/
def Obligations.PlacementAndHandoverCommandsComplete : Prop :=
  (∀ acc kind tier region size s, opens acc 0x400060 s = true → kind ≤ 4 → (tier = 1 ∨ tier = 2) → (region < 8 ∨ region = 0xF) →
    let id := nextObjId s
    let o : Obj := { id := id, kind := kind, tier := tier, region := region, size := size }
    objRoom s o tier = true →
    exec (.objCreate acc kind tier region size) s = .next (after s (
      objResult acc 1 id tier true (if tier = 2 then reserveT2 o (addObj o s) else addObj o s)))) ∧
  (∀ acc tier s o, opens acc 0x400060 s = true → obj? s o.id = some o → o.busy = none → (tier = 1 ∨ tier = 2) → tier ≠ o.tier →
    (tier = 2 → o.pinned = false) → sourceIn s o [2] = false → objRoom s o tier = true →
    exec (.objMove acc o.id tier) s = .next (after s (
      let u := modObj o.id (fun o => { o with busy := some (acc, 1, tier) }) s
      objResult acc 1 o.id o.tier false (if tier = 2 then reserveT2 o u else u)))) ∧
  (∀ acc s o, opens acc 0x400060 s = true → obj? s o.id = some o → o.busy = none →
    exec (.objPin acc o.id) s = .next (after s (objResult acc 1 o.id o.tier true (modObj o.id (fun o => { o with pinned := true }) s))) ∧
    exec (.objUnpin acc o.id) s = .next (after s (objResult acc 1 o.id o.tier true
      (modObj o.id (fun o => { o with pinned := false }) s))) ∧
    (sourceIn s o [2, 3] = false → adapterObj s o = false →
      exec (.objFree acc o.id) s = .next (after s (objResult acc 1 o.id o.tier true (dropObj o s))))) ∧
  (∀ id s o acc n tier, obj? s id = some o → o.busy = some (acc, n, tier) →
    exec (.objTransferDone id) s = .next (after s (
      let u := if tier = 2 then writeObj o s else releaseT2 o s
      let u := modObj id (fun o => { o with busy := none, tier := tier }) u
      if (accRegs u acc).objId = id && (accRegs u acc).objCode = 1 && !(accRegs u acc).objDone then modAcc acc (fun a => { a with objTier := tier, objDone := true }) u else u))) ∧
  (∀ acc val s, opens acc 0x400028 s = true →
    handoverRefuse s (wfield val 0 12) (wfield val 12 7) (wfield val 19 7) (wfield val 26 3) = none →
    exec (.bankHandover acc val) s = .next (after s (
      let bank := wfield val 0 12
      let u := modBank bank (fun b => { b with pending := some (acc, wfield val 19 7, wfield val 26 3, wfield val 29 2) }) s
      let u := if (bankOf u bank).use = 2 then
          (pagesIn u bank).foldl (fun s idx =>
            retile idx (modPages idx (fun _ p => pageInBank bank p) (fun p => { p with dma := true }) s)) u
        else u
      modAcc acc (fun a => { a with bankCode := 1, bankNo := bank, bankDone := false }) u))) ∧
  (∀ bank s acc owner use c, bank < 3072 → (bankOf s bank).pending = some (acc, owner, use, c) →
    (pagesIn s bank).any (allocWaits s) = false →
    exec (.bankHandoverDone bank) s = .next (after s (
      let u := emptyBank bank (modBank bank (fun b => { b with
        owner := owner, use := use, home := use, ctx := c, homeCtx := c, pending := none }) s)
      let u := if c ≠ (bankOf s bank).ctx || use = 0 then clearBank bank u else u
      if (accRegs u acc).bankNo = bank then modAcc acc (fun a => { a with bankDone := true }) u else u)))

/-- For a tack that has passed the checks before its own, at state u, with the engines enabled and the index no other member's:
VEC_CREATE of a legal descriptor with a free number and room makes the index and answers its number; VEC_DROP of an index of
the tenant marks it dropped, answers its waiting updates and its queries that are not admitted with NO_INDEX, and completes
with OK; VEC_INSERT of a legal vector with a free slot and room takes the next SEQ and waits; VEC_DELETE of a record that is
held and not deleted takes the next SEQ into the delete log, and starts repair past half of it; VEC_QUERY of a legal query on
a sound index joins its coordinator's queue. (R211, R212, R218, R221, R224, R225, R228, R233; basis: derived.) -/
def Obligations.VectorTacksComplete : Prop :=
  (∀ h b s t u, served h (.vecCreate (.inline b)) s = some (t, u) → vecOwner u h (leAt b 8 2) = none → vecServed u = true →
    badDescriptor b = false →
    let x := readDescriptor (vecTenant u h) b
    vindex? u x.id = none → u.vec.idxs.length < 256 → vecRoom u none x = true →
    exec (.vecCreate h (.inline b)) s = .next (after s (completeOp h 0x20 0
      (program x.id [] (accountVec none (some x) { u with vec := { u.vec with idxs := u.vec.idxs ++ [x] } })) { a := x.id }))) ∧
  (∀ h id s t u x, served h (.vecDrop id) s = some (t, u) → vecOwner u h id = none → vecServed u = true →
    vecIndex u h id = some x →
    exec (.vecDrop h id) s = .next (after s (completeOp h 0x21 0 (reapIndexes
      ((x.queries.filter (!·.active)).foldl (fun s q => endQuery x q 0x42 {} s)
        (x.waiting.foldl (fun s u => answerUpd 0x42 u s)
          (sweepWork (setIndex { x with dropped := true, waiting := [], repairing := none } u)))))))) ∧
  (∀ h b s t u x slot gen, served h (.vecInsert b) s = some (t, u) → vecOwner u h b.indexId = none → vecServed u = true →
    vecIndex u h b.indexId = some x → vecDegraded u x = false →
    4 * x.dim + (if x.skKind = 1 then x.skBytes else 0) ≤ b.data.length → x.badVector (f32sAt b.data 0 x.dim) = false →
    x.nextSlot = some (slot, gen) →
    let y := x.insert h b slot gen (now u)
    let list := ((y.waiting.getLast?).map (·.list)).getD 0
    vecRoom u (some x) y = true →
    exec (.vecInsert h b) s = .next (after s (
      sendWrites y (.update y.updates) (bit b.cls 0) (y.insertChans y.updates list) (setIndex y u)))) ∧
  (∀ h id cls slot gen s t u x, served h (.vecDelete id cls slot gen) s = some (t, u) → vecOwner u h id = none →
    vecServed u = true → vecIndex u h id = some x → vecDegraded u x = false →
    (x.recs.any fun r => r.slot = slot && r.gen = gen && (x.delSeq r).isNone) = true → x.dels.length < delLogMax →
    exec (.vecDelete h id cls slot gen) s = .next (after s (
      let upd : VUpd := { seq := x.updates + 1, bulk := bit cls 0, since := now u, answer := some (h, 0x23, x.updates + 1, 0, 0) }
      let v := setIndex { x with
        updates := x.updates + 1, dels := x.dels ++ [(slot, gen, x.updates + 1)], waiting := x.waiting ++ [upd] } u
      if x.dels.length + 1 > delLogMax / 2 then startRepair id v else v))) ∧
  (∀ h r q s t u x, served h (.vecQuery r q) s = some (t, u) → vecOwner u h (leAt q 2 2) = none → vecServed u = true →
    vecIndex u h (leAt q 2 2) = some x → refRefused r = false → vecDegraded u x = false → x.badAsk q r.len = false →
    exec (.vecQuery h r q) s = .next (after s (queueQuery x h r q u)))

/-- COORDINATOR_ADMIT admits the next waiting command of an engine with a free context. FORWARDED_WORK takes the first queued item
into a context where fewer than 768 are taken, and the channel's arbiter goes on. VEC_QUERY_COMPLETE of an active query on a
sound index carries out the rest of its work in the channel engines; where none of it waits, the query ends with what the
search of its snapshot finds. BATCH_CLOSE closes a list's batch, BATCH_WAIT_MS after it opened, to be scanned once. TAIL_FLUSH
programs the tail of a list, or of a graph index, FLUSH_US after its first record. UPDATE_DURABLE makes an update that is
being programmed, and whose work waits for nothing, durable, and publishes. HORIZON_ADVANCE moves every horizon at the next
second. REPAIR_START at the next full hour (log entry 163), and VEC_REPAIR_NOW at once, start repair on every index.
VECTOR_PASS of a repair on a sound index, with repair enabled and no work of it waiting, sweeps or compacts, publishes and
logs it. (R218, R223, R224, R226, R228, R229, R232, R242; basis: derived.) -/
def Obligations.VectorEngineWorkCompletes : Prop :=
  (∀ ch s p, ch < 32 → engCoord s ch < coordMax → nextCommand? ch s = some p →
    exec (.coordinatorAdmit ch) s = .next (after s (admitQuery p.1 p.2.qseq s))) ∧
  (∀ ch s w, ch < 32 → engFwd s ch < 768 → ((engWork s ch).find? fun w => decide (w.stage = .queued)) = some w →
    exec (.forwardedWork ch) s = .next (after s (
      let used := ((engWork s ch).filter (!·.own)).filterMap VWork.ctx?
      issueNand ch 256 (setStage w (.ready (leastOut used 768 256)) s)))) ∧
  (∀ id n s x q, vindex? s id = some x → (x.queries.find? fun q => q.qseq = n && q.active) = some q → vecDegraded s x = false →
    let v := finishWork id n (x.bound q) s
    ∀ y r, vindex? v id = some y → (y.queries.find? fun q => q.qseq = n && q.active) = some r → queryThrough v y r = true →
    exec (.vecQueryComplete id n) s = .next (after s (
      let f := y.search (y.queryVec r.raw) (y.querySketch r.raw) r.snap (readAsk r.raw)
      endQuery y r (foundStatus (readAsk r.raw) f) f v))) ∧
  (∀ ch id l s x b, ch < 32 → vindex? s id = some x → (x.batches.find? fun b => b.list = l && !b.closed) = some b →
    x.chanOf l = ch →
    exec (.batchClose ch id l) s = .next (after s (closeBatch x b (advance (b.opened + batchWait s) s)))) ∧
  (∀ id l s x t, vindex? s id = some x →
    let tail (u : VUpd) : Bool := (x.graph || decide (u.list = l)) && u.pos.isSome && !x.programming u
    ((x.waiting.filter tail).map (·.since)).min? = some t →
    exec (.tailFlush id l) s = .next (after s (setIndex { x with
      waiting := x.waiting.map fun u => if tail u then { u with flushed := true } else u } (advance (t + flushWait s) s)))) ∧
  (∀ id n s x, vindex? s id = some x → workWaits s id (.update n) = false → vecDegraded s x = false →
    let v := endReads (fun w => decide (w.idx = id) && decide (w.owner = .update n)) s
    ∀ y, vindex? v id = some y →
    exec (.updateDurable id n) s = .next (after s (publish id (program id [n] (setIndex { y with
      waiting := y.waiting.map fun u => if decide (u.seq = n) && y.programming u then { u with durable := true } else u } v))))) ∧
  (∀ s, exec .horizonAdvance s = .next (after s (
    let v := advance ((now s / 1000000000 + 1) * 1000000000) s
    v.vec.idxs.foldl (fun s x => program x.id [] (setIndex (({ x with
      horizon := max x.horizon (x.horizonAt (wfield v.regs.vecCfg 17 20 * 1000000000) (now s)) } : VIndex).reclaimAll.trimLog) s)) v))) ∧
  (∀ s, exec .repairStart s = .next (after s (
    let v := advance ((now s / 3600000000000 + 1) * 3600000000000) s
    v.vec.idxs.foldl (fun s x => startRepair x.id s) v))) ∧
  (∀ acc s, opens acc 0x500050 s = true →
    exec (.vecRepairNow acc) s = .next (after s (s.vec.idxs.foldl (fun s x => startRepair x.id s) s))) ∧
  (∀ id s x r, vindex? s id = some x → x.repairing = some r → repairOn s = true → vecDegraded s x = false →
    workWaits s id .repair = false →
    exec (.vectorPass id) s = .next (after s (
      let v := endReads (fun w => decide (w.idx = id) && decide (w.owner = .repair)) s
      let v := if x.graph then v else retireRuns id x.oldLists v
      let x := (vindex? v id).getD x
      let y := if x.graph then x.sweep r else x.compact
      let v := setIndex { y with repairing := none } v
      logTo [x.tenant] 0 4 (unitChannel (x.chanOf 0)) 0x0702 id (publish id (releaseStale id
        (program id ((List.range (y.updates - x.updates)).map (· + x.updates + 1)) v))))))

/-- HOST_LINK_UP of a link that is down and not held starts the virtual times at 0; HOST_LINK_DOWN notes the time, and 1 s later
every queue pair goes DOWN. CM_REQ with legal private data for a DOWN queue pair of the image while TX is on makes it
CONNECTING and answers REP; CM_RTU makes it READY; CM_DREQ takes a READY one DOWN and answers DREP; CM_DREP takes one in ERROR
DOWN; CONNECT_TIMEOUT and QP_ERROR_TIMEOUT take it DOWN after 1 s. CNP halves the rate of a READY queue pair, down to 1
Gbit/s; RATE_RECOVERY adds 1/64 of line rate 55 µs later. ACK_TIMEOUT, ACK_TIMEOUT after the last send, sends the
unacknowledged requests again while retries are left, and ROCE_ACK covers the first of them. RDMA_NAK takes a READY queue pair
to ERROR, logged, with DREQ sent. PEER_RDMA_REQUEST is answered with a NAK. PFC_FRAME pauses its priorities. (R243, R244,
R246, R247, R248, R251, R274; basis: derived.) -/
def Obligations.QueuePairCommandsComplete : Prop :=
  (∀ s : State, s.hst.linkUp = false → s.pwr.osfpHeld = false →
    exec .hostLinkUp s = .next (after s (
      let v := modPort 0 (fun p => { p with v := 0, maxF := 0, queues := p.queues.map fun q => (q.1, { q.2 with fLast := 0 }) }) s
      { v with hst := { v.hst with linkUp := true } }))) ∧
  (∀ s : State, s.hst.linkUp = true →
    exec .hostLinkDown s = .next (after s { s with hst := { s.hst with linkUp := false, downAt := now s } })) ∧
  (∀ s : State, s.hst.linkUp = false →
    exec .qpLinkDownTimeout s = .next (after s (
      let v := advance (s.hst.downAt + 1000000000) s
      (v.hst.qps.filter (·.2.st ≠ 0)).foldl (fun s q => leaveReady q.1 0 s) v))) ∧
  (∀ priv remote ip (s : State), s.hst.txOn = true → 12 ≤ priv.length → leAt priv 0 4 = 0x4B434154 → 1 ≤ leAt priv 6 1 →
    leAt priv 6 1 ≤ 4 → leAt priv 4 2 ≤ 16383 → (qpCfg? s (leAt priv 4 2)).isSome = true →
    (((List.range (min (leAt priv 6 1) 4)).map fun i => leAt priv (8 + i) 1).any versionOk) = true →
    (qpOf s (leAt priv 4 2)).st = 0 →
    exec (.cmReq priv remote ip) s = .next (after s (
      let qp := leAt priv 4 2
      sendCm qp 1 (le 0x4B434154 4 ++ le qp 2 ++ le 0x48 1 ++ zeros 1 ++ le 65536 4 ++ le (creditsPerQp s) 2)
        (modQp qp (fun q => { q with
          st := 1, gen := q.gen + 1, version := 0x48, remote := remote, tcls := ip.cls, flow := ip.flow, since := now s, rate := lineRate,
          lastCnpOut := none, lastCnpIn := now s }) s)))) ∧
  (∀ qp s, (qpOf s qp).st = 1 →
    exec (.cmRtu qp) s = .next (after s (modQp qp (fun q => { q with st := 2, since := now s }) s)) ∧
    exec (.connectTimeout qp) s = .next (after s (moveQp qp 1 0 (advance ((qpOf s qp).since + 1000000000) s)))) ∧
  (∀ qp s, (qpOf s qp).st = 3 →
    exec (.cmDrep qp) s = .next (after s (modQp qp (fun q => { q with st := 0, since := now s }) s)) ∧
    exec (.qpErrorTimeout qp) s = .next (after s (moveQp qp 3 0 (advance ((qpOf s qp).since + 1000000000) s)))) ∧
  (∀ qp s, (qpOf s qp).st = 2 →
    exec (.cmDreq qp) s = .next (after s (sendCm qp 5 [] (leaveReady qp 0 s))) ∧
    exec (.cnp qp) s = .next (after s (modQp qp (fun q => { q with rate := max 1000000000 (q.rate / 2), lastCnpIn := now s }) s)) ∧
    exec (.rdmaNak qp) s = .next (after s (logTo [tenantOf s qp] 1 6 (unitChip 0x30) 0x0601 qp
      (pushCtl (.cm (0x10000 + qp) [] 4) 324 (leaveReady qp 3 s)))) ∧
    (∀ kind, exec (.peerRdmaRequest qp kind) s =
      .next (after s (pushCtl (.nak qp (if kind ≤ 2 then 2 else 1)) (roceLen s false 4) s))) ∧
    (∀ n, 1 ≤ n → exec (.roceAck qp n) s =
      .next (after s (modQp qp (fun q => { q with unacked := q.unacked.drop n, retries := 0 }) s)))) ∧
  (∀ qp s, (qpOf s qp).st = 2 → (qpOf s qp).rate < lineRate →
    exec (.rateRecovery qp) s = .next (after s (
      let v := advance ((qpOf s qp).lastCnpIn + 55000) s
      modQp qp (fun q => { q with rate := min lineRate (q.rate + lineRate / 64), lastCnpIn := now v }) v))) ∧
  (∀ qp s, (qpOf s qp).st = 2 → (qpOf s qp).unacked.isEmpty = false → (qpOf s qp).retries < wfield s.regs.hstCfg 11 3 →
    exec (.ackTimeout qp) s = .next (after s ((qpOf s qp).unacked.foldl (fun s o => sendAgain qp o s)
      (modQp qp (fun q => { q with retries := q.retries + 1, unacked := [] }) (advance ((qpOf s qp).sentAt + ackTimeoutNs s) s))))) ∧
  (∀ prios quanta s,
    exec (.pfcFrame prios quanta) s = .next (after s { s with hst := { s.hst with
      pfc := (bitsOf prios 8).foldl (fun l p => putN p (now s + ceilDiv (quanta * 64) 100) l) s.hst.pfc } }))

/-- SEND_MESSAGE of at most 65,536 bytes on a READY queue pair with a receive buffer free is acknowledged with its credits, and
its tacks are taken in order; a fragment is counted and dropped. NOP completes with OK. RING_SETUP of a legal result ring, or
of an event ring on the tenant's event queue pair, completes with OK and comes into being with its completion. REG_READ of a
register the tenant could read when the tack arrived (R43) answers its value; REG_WRITE of one it could write takes effect and
then completes. FETCH_COMPLETE with data of the reference's length ends the fetch, starts the READs that waited and goes on
with its tack. RING_CONSUMER_READ of a full ring that is being read takes the count and lets waiting records out.
EVENT_RING_DRAIN likewise. EGRESS_FRAME sends the host port's chosen frame and a Welt port's. GATE_ENTRY acts at the time a
gate entry is due. HIST_SAMPLE comes at the next 1 µs and, where enabled, counts one sample. (R12, R245, R250, R251, R252,
R253, R258, R260, R261, R286, R289, R292; basis: derived.) -/
def Obligations.HostTrafficCompletes : Prop :=
  (∀ qp msg dscps s, (qpOf s qp).st = 2 → msg.length ≤ 65536 → s.hst.poolUsed < 1024 →
    exec (.sendMessage qp msg { dscps := dscps } false) s = .next (after s (
      let v := if creditsUsed s qp ≥ creditsPerQp s then hit 8 s else s
      let g := (takeBuffer v).1
      let v := (takeBuffer v).2
      let r := takeTacks qp dscps g (msg.length / 32 + 1) 0 msg 0 (pushCtl (.ack qp (creditsPerQp v)) (roceLen v false 4) v)
      if r.1 = 0 then { r.2 with hst := { r.2.hst with poolUsed := r.2.hst.poolUsed - 1 } }
      else { r.2 with shp := { r.2.shp with groupLeft := putN g r.1 r.2.shp.groupLeft } }))) ∧
  (∀ qp msg dscps ce (s : State), exec (.sendMessage qp msg { dscps := dscps, frag := true } ce) s = .next (after s { s with
    hst := { s.hst with fragments := s.hst.fragments + 1 } })) ∧
  (∀ h s t u, served h .nop s = some (t, u) → exec (.nop h) s = .next (after s (completeOp h 0x3F 0 u))) ∧
  (∀ h b s t u, served h (.ringSetup b) s = some (t, u) → b.kind ≤ 1 → 6 ≤ b.log2Slots → b.log2Slots ≤ 20 →
    b.addr % (if b.kind = 0 then 64 else 32) = 0 → b.consumerAddr % 8 = 0 →
    (b.kind = 1 → (tenant? u (tenantOf u h.qp)).map (·.eventQp) = some h.qp) →
    exec (.ringSetup h b) s = .next (after s (completeOp h 0x38 0 u {} (some b)))) ∧
  (∀ h off s t d u r, servedB h (.regRead off) s = some (t, d, u) → regRow? off = some r → rightsRead d.rights r = true →
    off ≠ 0xB010B8 →
    exec (.regRead h off) s = .next (after s (completeOp h 0x30 0 u
      { a := (BitVec.ofNat 64 (regValue (.host h.qp) off u)).toNat }))) ∧
  (∀ h off val s t d u r, servedB h (.regWrite off val) s = some (t, d, u) → regRow? off = some r → rightsWrite d.rights r = true →
    exec (.regWrite h off val) s = .next (after s (completeOp h 0x31 0 (writeDefined (.host h.qp) off val u)))) ∧
  (∀ qp tag data s f, ((qpOf s qp).fetches.find? fun f => decide (f.left < readsOf f.ref) && decide (f.hdr.tag = tag)) = some f →
    data.length = f.ref.len →
    exec (.fetchComplete qp tag data) s = .next (after s (
      let v := issueReads qp f.ref (readsOf f.ref - f.left) f.left s
      fetched f data (launchReads qp
        (readsDone qp f.ref.addr f.ref.len (modQp qp (fun q => { q with fetches := q.fetches.erase f }) v)))))) ∧
  (∀ qp count s r, (qpOf s qp).result = some r → r.reading = true → (r.rkey, r.consumerAddr) ∉ (qpOf s qp).readsDue →
    exec (.ringConsumerRead qp 0 count) s = .next (after s (drainBatch (flushQp qp (settleTurns (releaseHeld qp r.held
      (launchReads qp (modQp qp (fun q => { q with result := some { r with cons := count, reading := false, held := [] } })
        (readsDone qp r.consumerAddr 8 s))))))))) ∧
  (∀ t count s qp r, eventRing? s t = some (qp, r) →
    exec (.eventRingDrain t count) s = .next (after s (deliverEvents 260 t
      (modQp qp (fun q => { q with event := some { r with cons := count } }) s)))) ∧
  (∀ (s : State) f v, s.hst.linkUp = true → s.hst.txOn = true → takeFrame 0 (fun _ => true) (unpaused s) s = (some f, v) →
    exec (.egressFrame 0) s = .next (after s (
      let w := match f.outs with
        | some o => emit o (match outQp o with
          | some q => modQp q (fun q => { q with unacked := q.unacked ++ [o], sentAt := now v }) v
          | none => v)
        | none => v
      retryEvents (match f.measure with
        | some m => tokenSent m w
        | none => w)))) ∧
  (∀ link s, link < 32 → 3 ≤ (linkOf s link).st → (linkOf s link).st ≤ 5 →
    exec (.egressFrame (link + 1)) s = .next (after s (weltEgress link s))) ∧
  (∀ p s t, p < 33 → gateDue? p s = some t → exec (.gateEntry p) s = .next (after s (syncGates p (advance t s)))) ∧
  (∀ s : State, bit s.regs.shpCfg.toNat 0 = true →
    ∃ t, exec .histSample s = .next t ∧ t.shp.samples = s.shp.samples + 1 ∧
      t.shp.lastSample = now (advance ((s.shp.lastSample / 1000 + 1) * 1000) s))

/-- For PTP messages of the configured domain and transport: PTP_SYNC with twoStepFlag from the followed master is held until its
Follow_Up; with the flag 0 it is counted as ignored. PTP_FOLLOW_UP of the held Sync, once locked, measures the offset and
slews, with an event beyond 1 ms. PTP_DELAY_RESP of the outstanding request sets the mean path delay, and takes a clock that
was unset to LOCKING with the offset measured. PTP_ANNOUNCE notes a master's priority. PTP_DELAY_REQ is sent with its
timestamp. PTP_HOLDOVER takes a locked clock to HOLDOVER 2 s after its last Sync, with an event. HOST_TX_ENABLE with an active
image turns sending on; off, every queue pair leaves READY. REGISTER_WRITE of a register that only holds its fields, before
the seal, sets them and leaves reserved bits zero. OWNER_SELECT sets the offset to read; OWNER_WRITE and a burst write it;
OWNER_READ of one group answers the register's 8 bytes. (R7, R9, R51, R266, R267, R270, R400, R489; basis: derived.) -/
def Obligations.ClockAndOwnerCommandsComplete : Prop :=
  (∀ h rx src (s : State), ptpMine s h = true → followed s.clk src = true →
    exec (.ptpSync h true rx src) s = .next (after s { s with clk := { s.clk with pendSync := some (h.sq, rx) } })) ∧
  (∀ h rx src (s : State), ptpMine s h = true →
    exec (.ptpSync h false rx src) s = .next (after s { s with clk := { s.clk with ignored := s.clk.ignored + 1 } })) ∧
  (∀ h origin rx (s : State), ptpMine s h = true → s.clk.pendSync = some (h.sq, rx) → s.clk.state ≠ 0 → s.clk.everLocked = true →
    exec (.ptpFollowUp h origin) s = .next (after s (
      let c := { s.clk with pendSync := none, lastT1T2 := some (origin, rx), lastSync := now s }
      let v := { s with clk := c.offsetIs (Int.ofNat rx + c.corr - Int.ofNat origin - Int.ofNat c.pathDelay) }
      if v.clk.offset.natAbs > 1000000 then ptpEvent v else v))) ∧
  (∀ h rx t1 t2 t3 (s : State), ptpMine s h = true → s.clk.pendDelay = some (h.sq, t3) → s.clk.lastT1T2 = some (t1, t2) →
    let a : Int := Int.ofNat t2 - Int.ofNat t1
    let b : Int := Int.ofNat rx - Int.ofNat t3
    (s.clk.state ≠ 0 → exec (.ptpDelayResp h rx) s = .next (after s { s with clk := { s.clk with
      pendDelay := none, pathDelay := ((a + b) / 2).toNat } })) ∧
    (s.clk.state = 0 → exec (.ptpDelayResp h rx) s = .next (after s { s with clk := { s.clk with
      pendDelay := none, pathDelay := ((a + b) / 2).toNat, state := 1, goodSyncs := 0, offset := (a - b) / 2,
      corr := -((a - b) / 2) } }))) ∧
  (∀ h m (s : State), ptpMine s h = true →
    exec (.ptpAnnounce h m) s = .next (after s { s with clk := { s.clk with masters := putN m.src m.prio s.clk.masters } })) ∧
  (∀ s : State, wfield s.regs.hstCfg 40 2 ≠ 3 →
    exec .ptpDelayReq s = .next (after s (pushCtl (.ptpDelayReq s.clk.delaySeq (now s) (wfield s.regs.hstCfg 32 8)
      (wfield s.regs.hstCfg 40 2)) (delayReqLen (wfield s.regs.hstCfg 40 2)) { s with clk := { s.clk with
      pendDelay := some (s.clk.delaySeq, now s), delaySeq := (s.clk.delaySeq + 1) % 65536 } }))) ∧
  (∀ s : State, s.clk.state = 2 →
    exec .ptpHoldover s = .next (after s (
      let v := advance (s.clk.lastSync + 2000000000) s
      ptpEvent { v with clk := { v.clk with state := 3, goodSyncs := 0 } }))) ∧
  (∀ s, opens .owner 0x600000 s = true →
    (s.img.active.isSome = true → exec (.hostTxEnable true) s = .next (after s { s with
      hst := { s.hst with txOn := powered s }, regs := { s.regs with hstCtrl := 1 } })) ∧
    exec (.hostTxEnable false) s = .next (after s (
      let v := allQpError s
      { v with hst := { v.hst with txOn := false }, regs := { v.regs with hstCtrl := 0 } }))) ∧
  (∀ acc off val s k, opens acc off s = true → (regRow? off).isSome = true → writeAction acc off val s = none →
    writeSelector acc off val s = none → (rwsSlot? off = some k ∨ (rwsSlot? off = none ∧ rwSlot? off = some k)) → off ≠ 0x400058 →
    s.img.isSealed = false →
    exec (.registerWrite acc off val) s = .next (after s { s with
      regs := k.set ((val &&& BitVec.ofNat 64 k.rw) ||| (val &&& BitVec.ofNat 64 k.rws)) s.regs })) ∧
  (∀ off val vals s, addressed s = true →
    exec (.ownerSelect off) s = .next (after s { s with i3c := { s.i3c with sel := off } }) ∧
    exec (.ownerWrite off val) s = .next (after s (writeRegister .owner off val s)) ∧
    exec (.ownerWriteBurst off vals) s = .next (after s (vals.foldl (fun s v => writeRegister .owner off v s) s)) ∧
    ((regRow? s.i3c.sel).isSome = true → s.i3c.sel ≠ 0xB010B8 →
      exec (.ownerRead 1) s = .next (after s (emit (.i3c (le (BitVec.ofNat 64 (regValue .owner s.i3c.sel s)).toNat 8)) s))))

/-- For links 0 to 31. WLT_ENABLE is taken over and links enabled or left. In SIGNAL, all lanes, or with DEGRADE_OK a half, lock
and the link enters ALIGN; the time-outs of SIGNAL, ALIGN and PARAM take it DOWN after 100, 10 and 10 ms; ALIGN_DONE enters
PARAM, where TRAIN is sent; a TRAIN that fails no check brings an unencrypted link UP and begins the key of an encrypted one.
A peer's NONCE is held and the keys derived; a right CONFIRM completes them; no CONFIRM in 50 ms takes the link DOWN. At 2^39
flits under a key a rekey starts, at 2^40 the link goes DOWN. Loss of lane lock, or the peer's notice that it is DOWN, takes
an UP link DOWN. A second's codewords are counted, and too many uncorrectable ones take an UP link DOWN. RETRAIN_MS in DOWN
returns it to SIGNAL. RETRAIN takes the accessor's selected link DOWN with reason PEER. (R305, R307, R308, R309, R329, R339,
R408; basis: derived.) -/
def Obligations.LinkCommandsComplete : Prop :=
  (∀ val s, opens .owner 0x800000 s = true →
    exec (.wltEnable val) s = .next (after s (applyEnable { s with
      regs := { s.regs with wltEnable := BitVec.ofNat 64 (val.toNat % 2 ^ 32) } }))) ∧
  (∀ l s, l < 32 → (linkOf s l).st = 1 →
    exec (.laneLock l 15) s = .next (after s (enterLink l 2 (modLink l (fun k => { k with lanes := 15 }) s))) ∧
    (∀ mask, (mask = 3 ∨ mask = 12) → bit s.regs.wltCfg.toNat 44 = true →
      exec (.laneLock l mask) s = .next (after s (logAll 1 4 (unitLink l) 0x0502 0
        (enterLink l 2 (modLink l (fun k => { k with lanes := mask, reason := 11 }) s)) false))) ∧
    exec (.signalTimeout l) s = .next (after s (linkDown l (some 1) false (advance ((linkOf s l).since + 100000000) s)))) ∧
  (∀ l s, l < 32 → (linkOf s l).st = 2 →
    exec (.alignDone l) s = .next (after s (enterLink l 3 s)) ∧
    exec (.alignTimeout l) s = .next (after s (linkDown l (some 2) true (advance ((linkOf s l).since + 10000000) s)))) ∧
  (∀ l s, l < 32 → (linkOf s l).st = 3 →
    exec (.trainSend l) s = .next (after s (sendControl l (.train (ctlHdr s l) (trainMsg s l)) s)) ∧
    exec (.paramTimeout l) s = .next (after s (linkDown l none false (advance ((linkOf s l).since + 10000000) s)))) ∧
  (∀ l t s, l < 32 → (linkOf s l).st = 3 → trainFails s l t = none →
    let v := modLink l (fun k => { k with version := 0x48, peerNode := t.node, peerLink := t.link, encrypted := linkCrypt s l }) s
    (linkCrypt s l = false → exec (.train l t) s = .next (after s (bringUp l v))) ∧
    (linkCrypt s l = true → (linkBase? s).isSome = true →
      exec (.train l t) s = .next (after s (beginKey l (enterLink l 4 v))))) ∧
  (∀ l m s, l < 32 → (linkOf s l).st = 4 → m.keySeq = (linkOf s l).keySeq + 1 →
    (m.step = 1 → exec (.key l m) s = .next (after s (deriveKey l (modLink l (fun k => { k with peerNonce := some m.nonce })
      (beginKey l s))))) ∧
    (∀ ks, m.step = 2 → (linkOf s l).newKey = some ks →
      m.tag = confirmTag ks.2 (directionBit (linkOf s l).peerNode (selfNode s)) m.keySeq →
      exec (.key l m) s = .next (after s (keyDone l (modLink l (fun k => { k with
        confirmGot := true, rxKey := some ks.1 }) s))))) ∧
  (∀ l s, l < 32 → (linkOf s l).myNonce.isSome = true → (linkOf s l).confirmGot = false →
    exec (.keyConfirmTimeout l) s = .next (after s (linkDown l (some 7) ((linkOf s l).st = 5)
      (advance ((linkOf s l).nonceAt + 50000000) s)))) ∧
  (∀ l s, l < 32 → (linkOf s l).st = 5 → (linkOf s l).encrypted = true →
    (2 ^ 39 ≤ sinceKey (linkOf s l) → exec (.rekeyStart l) s = .next (after s (beginKey l s))) ∧
    (2 ^ 40 ≤ sinceKey (linkOf s l) → exec (.rekeyDeadline l) s = .next (after s (linkDown l (some 7) true s)))) ∧
  (∀ l s, l < 32 → (linkOf s l).st = 5 →
    exec (.laneLockLoss { link := l }) s = .next (after s (linkDown l (some 11) true s)) ∧
    exec (.laneLockLoss { link := l, peer := true }) s = .next (after s (linkDown l (some 10) true s))) ∧
  (∀ l c u s, l < 32 →
    exec (.fecSecond l c u) s = .next (after s (
      let v := modLink l (fun k => { k with
        fecCorrected := sat (k.fecCorrected + c) 32, uncorrected := sat (k.uncorrected + u) 16 }) s
      if linkUp v l && decide (u > wfield v.regs.wltCfg 18 16) then linkDown l (some 9) true v else v))) ∧
  (∀ l s, l < 32 → (linkOf s l).st = 6 → linkMay s l = true →
    exec (.retrainTimer l) s = .next (after s (
      let v := advance ((linkOf s l).since + max 1 (wfield s.regs.wltCfg 34 10) * 1000000) s
      modLink l (fun k => { k.fresh with st := 1, since := now v, retrains := sat (k.retrains + 1) 16 }) v))) ∧
  (∀ acc s, opens acc 0x800070 s = true → (linkOf s (accRegs s acc).linkSel).st ≠ 0 →
    (linkOf s (accRegs s acc).linkSel).st ≠ 6 →
    exec (.wltRetrain acc) s = .next (after s (linkDown (accRegs s acc).linkSel (some 10)
      ((linkOf s (accRegs s acc).linkSel).st = 5) s)))

/-- While an image is active: a LOAD, STORE or atomic for this node that is next in its stream, to a T1 address that its job may
reach, advances NEXT_SEQ and is answered OK: LOAD with the 128-byte line; STORE after merging its bytes by the mask; FADD,
SWAP, CAS, FAND, FOR and FXOR with the old 8 bytes, after writing the new value and storing the old one. A waiting request is
accepted, applied and answered. A response of status 0 ends its transaction. RESP_TIMEOUT within 10 ms of the first send sends
again; TARGET_DEAD ends it with that status. A stored result goes 20 ms after it was stored. A sound data flit in order is
taken and a control flit acted on; an unacknowledged one is replayed after 2 µs. A frame for another node is routed on. A new
NODE_STATE is passed on and told to the jobs. (R304, R305, R312, R315, R320, R321, R322, R323, R325, R327, R328; basis:
derived.) -/
def Obligations.FabricRequestsComplete : Prop :=
  (∀ l r t s, l < 32 → appliesAt l { r with op := 0x01 } t s →
    exec (.load l r) s = .next (after s (
      let v := homeState l { r with op := 0x01 } s
      respond l { r with op := 0x01 } 0 0 (readBytes Config.ramDefault t 128 v.mem.t1) v))) ∧
  (∀ l r t s, l < 32 → appliesAt l { r with op := 0x02 } t s →
    exec (.store l r) s = .next (after s (
      let v := homeState l { r with op := 0x02 } s
      let line := mergeLine (readBytes Config.ramDefault t 128 v.mem.t1) r.data r.mask
      respond l { r with op := 0x02 } 0 0 [] { v with mem := { v.mem with t1 := writeBytes Config.ramDefault t line v.mem.t1 } }))) ∧
  (∀ l r t s op, l < 32 → op ∈ [0x10, 0x11, 0x12, 0x13, 0x14, 0x15] → appliesAt l { r with op := op } t s →
    let v := homeState l { r with op := op } s
    let old := BitVec.ofNat 64 (leNat (readBytes Config.ramDefault t 8 v.mem.t1))
    let done (new : Word) : State :=
      let w := { v with mem := { v.mem with t1 := writeBytes Config.ramDefault t (le new.toNat 8) v.mem.t1 } }
      let res : OnceRes := { node := r.hdr.src, stream := r.stream, seq := r.seq, val := old, at_ := now v }
      respond l { r with op := op } 0 0 (le old.toNat 8 ++ zeros 8) { w with wlt := { w.wlt with once := w.wlt.once ++ [res] } }
    (op = 0x10 → exec (.fadd l r) s = .next (after s (done (old + r.a)))) ∧
    (op = 0x11 → exec (.swap l r) s = .next (after s (done r.a))) ∧
    (op = 0x12 → exec (.cas l r) s = .next (after s (done (if old = r.a then r.b else old)))) ∧
    (op = 0x13 → exec (.fand l r) s = .next (after s (done (old &&& r.a)))) ∧
    (op = 0x14 → exec (.forOp l r) s = .next (after s (done (old ||| r.a)))) ∧
    (op = 0x15 → exec (.fxor l r) s = .next (after s (done (old ^^^ r.a))))) ∧
  (∀ region s r v, region < 8 → lineAccept region s = (some r, v) →
    exec (.lineUnitAccept region) s = .next (after s (appliedRequest r v))) ∧
  (∀ r s o, imageOn s = true → (s.wlt.outst.find? fun o => o.req.tag = r.tag && o.req.seq = r.seq && o.req.stream = r.stream) = some o → r.status = 0 →
    exec (.fabricResponse r) s = .next (after s (unstall (purposeDone o r (endTx o { s with
      wlt := { s.wlt with here := s.wlt.here.erase (.rsp r) } }))))) ∧
  (∀ tag s o, s.wlt.outst.find? (·.req.tag = tag) = some o →
    (now (advance (o.last + respTimeout s) s) < o.first + 10000000 →
      exec (.respTimeout tag) s = .next (after s (resend [o] (advance (o.last + respTimeout s) s)))) ∧
    exec (.targetDead tag) s = .next (after s (targetDead o 3 (advance (o.first + 10000000) s)))) ∧
  (∀ node stream sq s x, (s.wlt.once.find? fun x => x.node = node && x.stream = stream && x.seq = sq) = some x →
    exec (.onceResultExpire node stream sq) s = .next (after s (
      let v := advance (x.at_ + 20000000) s
      { v with wlt := { v.wlt with
        once := v.wlt.once.filter fun y => !(y.node = node && y.stream = stream && y.seq = sq) } }))) ∧
  (∀ l raw s, imageOn s = true → l < 32 → 3 ≤ (linkOf s l).st → (linkOf s l).st ≤ 5 → raw.length = 512 →
    leAt raw 504 8 = (crc64 (raw.take 504)).toNat →
    (leAt raw 0 1 = 0 → leAt raw 2 6 = (linkOf s l).rxNext → exec (.flit l raw) s = .next (after s (dataFlit l raw s))) ∧
    (leAt raw 0 1 = 1 → exec (.flit l raw) s = .next (after s (flitControl l raw s)))) ∧
  (∀ l s e rest, l < 32 → (linkOf s l).replayBuf = e :: rest →
    exec (.flitAckTimeout l) s = .next (after s (replayFlits l (advance (e.at_ + 2000) s)))) ∧
  (∀ l f s, imageOn s = true → l < 32 → isControl f = false → (frameHdr f).dest ≠ selfNode s →
    exec (.forwardFrame l f) s = .next (after s (routeFrame { inl := some l, held := some (bufferOf l f) } false f s))) ∧
  (∀ l node sq s, imageOn s = true → l < 32 → node ≠ selfNode s → (∀ n, find? node s.wlt.states = some n → n < sq) →
    exec (.nodeState l node sq) s = .next (after s (noticeJobs node (
      let v := { s with wlt := { s.wlt with states := putN node sq s.wlt.states } }
      ((upLinks v).filter (· ≠ l)).foldl (fun s k => sendControl k (.nodeState (ctlHdr s k) node sq) s) v))))

/-- While an image is active, for messages: PROPOSE with its last part, of a map that is that of its MAP_ID and that nothing
refuses, is accepted and answered ACCEPT. ACCEPT of the proposal's term from a new member, and a voter's REFUSE of no higher
term, are recorded and the agreement checked. COMMIT of the accepted map at a later epoch applies it. HEARTBEAT_TIMER of the
cobbler sends HEARTBEAT and opens the lease by the quorum; a voter acknowledges one whose term is not behind; an
acknowledgement of the term counts for the sender's oldest heartbeat not acknowledged (log entry 165). The lease ends at its
end. ELECTION_TIMEOUT makes a voter stand with the next term; VOTE_REQUEST is granted once a term under R348 and else answered
so; a granted VOTE of the term counts; CANDIDATE_TIMEOUT ends the candidacy. SYNC_REQUEST is answered with the committed map;
SYNC with its last part applies a later one; SYNC_NOW asks the cobbler. RECOMPOSE_PROPOSE proposes the ACTIVE map after
FORMING. FORM_TIMEOUT tears a FORMING job down, PROPOSAL_TIMEOUT abandons a proposal, DRAIN_WINDOW_END ends the drain of a
commit. (R341, R347, R348, R349, R350, R351, R356, R362, R364; basis: derived.) -/
def Obligations.LaceAgreementCommandsComplete : Prop :=
  (∀ l part s b v m, imageOn s = true → collectPart 1 l part s = (some b, v) → mapOf l b = some m → refuseReason v m l.term = none →
    exec (.propose l part) s = .next (after s (
      let own : LaceHdr := match job? v l.job with | some j => ownHdr j | none => { job := l.job }
      sendLace l.sender 2 { own with term := l.term } []
        (modJob l.job (fun j => { j with accepted := some (l.mapId, m), term := max j.term l.term }) v)))) ∧
  (∀ l s j p, imageOn s = true → job? s l.job = some j → j.proposal = some p →
    ((nodesOf p.map ++ nodesOf j.map).contains l.sender = true → l.term = p.map.term → p.accepted.contains l.sender = false →
      exec (.accept l) s = .next (after s (checkProposal l.job
        (modJob l.job (fun j => { j with proposal := some { p with accepted := p.accepted ++ [l.sender] } }) s)))) ∧
    (∀ reason, l.term ≤ j.term → (p.refused.any (·.1 = l.sender)) = false →
      exec (.refuse l reason) s = .next (after s (checkProposal l.job
        (modJob l.job (fun j => { j with proposal := some { p with refused := p.refused ++ [(l.sender, reason)] } }) s))))) ∧
  (∀ l s j m, imageOn s = true → job? s l.job = some j → j.accepted = some (l.mapId, m) → m.epoch = l.epoch → (j.live = false ∨ j.map.epoch < m.epoch) →
    exec (.commit l) s = .next (after s (applyMap m s))) ∧
  (∀ job s j, job? s job = some j → j.map.cobbler = selfNode s → j.live = true →
    exec (.heartbeatTimer job) s = .next (after s (
      let v := if j.hbSeq = 0 then s else advance (j.hbSent + j.map.hbMs * 1000000) s
      let live (h : Nat × Nat) : Bool := decide (now v < h.2 + leaseNs j.map)
      let v := modJob job (fun j => { j with
        hbSent := now v, hbSeq := j.hbSeq + 1,
        hbTimes := j.hbTimes.filter live ++ [(j.hbSeq + 1, now v)], lastAck := now v }) v
      grantLease job (laceAll (nodesOf j.map) 5 (ownHdr j) [] v)))) ∧
  (∀ l s j, imageOn s = true → job? s l.job = some j → j.term ≤ l.term → (voters j.map).contains (selfNode s) = true → l.epoch ≤ j.map.epoch →
    exec (.heartbeat l) s = .next (after s (
      let v := modJob l.job (fun j => { j with term := l.term }) s
      sendLace l.sender 6 { ownHdr j with term := l.term } []
        (modJob l.job (fun j => { j with lastAck := now v, candidate := false }) v)))) ∧
  (∀ l s j, imageOn s = true → job? s l.job = some j → j.map.cobbler = selfNode s → l.term = j.term →
    exec (.heartbeatAck l) s = .next (after s (grantLease l.job (modJob l.job (fun j => { j with
      hbGot := putN l.sender (min j.hbSeq (findD l.sender j.hbGot 0 + 1)) j.hbGot,
      heard := putN l.sender (now s) j.heard }) s)))) ∧
  (∀ job s j, job? s job = some j → j.hasLease = true →
    exec (.cobblerLeaseExpiry job) s = .next (after s (modJob job (fun j => { j with hasLease := false }) (advance j.leaseEnd s)))) ∧
  (∀ job s j, job? s job = some j → (voters j.map).contains (selfNode s) = true → j.live = true → j.candidate = false →
    leads s j = false →
    exec (.electionTimeout job) s = .next (after s (
      let v := advance (j.lastAck + j.map.leaseMs * 1000000 + (voters j.map).idxOf (selfNode s) * 5000000) s
      let v := modJob job (fun x => { x with
        term := j.term + 1, votedTerm := j.term + 1, candidate := true, votes := [selfNode s], candAt := now v }) v
      let v := { v with map := { v.map with elections := sat (v.map.elections + 1) 16 } }
      winElection job (laceAll (voters j.map) 7 { ownHdr j with term := j.term + 1 } [] v)))) ∧
  (∀ l s j, imageOn s = true → job? s l.job = some j → (voters j.map).contains (selfNode s) = true →
    exec (.voteRequest l) s = .next (after s (
      let ok := decide (j.votedTerm < l.term) && decide (j.term ≤ l.term) &&
        decide (j.lastAck + j.map.leaseMs * 1000000 ≤ now s) && decide (j.map.epoch ≤ l.epoch) && !leads s j
      let v := if ok then modJob l.job (fun j => { j with votedTerm := l.term, term := l.term, candidate := false }) s else s
      sendLace l.sender 8 { ownHdr j with term := l.term } (le (if ok then 1 else 0) 1 ++ zeros 7) v))) ∧
  (∀ l s j, imageOn s = true → job? s l.job = some j → j.candidate = true → l.term = j.term → j.votes.contains l.sender = false →
    exec (.vote l true) s = .next (after s (winElection l.job
      (modJob l.job (fun j => { j with votes := j.votes ++ [l.sender] }) s)))) ∧
  (∀ job s j, job? s job = some j → j.candidate = true →
    exec (.candidateTimeout job) s = .next (after s (
      let v := advance (j.candAt + 20000000) s
      modJob job (fun j => { j with candidate := false, lastAck := now v - j.map.leaseMs * 1000000 }) v))) ∧
  (∀ l s j, imageOn s = true → job? s l.job = some j → j.map.state ≠ 0 →
    exec (.syncRequest l) s = .next (after s
      (laceParts [l.sender] 10 { ownHdr j with mapId := mapIdOf j.map } (mapBytes j.map) s))) ∧
  (∀ l part s b v m j j', imageOn s = true → job? s l.job = some j' → collectPart 10 l part s = (some b, v) → mapOf l b = some m →
    job? v l.job = some j → (j.live = false ∨ j.map.epoch < m.epoch) → m.state ≠ 3 →
    exec (.sync l part) s = .next (after s (applyMap m v))) ∧
  (∀ s j, opens .owner 0x900060 s = true → job? s (accRegs s .owner).jobSel = some j → j.live = true → j.map.cobbler ≠ selfNode s →
    exec .syncNow s = .next (after s (sendLace j.map.cobbler 9 (ownHdr j) [] s))) ∧
  (∀ job s j, job? s job = some j → j.map.state = 1 →
    (leads s j = true → j.proposal = none → exec (.recomposePropose job) s = .next (after s
      (propose { j.map with state := 2, epoch := j.map.epoch + 1, term := j.term } true none s))) ∧
    exec (.formTimeout job) s = .next (after s (tearDown job [] (advance j.formDue s)))) ∧
  (∀ job s j p, job? s job = some j → j.proposal = some p →
    exec (.proposalTimeout job) s = .next (after s (dropProposal job 5 0 (advance p.due s)))) ∧
  (∀ job s j, job? s job = some j → j.drainOn = true → j.removed = false →
    exec (.drainWindowEnd job) s = .next (after s (modJob job (fun j' => { j' with
      drainOn := false, prev := none, older := [],
      locRecs := j'.locRecs.filter fun r =>
        homeNode (advance (j.commitAt + j.map.drainUs * 1000) s) j'.map r.handle =
          selfNode (advance (j.commitAt + j.map.drainUs * 1000) s) })
      (advance (j.commitAt + j.map.drainUs * 1000) s))))

/-- While an image is active, for messages: REPORT of a dead target tears the job down at its cobbler, of lost sessions adds their
count and owes a restore to an ACTIVE job (log entry 176), of a registration notes the member. TEARDOWN at a later epoch from
a term that is not behind is applied. MEMBER_SILENT at the cobbler tears the job down MEMBER_TIMEOUT_MS after it was heard.
LOCATION at a member places its records and, with fewer than 127, ends a handover of its epoch. COMPOSE with its last part, of
a valid request that is no CREATE, is handled at the cobbler. FORWARDED_TACK from a member of the job, served here, is
performed as one that arrived now; a vector tack likewise. FORWARDED_RECORD of an ordered completion takes its place in tack
order, any other its place in the batch of records. CATCH_UP_TIMEOUT ends a tack that waited DRAIN_US with
SESSION_UNAVAILABLE. MAP_REQ_DATA with a buffer, or room for one (log entry 166), stores 8 bytes and advances the offset;
MAP_REQ_SUBMIT with none pending handles the buffer's request, or fetches a tenant's. (R346, R353, R354, R356, R358, R360,
R361, R363, R365, R369; basis: derived.) -/
def Obligations.LaceServiceCommandsComplete : Prop :=
  (∀ l node count s, imageOn s = true →
    exec (.report l 1 node count) s = .next (after s (tearDown l.job [node] s)) ∧
    exec (.report l 2 node count) s = .next (after s (
      let v := modJob l.job (fun j => { j with lostCount := j.lostCount + count }) s
      if (job? v l.job).any (fun j => j.map.state = 2) then oweRestore l.job v else v)) ∧
    exec (.report l 3 node count) s = .next (after s (registeredBy l.job l.sender s))) ∧
  (∀ l hdr s j, imageOn s = true → job? s l.job = some j → j.live = true → j.term ≤ l.term → j.map.epoch < l.epoch → (readMapHeader hdr).state = 3 →
    exec (.teardown l hdr) s = .next (after s (applyTeardown l.job l.epoch l.term s))) ∧
  (∀ job node s j t, job? s job = some j → j.map.cobbler = selfNode s → node ≠ selfNode s → (nodesOf j.map).contains node = true →
    find? node j.heard = some t →
    exec (.memberSilent job node) s = .next (after s (tearDown job [node] (advance (t + j.map.memberMs * 1000000) s)))) ∧
  (∀ l recs s j, imageOn s = true → job? s l.job = some j → (j.map.state = 1 ∨ j.map.state = 2) → recs.length < 127 → l.epoch = j.map.epoch →
    exec (.location l recs) s = .next (after s (modJob l.job (fun j => { j with handover := j.handover.filter (· ≠ l.sender) })
      (recs.foldl (fun s r => placeLoc l.job l.sender r s) s)))) ∧
  (∀ l part s b v r j j', imageOn s = true → job? s l.job = some j' → collectPart 14 l part s = (some b, v) → readCompose b = some r →
    job? v l.job = some j → r.job = l.job → r.op ≠ 1 → j.map.cobbler = selfNode v →
    exec (.compose l part) s = .next (after s (composeHere r none j v))) ∧
  (∀ src job h b s j, job? s job = some j → (j.map.members.any (·.node = src)) = true →
    (sessionOp (opcodeOf b) = true → opcodeOf b ≠ 0x0A → opcodeOf b ≠ 0x0B → routeIn s (some job) h.mapEpoch h.handle true = .here →
      exec (.forwardedTack src job h b) s = .next (after s (performSession { h with fwd := some (src, job) } b (now s) s))) ∧
    (0x20 ≤ opcodeOf b → opcodeOf b ≤ 0x24 →
      exec (.forwardedTack src job h b) s = .next (after s (performVector { h with fwd := some (src, job) } b s)))) ∧
  (∀ src qp r s, src ≠ selfNode s →
    (r.kind ≠ 1 → exec (.forwardedRecord src qp r) s = .next (after s
      (enterBatch { qp := qp, gen := (qpOf s qp).gen, record := r } s))) ∧
    (r.kind = 1 → orderedOp r.opcode = true → r.opcode ≠ 0x24 → exec (.forwardedRecord src qp r) s = .next (after s (
      drainBatch (flushQp qp (modQp qp (fun q => { q with order := fillOrder r.tag r.opcode r none q.order })
        (countTack r.status s))))))) ∧
  (∀ qp tag s job h b due t, (s.hst.catchUp.find? fun x => x.2.1.qp = qp && x.2.1.tag = tag) = some (job, h, b, due, t) →
    exec (.catchUpTimeout qp tag) s = .next (after s (
      let v := advance due s
      complete h b 0x14 { v with
        hst := { v.hst with catchUp := v.hst.catchUp.erase (job, h, b, due, t) },
        map := { v.map with catchFails := sat (v.map.catchFails + 1) 32 } }))) ∧
  (∀ acc val s, opens acc 0x900038 s = true → ((accRegs s acc).reqOpen = true ∨ poolUsedBytes s + 2 ^ 21 ≤ poolSize) →
    exec (.mapReqData acc val) s = .next (after s (modAcc acc (fun a => { a with
      reqOpen := true, reqBuf := writeBytes 0 (a.reqAddr % 2 ^ 21 / 8 * 8) (le val.toNat 8) a.reqBuf,
      reqAddr := (a.reqAddr % 2 ^ 21 / 8 * 8 + 8) % 2 ^ 21 }) s))) ∧
  (∀ acc val s, opens acc 0x900040 s = true → bit val.toNat 0 = true → (accRegs s acc).reqCode ≠ 9 →
    (acc = .owner → wfield val 4 19 ≤ 262144 → exec (.mapReqSubmit acc val) s = .next (after s
      (compose acc (readBytes 0 0 (8 * wfield val 4 19) (accRegs s acc).reqBuf)
        (modAcc acc (fun a => { a with reqOpen := false, reqBuf := [] }) s)))) ∧
    (∀ qp, acc = .host qp →
      let r : DataRef := { addr := (accRegs s acc).reqAddr, len := field (accRegs s acc).reqKey 32 22, rkey := (accRegs s acc).reqKey % 2 ^ 32 }
      r.len ≤ 2097152 → refRefused r = false → exec (.mapReqSubmit acc val) s = .next (after s
        (startFetch { qp := qp } .nop r stageCompose [] (setResult acc 9 0 0 0 s)))))

/-- CKP_STORE with FLAGS[0] writes a fresh header (and, of a member region, an empty free map) and registers; without it the
header is read. CKP_BEGIN in IDLE, with a secret, of 1 to 4096 members with its regions registered, its pool and job right,
starts CUTTING and takes the cut at once if no step runs. CLAIM_POLL loads the claim again 10 µs later, and after
CLAIM_WAIT_MS the blob goes to own units. CHECKPOINT_WRITE_DONE adds to DONE_COUNTER and takes the coordinator to WAITING,
another member to IDLE with CKP_BEGIN completed; ALL_DONE starts the manifest. CKP_COMMIT that verifies writes the signature
and sets CKP_LAST. CKP_ABORT, a failed write, SIGN_WAIT_S in READY, and CKP_CTRL.ABORT each write FAILED and end the
checkpoint with CKP_FAILED. (R373, R374, R376, R378, R382, R398; basis: derived.) -/
def Obligations.CheckpointTakingCommandsComplete : Prop :=
  let failed (status : Nat) (s : State) : State :=
    let v := poolOp false 2 0 (maskOf 24 8) (zeros 24 ++ le 1 8) 0 0 s
    restage (endCaptures (modCkp Ckp.idle (completeBegin status (logAll 2 7 (unitChip 0x40) 0x0703 (ckpDetail v) v))))
  (∀ h job kind flags node r s t u, served h (.ckpStore job kind flags node r) s = some (t, u) →
    u.rom.secret.isSome = true → kind ≤ 1 → refRefused r = false →
    (bit flags 0 = true → exec (.ckpStore h job kind flags node r) s = .next (after s (
      let g0 : Region := { job := job, kind := kind, node := node, qp := h.qp, ref := r }
      let g : Region := { g0 with used := g0.emptyMap, loaded := true }
      let v := storeWrite g 0 (regionHeader g) u
      complete h (.ckpStore job kind flags node r) 0 (register g (if kind = 0 then writeFreeMap g v else v))))) ∧
    (bit flags 0 = false → exec (.ckpStore h job kind flags node r) s = .next (after s (
      startFetch h (.ckpStore job kind flags node r) { r with len := min r.len 4096 } 0 [] u)))) ∧
  (∀ h job members pool flags st base s t u, served h (.ckpBegin job members pool flags st base) s = some (t, u) →
    u.rom.secret.isSome = true → u.ckp.st = 0 → 1 ≤ members → members ≤ 4096 →
    (pool = 0xFFFF ∨ ∃ j, job? u job = some j ∧ (j.map.pools.any fun p => p.id = pool && p.kind = 0 && !p.park) = true) →
    (job = 0 ∨ (job? u job).isSome = true) →
    (regionOf u job 0 (selfNode u)).isSome = true → (bit flags 0 = true → (regionOf u job 1 0).isSome = true) →
    exec (.ckpBegin h job members pool flags st base) s = .next (after s (
      let tenant := match job? u job with | some j => if job = 0 then tenantOf u h.qp else j.map.tenant | none => tenantOf u h.qp
      let keep := u.ckp.workStep = base && (u.ckp.working.isEmpty || (stageObj? u).isSome)
      let v := modCkp (fun c =>
        { c.idle with st := 1, coord := bit flags 0, job := job, step := st, base := base, members := members, pool := pool,
                      tenant := tenant, hdr := some h, cfg := u.regs.ckpCfg, phase := 1, ledger := if keep then c.working else [],
                      working := if keep then c.working else [], shards := 0,
                      shardBase := 0, written := 0, shared := 0, bytes := 0, digest := zeros 32 }) u
      let w := if bit flags 0 = true then poolOp false 2 0 (maskOf 0 128) (fit (le st 8) 128) 0 0 v else v
      ckpGo (if w.stp.running = true then restage w else takeCut w)))) ∧
  (∀ s b l n, s.ckp.todo = b :: l → s.ckp.loading = 3 → s.ckp.waiting = false →
    claimLog2? (advance (s.ckp.polled + 10000) s) = some n →
    exec .claimPoll s = .next (after s (
      let v := advance (s.ckp.polled + 10000) s
      if s.ckp.since + wfield s.ckp.cfg 28 10 * 1000000 ≤ now v then ckpGo (placeOwn b v)
      else ckpGo (loadClaim n (sha256 b.data) v)))) ∧
  (∀ s, s.ckp.st = 2 → s.ckp.phase = 8 →
    exec (.checkpointWriteDone true) s = .next (after s (
      let rs := s.ckp.captured.map (recordOf s)
      let v := poolOp false 0x10 16 0 [] 1 0 s
      let v := restage (modCkp (fun c =>
        { c with working := rs.map (fun r => (r.e.handle, r)), workStep := c.step, captured := [] }) v)
      if v.ckp.coord = true then modCkp (fun c => { c with st := 3, phase := 9 }) v
      else modCkp Ckp.idle (completeBegin 0 v)))) ∧
  (∀ s, 1 ≤ s.ckp.st → s.ckp.st ≤ 4 → exec (.checkpointWriteDone false) s = .next (after s (failed 0x63 s))) ∧
  (∀ s, s.ckp.st = 3 → s.ckp.phase = 9 →
    ((ckpPool? s).isSome = true → exec .checkpointAllDone s = .next (after s (
      ckpGo (modCkp (fun c => { c with phase := 10, inbox := none }) s)))) ∧
    ((ckpPool? s).isSome = false → s.ckp.members ≤ 1 → exec .checkpointAllDone s = .next (after s (
      ckpGo (modCkp (fun c => { c with phase := 12, inbox := none }) s))))) ∧
  (∀ h job st sig s t u r key, served h (.ckpCommit job st sig) s = some (t, u) → u.ckp.st = 4 → u.ckp.job = job → u.ckp.step = st →
    regionOf u job 1 0 = some r → ownerKey? u (slice u.ckp.body 80 8) = some key →
    exec (.ckpCommit h job st sig) s = .next (after s (
      if slhVerify192s key u.ckp.body (fit sig 16224) = true then
        let v := storeWrite r (slotOff u.ckp.slot + u.ckp.body.length) (fit sig 16224) u
        let v := logAll 0 7 (unitChip 0x40) 0x0704 (ckpDetail v) v
        complete h (.ckpCommit job st sig) 0 (modCkp (fun c => { c.idle with last := st }) v)
      else complete h (.ckpCommit job st sig) 0x64 u))) ∧
  (∀ h job st s t u, served h (.ckpAbort job st) s = some (t, u) → 1 ≤ u.ckp.st → u.ckp.st ≤ 4 → u.ckp.job = job → u.ckp.step = st →
    exec (.ckpAbort h job st) s = .next (after s (complete h (.ckpAbort job st) 0 (failed 0x63 u)))) ∧
  (∀ s, s.ckp.st = 4 →
    exec .signWaitTimeout s = .next (after s (failed 0x63 (advance (s.ckp.readyAt + wfield s.ckp.cfg 38 16 * 1000000000) s)))) ∧
  (∀ acc s, opens acc 0xA00050 s = true → 1 ≤ s.ckp.st → s.ckp.st ≤ 4 →
    exec (.ckpCtrlAbort acc) s = .next (after s (failed 0x63 s)))

/-- CKP_RESTORE in IDLE, of WHICH 0 or 1, a slot range in order and a registered manifest region, starts a restore, which asks for
what it needs next. RESTORE_COMPLETE with every needed range read applies what the manifests yield (which waits for the slot
homes' answers: log entry 168), or completes with the status that they give and starts an owed restore; COLLECT likewise,
writing each region's free map and a header with COLLECT_SEQ one higher, and reporting the unreferenced regions in WORD_B.
CKP_REPLAY with inline tokens is admitted; one by reference fetches them. REPLAY_HOLD_EXPIRED and RELEASE_REPLAY end the hold
of restored adapters. (R363, R384, R385, R386, R387, R388, R389, R398; basis: derived.) -/
def Obligations.RestoreAndCollectCommandsComplete : Prop :=
  let released (s : State) : State :=
    freeRetired { s with
      ckp := { s.ckp with holdEnd := none },
      stp := { s.stp with adapters := s.stp.adapters.map fun a => { a with hold := false } } }
  (∀ h job which flags lo hi r s t u, served h (.ckpRestore job which flags lo hi r) s = some (t, u) →
    u.ckp.st = 0 → which ≤ 1 → lo ≤ hi → (regionOf u job 1 0).isSome = true →
    exec (.ckpRestore h job which flags lo hi r) s = .next (after s (
      let q : RestoreReq := { hdr := some h, job := job, which := which, flags := flags, slotLo := lo, slotHi := hi, buf := some r }
      let v := modCkp (fun c => { c.idle with st := 5, job := job, restore := some q, failCount := 0, cfg := u.regs.ckpCfg }) u
      readOn (restorePlan v q) v))) ∧
  (∀ s q h, s.ckp.restore = some q → q.hdr = some h → s.ckp.st = 5 → s.ckp.placing = none →
    exec .restoreComplete s = .next (after s (
      match restorePlan s q with
      | .error k => readOn (.error k : Except CkpKey Restored) s
      | .ok r =>
        match r.status with
        | some st => startOwed (modCkp Ckp.idle (completeOp h 0x44 st (readVersions s)))
        | none => applyRestore q r (readVersions s)))) ∧
  (∀ h b s t u, served h (.ckpReplay b) s = some (t, u) → replayBodyBad b = false →
    (∀ x, b.input = .inline x → exec (.ckpReplay h b) s = .next (after s (admitReplay h b t (idsOf b.count x) u))) ∧
    (∀ r, b.input = .ref r → refRefused r = false →
      exec (.ckpReplay h b) s = .next (after s (startFetch h (.ckpReplay b) { r with len := 4 * b.count } 0 [] u t)))) ∧
  (∀ h job s t u, served h (.ckpCollect job) s = some (t, u) → u.ckp.st = 0 →
    (regionOf u job 1 0).isSome = true →
    exec (.ckpCollect h job) s = .next (after s (
      let v := modCkp (fun c => { c.idle with st := 6, job := job, collect := some h }) u
      readOn (collectPlan v h) v))) ∧
  (∀ s h, s.ckp.st = 6 → s.ckp.collect = some h →
    exec .collectComplete s = .next (after s (
      match collectPlan s h with
      | .error k => readOn (.error k : Except CkpKey (Option (List (Region × Nat × Nat) × Nat))) s
      | .ok none => startOwed (modCkp Ckp.idle (completeOp h 0x46 0x68 (readVersions s)))
      | .ok (some (maps, n)) =>
        let write (s : State) (x : Region × Nat × Nat) : State :=
          let r : Region := { x.1 with used := x.2.1, collectSeq := x.2.2 }
          storeWrite r 0 (regionHeader r) (writeFreeMap r s)
        startOwed (modCkp Ckp.idle (completeOp h 0x46 0 (maps.foldl write (readVersions s)) { b := n }))))) ∧
  (∀ s t, s.ckp.holdEnd = some t → exec .replayHoldExpired s = .next (after s (released (advance t s)))) ∧
  (∀ acc s, opens acc 0xA00050 s = true → exec (.releaseReplay acc) s = .next (after s (released s)))

/-- On its bus, ENTDAA gives a target without one its dynamic address, RSTDAA removes it, ENEC and DISEC set and clear interrupts.
Addressed, GETPID, GETBCR, GETDCR, GETMWL, GETMRL and GETSTATUS are answered (values: log entry 8). SEC_KEY_DATA appends 8
bytes to a buffer with room. A key command that nothing refuses empties the buffer and starts with its payload; a REMOVE or
SET_SECRET that only its signature can refuse starts or answers code 3, as the verification decides; refused as BUSY a command
answers so; KEY_CMD_COMPLETE of ENROL stores the key, of REMOVE empties the slot, of SET_SECRET stores the wrapped secret, of
CLEAR_ALL empties all, each counted in the sequence; a failed one answers FAILED. SEC_QUOTE_DATA gives the next 8 bytes of the
quote. (R400, R405, R406, R407, R426; basis: derived.) -/
def Obligations.OwnerPortCommandsComplete : Prop :=
  (∀ s, onBus s = true →
    (∀ addr, s.i3c.addr = none → exec (.entdaa addr) s = .next (after s { s with i3c := { s.i3c with addr := some addr } })) ∧
    exec .rstdaa s = .next (after s { s with i3c := { s.i3c with addr := none } }) ∧
    exec .enec s = .next (after s { s with i3c := { s.i3c with ibi := true } }) ∧
    exec .disec s = .next (after s { s with i3c := { s.i3c with ibi := false } })) ∧
  (∀ s, onBus s = true → s.i3c.addr.isSome = true →
    exec .getpid s = .next (after s { s with out := s.out ++ [.i3c (Config.i3cConst 0)] }) ∧
    exec .getbcr s = .next (after s { s with out := s.out ++ [.i3c (Config.i3cConst 1)] }) ∧
    exec .getdcr s = .next (after s { s with out := s.out ++ [.i3c (Config.i3cConst 2)] }) ∧
    exec .getmwl s = .next (after s { s with out := s.out ++ [.i3c (Config.i3cConst 3)] }) ∧
    exec .getmrl s = .next (after s { s with out := s.out ++ [.i3c (Config.i3cConst 4)] }) ∧
    exec .getstatus s = .next (after s { s with out := s.out ++ [.i3c (Config.i3cStatus s.free)], free := s.free + 1 }) ∧
    exec .secQuoteData s = .next (after s { s with
      out := s.out ++ [.i3c (le (BitVec.ofNat 64 (leAt s.sec.quoteOut 0 8)).toNat 8)],
      sec := { s.sec with quoteOut := s.sec.quoteOut.drop 8 } })) ∧
  (∀ val s, opens .owner 0xB01078 s = true → s.sec.keyBuf.length < 16288 →
    exec (.secKeyData val) s = .next (after s { s with sec := { s.sec with keyBuf := s.sec.keyBuf ++ le val.toNat 8 } })) ∧
  (∀ slot s, opens .owner 0xB01070 s = true →
    let started (op : Nat) : State := { s with sec := { s.sec with
      keyBuf := [], keyCode := 0, keySlot := slot % 4, keyDone := false, keyBusy := some (op, slot % 4, s.sec.keyBuf.take (keyPayload op)) } }
    let unsigned : State := raiseIbi 3 { s with sec := { s.sec with keyBuf := [], keyCode := 3, keySlot := slot % 4, keyDone := true } }
    let busy : State := raiseIbi 3 { s with sec := { s.sec with keyCode := 7, keySlot := slot % 4, keyDone := true } }
    (keyRefuses s 1 (slot % 4) = none → exec (.enrol slot) s = .next (after s (started 1))) ∧
    (s.sec.keyBusy.isSome = true → exec (.enrol slot) s = .next (after s busy)) ∧
    (keyRefuses s 2 (slot % 4) = none ∨ keyRefuses s 2 (slot % 4) = some 3 → exec (.remove slot) s = .next (after s
      (if keyRefuses s 2 (slot % 4) = none then started 2 else unsigned))) ∧
    (s.sec.keyBusy.isSome = true → exec (.remove slot) s = .next (after s busy)) ∧
    (keyRefuses s 3 (slot % 4) = none ∨ keyRefuses s 3 (slot % 4) = some 3 → exec (.setSecret slot) s = .next (after s
      (if keyRefuses s 3 (slot % 4) = none then started 3 else unsigned))) ∧
    (s.sec.keyBusy.isSome = true → exec (.setSecret slot) s = .next (after s busy)) ∧
    (keyRefuses s 4 (slot % 4) = none → exec (.clearAll slot) s = .next (after s (started 4))) ∧
    (s.sec.keyBusy.isSome = true → exec (.clearAll slot) s = .next (after s busy))) ∧
  (∀ s slot payload op, s.sec.keyBusy = some (op, slot, payload) →
    let idle : State := { s with sec := { s.sec with keyBusy := none } }
    let freed : State := if op = 3 ∨ op = 4 then freeKeyed idle else idle
    let rom : Eeprom := { freed.rom with keySeq := (freed.rom.keySeq + 1) % 2 ^ 40 }
    let answer (code : Nat) (s : State) : State :=
      raiseIbi 3 { s with sec := { s.sec with keyCode := code, keySlot := slot, keyDone := true } }
    exec (.keyCmdComplete false) s = .next (after s (answer 9 idle)) ∧
    (op = 1 → exec (.keyCmdComplete true) s = .next (after s (answer 1 { freed with rom := { rom with keys := putN slot payload rom.keys } }))) ∧
    (op = 2 → exec (.keyCmdComplete true) s = .next (after s (answer 1 { freed with
      rom := { rom with keys := rom.keys.filter (·.1 ≠ slot) } }))) ∧
    (op = 3 → exec (.keyCmdComplete true) s = .next (after s (answer 1 { freed with
      rom := { rom with secret := some (keyWrap kWrap payload) } }))) ∧
    (op = 4 → exec (.keyCmdComplete true) s = .next (after s (answer 1 { freed with rom := { rom with keys := [], secret := none } }))))

/-- QUOTE with an identity, a sound reference of room enough and fewer than 16 quotes queued is queued; GO likewise, dropping an
unread quote. QUOTE_READY signs the first quote: a tenant's is written and completed, the owner's becomes readable and is
signalled. IDENTITY_READ writes the public key and the endorsement. AUDIT_RING_SETUP of the tenant's event queue pair sets the
ring, completes and writes what waits; AUDIT_RING_POLL takes the consumer's count and goes on. AUDIT_INTERVAL_END closes the
interval at its end for 250 ms more; AUDIT_ROOT_SIGNED signs and keeps the first pending root and tells every tenant;
AUDIT_ROOT_READ of a kept root writes it, or answers that the buffer is too small. (R404, R408, R410, R411, R415, R416, R418,
R419, R420, R426; basis: derived.) -/
def Obligations.QuoteAndAuditCommandsComplete : Prop :=
  (∀ h nonce r s t u, served h (.quote nonce r) s = some (t, u) → u.sec.identity = true → refRefused r = false → quoteLen ≤ r.len →
    u.sec.quotes.length < 16 →
    exec (.quote h nonce r) s = .next (after s (startQuote { u with
      sec := { u.sec with quotes := u.sec.quotes ++ [{ hdr := some (h, r), nonce := fit nonce 32 }] } }))) ∧
  (∀ s, opens .owner 0xB010A8 s = true → s.sec.identity = true → s.sec.quotes.length < 16 →
    exec .quoteGo s = .next (after s (
      let g := s.regs
      let nonce := le g.quoteNonce0.toNat 8 ++ le g.quoteNonce1.toNat 8 ++ le g.quoteNonce2.toNat 8 ++ le g.quoteNonce3.toNat 8
      startQuote { s with sec := { s.sec with
        quoteOut := [], quoteReady := false, quotes := s.sec.quotes ++ [{ hdr := none, nonce := nonce }] } }))) ∧
  (∀ s q rest, s.sec.quoteBusy = true → s.sec.quotes = q :: rest → s.sec.identity = true →
    exec .quoteReady s = .next (after s (
      let v : State := { s with sec := { s.sec with quotes := rest, quoteBusy := false } }
      let body := quoteBody v q.nonce
      let sig := (idSign body v).1
      let w := (idSign body v).2
      startQuote (match q.hdr with
        | some (h, r) => completeOp h 0x50 0 (rdmaWrite h.qp r.rkey r.addr (body ++ sig) w) { a := (body ++ sig).length }
        | none => raiseIbi 2 { w with sec := { w.sec with quoteOut := body ++ sig, quoteReady := true } })))) ∧
  (∀ h r s t u, served h (.identityRead r) s = some (t, u) → u.sec.identity = true → refRefused r = false →
    let out := fit u.sec.pubkey 32 ++ (match u.rom.endorsement with | some e => fit e 16320 | none => [])
    out.length ≤ r.len →
    exec (.identityRead h r) s = .next (after s (completeOp h 0x53 0 (rdmaWrite h.qp r.rkey r.addr out u) { a := out.length }))) ∧
  (∀ h b s t u, served h (.auditRingSetup b) s = some (t, u) →
    (tenant? u (tenantOf u h.qp)).map (·.eventQp) = some h.qp → 6 ≤ b.log2Slots → b.log2Slots ≤ 20 → b.addr % 128 = 0 →
    b.consumerAddr % 8 = 0 → b.producerAddr % 8 = 0 →
    exec (.auditRingSetup h b) s = .next (after s (
      let tn := tenantOf u h.qp
      let v := modQp h.qp (fun q => { q with audit := some (newRing b) }) u
      deliverAudit tn (completeOp h 0x51 0 (setAud tn { audOf v tn with ever := true } v))))) ∧
  (∀ tn consumed s qp r, auditRing? s tn = some (qp, r) →
    exec (.auditRingPoll tn consumed) s = .next (after s (deliverAudit tn
      (modQp qp (fun q => { q with audit := some { r with cons := max r.cons (min consumed r.prod), reading := false } }) s)))) ∧
  (∀ s, s.img.active.isSome = true →
    exec .auditIntervalEnd s = .next (after s
      (closeInterval s.sec.nextEnd (s.sec.nextEnd + 250000000) (!s.clk.everLocked) (advance s.sec.nextEnd s)))) ∧
  (∀ s p rest, s.sec.rootsPend = p :: rest →
    exec .auditRootSigned s = .next (after s (
      let sig := (idSign p.rcd s).1
      let v := (idSign p.rcd s).2
      let kept := v.sec.roots ++ [{ seq := v.sec.rootSeq + 1, rcd := p.rcd, sig := sig, subs := p.subs }]
      let w : State := { v with sec := { v.sec with
        rootsPend := rest, rootSeq := v.sec.rootSeq + 1, roots := kept.drop (kept.length - rootKeep v) } }
      startQuote (logTo ((tenants w).map (·.id)) 0 6 (unitChip 0x32) 0x0406 w.sec.rootSeq w)))) ∧
  (∀ h n r s t u x, served h (.auditRootRead n r) s = some (t, u) → u.sec.identity = true → refRefused r = false →
    let want := if n = 0 then u.sec.rootSeq else n
    1 ≤ want → want ≤ u.sec.rootSeq → (u.sec.roots.find? fun x => x.seq = want && u.sec.rootSeq < x.seq + rootKeep u) = some x →
    ((rootBytes x).length ≤ r.len → exec (.auditRootRead h n r) s = .next (after s
      (completeOp h 0x52 0 (rdmaWrite h.qp r.rkey r.addr (rootBytes x) u) { a := (rootBytes x).length, b := want }))) ∧
    (r.len < (rootBytes x).length → exec (.auditRootRead h n r) s = .next (after s
      (completeOp h 0x52 0x72 u { a := (rootBytes x).length }))))

/-- CELL_FENCE of a cell not fenced yet logs and counts it and faults the contexts it meets; of a bank it also ends a handover,
loses what only the bank held and replaces its weights; a tile that then lacks a quorum is fenced. STEP_WATCHDOG of a running
step is such a fence of cause 5. TILE_FENCE logs the tile; a second in a region fences the region, a loss without placement
leaves service, else the boundary moves the contexts. REGION_FENCE and CORE_WATCHDOG fence the six tiles, the channels and
then lose what the region held, its jobs, links and cache copy, or leave service where no placement is left. SALVAGE_COMPLETE
ends a tile's salvage, SALVAGE_TIMEOUT loses what waited. LEAVE_SERVICE logs, takes every queue pair to ERROR and tells the
fabric, or, where it is unsound, takes the links DOWN. (R28, R98, R175, R431, R433, R434, R435, R436, R438, R442; basis:
derived.) -/
def Obligations.FencingCommandsComplete : Prop :=
  (∀ t c cause s, t < 48 → c < 74 → cellFenced s t c = false →
    let counted : State := { s with err := { s.err with cells := put (t, c) cause s.err.cells, cellFences := sat (s.err.cellFences + 1) 16 } }
    let marked := (cellCtxs s t c).foldl (fun s d => modCtx d (fun x => { x with fault := x.fault.orElse fun _ => some (t, c) }) s)
      (logAll 2 2 (unitCell t c) 0x0201 cause counted)
    let ended (s : State) : State := if tileLacks s t = true then fenceTile t 8 s else s
    ((c < 6 ∨ 70 ≤ c) → exec (.cellFence t c cause) s = .next (after s (ended marked))) ∧
    (6 ≤ c → c < 70 →
      let lost := (s.ses.table.filter (onlyIn s (64 * t + (c - 6)))).map (·.1)
      let u := readBacking (64 * t + (c - 6))
        (loseMany lost (unitCell t c) 3 (loseCapture (64 * t + (c - 6)) (endHandover (64 * t + (c - 6)) marked)))
      let v := if (bankOf u (64 * t + (c - 6))).home = 5 then loseCache (64 * t + (c - 6)) u else u
      exec (.cellFence t c cause) s = .next (after s (ended (replaceWeights (64 * t + (c - 6)) v)))) ∧
    (s.stp.running = true → cause = 5 → (c < 6 ∨ 70 ≤ c) → exec (.stepWatchdog t c) s = .next (after s (ended marked)))) ∧
  (∀ t cause s, t < 48 → s.err.tiles.contains t = false →
    let v := logAll 2 3 (unitTile t) 0x0202 cause { s with
      err := { s.err with tiles := addTo t s.err.tiles, tileFences := sat (s.err.tileFences + 1) 16 },
      atn := { s.atn with lab := s.atn.lab.filter fun e => e.tile ≠ t } }
    (v.img.active = none → exec (.tileFence t cause) s = .next (after s v)) ∧
    (v.img.active.isSome = true → 2 ≤ (v.err.tiles.filter (· / 6 = t / 6)).length →
      exec (.tileFence t cause) s = .next (after s (fenceRegion (t / 6) 11 v))) ∧
    (v.img.active.isSome = true → (v.err.tiles.filter (· / 6 = t / 6)).length < 2 → placeable v = false →
      exec (.tileFence t cause) s = .next (after s (leaveService 11 true v))) ∧
    (v.img.active.isSome = true → (v.err.tiles.filter (· / 6 = t / 6)).length < 2 → placeable v = true →
      exec (.tileFence t cause) s = .next (after s ((cacheBanks v t).foldl (fun s k => loseCache k s)
        { v with stp := { v.stp with tileHits := addTo t v.stp.tileHits } })))) ∧
  (∀ r cause s, r < 8 → s.err.regions.contains r = false →
    let new := (sixTiles r).filter fun t => !s.err.tiles.contains t
    let out (k : Nat) : Bool := (addTo r s.err.regions).contains k
    let u : State := { s with
      mem := { s.mem with degraded := s.mem.degraded || (s.img.active.isSome && (out s.mem.mirrorA || out s.mem.mirrorB)) },
      err := { s.err with
        regions := addTo r s.err.regions, tiles := (sixTiles r).foldl (fun l t => addTo t l) s.err.tiles,
        tileFences := sat (s.err.tileFences + new.length) 16 },
      atn := { s.atn with lab := s.atn.lab.filter fun e => e.tile / 6 ≠ r } }
    let logged := new.foldl (fun s t => logAll 2 3 (unitTile t) 0x0202 cause s) (logAll 2 4 (unitRegion 0x24 r 0) 0x0205 cause u)
    let v := endDegraded ((List.range 4).foldl (fun s i => modChan (4 * r + i) (fun c => { c with fenced := true }) s) logged)
    let hit : State := { v with stp := { v.stp with tileHits := (sixTiles r).foldl (fun l t => addTo t l) v.stp.tileHits } }
    let lost := regionSessions r ((s.ses.table.filter (heldIn s r)).map (·.1)) (backedIn s r) hit
    let told := (windowJobs s r).foldl (fun s j => reportSelf j s) lost
    let answers (x : State) : Prop :=
      exec (.regionFence r cause) s = .next (after s x) ∧ (cause = 9 → exec (.coreWatchdog r) s = .next (after s x))
    (v.img.active = none → answers v) ∧
    (v.img.active.isSome = true → placeable v = false → answers (leaveService 11 true v)) ∧
    (v.img.active.isSome = true → placeable v = true → answers (regionTable r (regionLinks r told)))) ∧
  (∀ t s, t < 48 → (s.err.salvage.any (·.1 = t)) = true →
    exec (.salvageComplete t) s = .next (after s (
      let bad := ((s.mem.flips.filter fun f => f.bad && f.bank / 64 = t).map fun f => (f.bank, f.word)).eraseDups
      let v := bad.foldl (fun s f => (checkWord f.1 f.2 s).2) s
      let w := ((v.err.salvage.filter (·.1 = t)).flatMap (·.2.2)).foldl (fun s i => salvageSess t i s) v
      let u : State := { w with err := { w.err with salvage := w.err.salvage.filter (·.1 ≠ t) } }
      ((v.err.salvage.filter (·.1 = t)).flatMap (·.2.2)).foldl (fun s i => salvagePlaced t i s) u))) ∧
  (∀ t s x, t < 48 → s.err.salvage.find? (·.1 = t) = some x →
    exec (.salvageTimeout t) s = .next (after s (loseMany x.2.2 (unitTile t) 3
      (advance x.2.1 { s with err := { s.err with salvage := s.err.salvage.filter (·.1 ≠ t) } })))) ∧
  (∀ cause sound s, s.err.chipOut = false →
    let u := logAll 3 6 (unitChip 0) 0x0206 cause s
    let v := allQpError (lastRecords { u with err := { u.err with chipOut := true, unsound := !sound }, pwr := { u.pwr with bootStage := 12 } })
    exec (.leaveService cause sound) s = .next (after s (if sound = true then sendNotice v
      else (List.range 32).foldl (fun s l =>
        let st := (linkOf s l).st
        if st = 0 || st = 6 then s else linkDown l (some 10) (st = 5) s) v)))

/-- ERR_ARM arms one injection for 1 s; ARM_EXPIRED ends it at that time. Armed, a write of ERR_INJECT by the owner port whose
unit is of the kind's sort ends the arming, logs INJECTED with the kind, and then: alters check bits of the addressed word,
correctable or not (kinds 1 and 2), or is a fault of the cell (3) or tile (4) of cause 13, an unreadable T1 address (5) or T2
block (6), eight flits of a bad CRC on a link (7), a region's fault of cause 13 (8). (R440, R441, R449; basis: derived.) -/
def Obligations.InjectionCommandsComplete : Prop :=
  (∀ s, opens .owner 0xC00040 s = true →
    exec .errArm s = .next (after s { s with err := { s.err with armedTo := some (now s + 1000000000) } })) ∧
  (∀ s t, s.err.armedTo = some t →
    exec .armExpired s = .next (after s { s with err := { s.err with armedTo := none }, clk := s.clk.advance t })) ∧
  (∀ s t unit, opens .owner 0xC00028 s = true → s.err.armedTo = some t → now s ≤ t →
    let logged (kind level : Nat) : State := logAll 0 level unit 0x0F01 kind { s with err := { s.err with armedTo := none } }
    let planted (bad : Bool) (bank kind : Nat) : State :=
      let v := logged kind 2
      let word := wfield v.regs.injectAddr 0 19
      let flip : Flip := { bank := bank, word := word, bad := bad }
      let flips := v.mem.flips.filter (fun f => !(f.bank = bank && f.word = word)) ++ [flip]
      { v with mem := { v.mem with flips := flips } }
    (∀ bank, bankOfUnit? unit = some bank →
      exec (.injectCorrectable unit) s = .next (after s (planted false bank 1)) ∧
      exec (.injectUncorrectable unit) s = .next (after s (planted true bank 2))) ∧
    (∀ c, cellOf? unit = some c → exec (.injectCellFault unit) s = .next (after s (fenceCell c.1 c.2 13 (logged 3 2)))) ∧
    (∀ tile, tileOf? unit = some tile → exec (.injectTileFault unit) s = .next (after s (fenceTile tile 13 (logged 4 3)))) ∧
    (∀ area, wfield s.regs.injectAddr 0 48 < 0x18000000000 →
      exec (.injectT1Read unit area) s = .next (after s (t1Fails (wfield s.regs.injectAddr 0 48) area 13
        (logAll 0 4 (unitT1 s (wfield s.regs.injectAddr 0 48)) 0x0F01 5 { s with err := { s.err with armedTo := none } })))) ∧
    (∀ ch, fourOf? 0x22 unit = some ch →
      exec (.injectT2Read unit) s = .next (after s (t2Fails ch (wfield s.regs.injectAddr 0 48) (logged 6 4)))) ∧
    (∀ l, fourOf? 0x23 unit = some l →
      exec (.injectFlitCrc unit) s = .next (after s (modLink l (fun k => { k with crcInject := 8 }) (logged 7 4)))) ∧
    (∀ r, regionOf? unit = some r → exec (.injectRegionFault unit) s = .next (after s (fenceRegion r 13 (logged 8 4)))))

/-- With a sound module: STEP_BOUNDARY of a running step, and EMPTY_BOUNDARY in power without a step running, end the step's time,
settle the contexts and the tiles lost, commit or withhold the step, fault the faulted contexts, take the pending changes,
take a checkpoint's cut where one waits, grant lanes and start the next step, in this order. (R75, R76, R77, R78, R85, R376;
basis: derived.) -/
def Obligations.StepBoundaryRuns : Prop :=
  ∀ s, (s.err.chipOut && s.err.unsound) = false →
    let bounded (v : State) : State :=
      let tb := now s
      let faulted := faultedNow v
      let ended := endStep faulted faulted tb (markReady (settleContexts tb (takeHits tb (dropFaults faulted v))))
      let changed := pauseLanes (takeChanges (faulted.foldl (fun s c => faultContext c s) ended))
      let cut := if changed.ckp.st = 1 then ckpGo (takeCut changed) else changed
      startStep tb (pauseLanes (grantLanes tb (markReady cut)))
    (s.stp.running = true →
      let d := sat (now s - s.stp.started) 24
      exec .stepBoundary s = .next (after s (bounded (stepLookups (touchLive (now s) { s with
        stp := { s.stp with running := false, lastNs := d, maxNs := max s.stp.maxNs d } }))))) ∧
    (s.stp.running = false → powered s = true → exec .emptyBoundary s = .next (after s (bounded s)))

/-- VIN_AUX_UP powers the owner port and requests a start; VIN_START of such a module in OFF begins a cold start with the measured
input (a free value in 41.0 to 50.0 V, log entry 3); out of range while started leaves service, beyond the stop limits goes
OFF; an excursion is counted; VIN_AUX_DOWN ends everything. The next rail in order is taken as good; a rail that fails, or the
root PLL unlocked, leaves service (the SerDes PLLs lose a lost reference too: log entry 179). A stage without failing units
ends as R455 gives it: POWER with every rail up, at once SRAM cleared after its test, one stage on after CELL, TILE, MEMORY
and FABRIC; PACKAGE raises INCARNATION and derives the identity; failing units are first fenced or recorded; a chip-level
failure leaves service. (R402, R403, R439, R450, R451, R452, R453, R455, R456, R457, R458, R469; basis: derived.) -/
def Obligations.InputAndStartCommandsComplete : Prop :=
  let changed (s : State) (f : Power → Power) : State := { s with pwr := f s.pwr }
  (∀ mv s, s.pwr.aux = false →
    exec (.vinAuxUp mv) s = .next (after s (changed s fun p => { p with aux := true, vinMv := mv % 65536, startReq := true }))) ∧
  (∀ s, s.pwr.aux = true → s.pwr.state = 0 → s.pwr.startReq = true →
    exec .vinStart s = .next (after s (coldStart (changed { s with free := s.free + 1 }
      fun p => { p with vinMv := 41000 + Config.sensor s.free % 9001 })))) ∧
  (∀ mv s, s.pwr.state ≠ 0 → (mv < 40000 ∨ 50000 < mv) →
    exec (.vinOutOfRange mv) s = .next (after s (leaveService 7 false (changed s fun p => { p with vinMv := mv % 65536 })))) ∧
  (∀ mv s, s.pwr.state ≠ 0 → (mv < 38000 ∨ 52000 < mv) →
    exec (.vinStop mv) s = .next (after s (powerOff false 0 (changed s fun p => { p with vinMv := mv % 65536 })))) ∧
  (∀ s, s.pwr.aux = true →
    exec .vinExcursion s = .next (after s (changed s fun p => { p with excursions := sat (p.excursions + 1) 16 }))) ∧
  (∀ s, s.pwr.state ≠ 0 →
    exec .vinAuxDown s = .next (after s (
      let v := powerOff false 0 s
      let w := changed v fun p => { p with aux := false, vinMv := 0, startReq := false, tripped := false, cmdResult := 0 }
      { w with i3c := { vref := v.i3c.vref } }))) ∧
  (∀ rail s, 1 ≤ rail → rail ≤ 5 →
    (s.pwr.state = 1 → s.pwr.bootStage = 0 → rail = s.pwr.rails + 1 →
      exec (.railPowerGood rail) s = .next (after s (changed s fun p => { p with rails := rail }))) ∧
    (s.pwr.state ≠ 0 → rail ≤ s.pwr.rails + 1 → exec (.railTimeout rail) s = .next (after s (leaveService 7 false s)))) ∧
  (∀ lost s, s.pwr.state ≠ 0 →
    exec (.rootPllUnlock lost) s = .next (after s (leaveService 7 false
      (changed s fun p => { p with
        rootLock := false, refOk := p.refOk && !lost, hostSerdes := p.hostSerdes && !lost,
        weltSerdes := if lost = true then 0 else p.weltSerdes })))) ∧
  (∀ s, s.pwr.state = 1 → s.pwr.bootStage = 0 → s.pwr.rails = 5 →
    exec (.bootStageEnd [] false) s = .next (after s (changed s fun p => { p with
      refOk := true, rootLock := true, hostSerdes := true, weltSerdes := 255, powerEnd := now s, bootStage := 1 }))) ∧
  (∀ n s, s.pwr.state = 1 → s.pwr.bootStage = n → n ∈ [1, 4, 5, 6] →
    exec (.bootStageEnd [] false) s = .next (after s (changed s fun p => { p with bootStage := n + 1 }))) ∧
  (∀ s, s.pwr.state = 1 → s.pwr.bootStage = 2 →
    exec (.bootStageEnd [] false) s = .next (after s (
      let banks := s.mem.banks.map fun b => (b.1, ({ cePeriod := b.2.cePeriod, ceTotal := b.2.ceTotal } : Bank))
      let v : State := { s with mem := { s.mem with t0 := [], flips := [], scrubDue := now s + scrubPeriod s, banks := banks } }
      changed v fun p => { p with bootStage := 3 }))) ∧
  (∀ s, s.pwr.state = 1 → s.pwr.bootStage = 7 →
    exec (.bootStageEnd [] false) s = .next (after s (packageEnds s))) ∧
  (∀ fails s, s.pwr.state = 1 → s.pwr.bootStage < 8 →
    exec (.bootStageEnd fails true) s = .next (after s (leaveService (stageCause s.pwr.bootStage) false s)) ∧
    (s.pwr.bootStage ≠ 0 → exec (.bootStageEnd fails false) s = .next (after s (stageEnds s.pwr.bootStage
      (fails.foldl (fun s' f => stageFail s.pwr.bootStage f s')
        (if s.pwr.bootStage = 3 then katResult (katFails fails) s else s))))))

/-- RESET of a started module begins a warm start. GOTO STANDBY that R463 accepts starts to quiesce for 100 ms; quiet, the module
is in STANDBY with queue pairs in ERROR and links DOWN; late, it stays ON. GOTO ON in STANDBY resumes, in OFF requests a
start; GOTO OFF drops the rails. IDLE_US without work enters IDLE; work ends it. A throttle limit met 1 ms after the last
change moves the level by one at the next boundary; a trip logs CHIP_OUT and turns off. PWR_NOR_DATA starts programming 8
bytes and moves the address, ERASE_FW starts an erase; completion changes the NOR, failure sets ERROR. A cable, a host plug-in
within or beyond 15 W, and I3C_VREF are taken over. A plug-in beyond 15 W is held in reset and told with a code the spec
leaves open (log entry 3). (R453, R459, R462, R463, R464, R465, R466, R475, R498, R499, R501; basis: derived.) -/
def Obligations.PowerStateCommandsComplete : Prop :=
  let changed (s : State) (f : Power → Power) : State := { s with pwr := f s.pwr }
  (∀ s, opens .owner 0xD00010 s = true →
    (s.pwr.state ≠ 0 → exec .pwrReset s = .next (after s (started 1 5 s))) ∧
    (s.pwr.goto = none → mayStandby s = true → exec .gotoStandby s = .next (after s (changed s fun p =>
      { p with goto := some 1, quiesceEnd := now s + 100000000, cmdResult := 0 }))) ∧
    (s.pwr.state = 3 → s.pwr.goto = none → exec .gotoOn s = .next (after s (changed s fun p => { p with goto := some 2, cmdResult := 0 }))) ∧
    (s.pwr.state = 0 → exec .gotoOn s = .next (after s (
      let v := changed s fun p => { p with startReq := true, tripped := false, cmdResult := 1 }
      if 41000 ≤ s.pwr.vinMv ∧ s.pwr.vinMv ≤ 50000 then coldStart v else v))) ∧
    (s.pwr.state ≠ 0 → exec .gotoOff s = .next (after s (changed (started s.pwr.resetKind 0 s) fun p =>
      { p with state := 0, tripped := false, cmdResult := 1 })))) ∧
  (∀ s, s.pwr.goto = some 1 →
    exec .standbyQuiesced s = .next (after s (
      let u := allQpError s
      let v : State := { u with hst := { u.hst with txOn := false } }
      let w := (List.range 32).foldl (fun s l =>
        let st := (linkOf s l).st
        if st = 0 || st = 6 then s else linkDown l (some 10) (st = 5) s) v
      changed w fun p => { p with state := 3, goto := none, cmdResult := 1 })) ∧
    exec .standbyQuiesceTimeout s = .next (after s (unstall (changed (advance s.pwr.quiesceEnd s)
      fun p => { p with goto := none, cmdResult := 2, state := 1 })))) ∧
  (∀ s, s.pwr.goto = some 2 → s.pwr.state = 3 →
    exec .resumeComplete s = .next (after s (
      let u := scrubPass (changed s fun p => { p with state := 1, goto := none, cmdResult := 1, resetKind := 2 })
      let u : State := { u with hst := { u.hst with txOn := bit u.regs.hstCtrl.toNat 0 } }
      let v := if u.clk.state = 2 then ptpEvent { u with clk := { u.clk with state := 3, goodSyncs := 0 } } else u
      applyEnable ((List.range 32).foldl (fun s l =>
        if (linkOf s l).st = 6 && linkMay s l then modLink l (fun k => { k.fresh with st := 1, since := now s }) s else s) v)))) ∧
  (∀ s, s.pwr.state = 1 → wfield s.regs.pwrCfg 0 16 ≠ 0 → working s = false →
    exec .idleEntry s = .next (after s (changed (advance (s.pwr.lastWork + wfield s.regs.pwrCfg 0 16 * 1000) s)
      fun p => { p with state := 2 }))) ∧
  (∀ s, s.pwr.state = 2 → exec .idleExit s = .next (after s (changed s fun p => { p with state := 1, lastWork := now s }))) ∧
  (∀ up cause maxC hot watts s, powered s = true →
    let v := sensed maxC hot watts s
    throttleDue up maxC watts v = true →
    exec (.throttleChange up cause maxC hot watts) s = .next (after s (changed v fun p =>
      { p with throttle := some (if up then p.level + 1 else p.level - 1, cause % 4) }))) ∧
  (∀ hot s, hot < 48 → s.pwr.state ≠ 0 →
    exec (.thermalTrip hot) s = .next (after s (changed
      (powerOff true s.pwr.cmdResult (flushHost (logAll 3 6 (unitChip 0) 0x0206 7 s))) fun p => { p with maxC := tripC s, hotTile := hot }))) ∧
  (∀ val s, opens .owner 0xD00040 s = true → s.pwr.norBusy = false → powered s = true →
    exec (.pwrNorData val) s = .next (after s (
      let a := wfield s.regs.norAddr 0 24 / 8 * 8
      let v : State := { s with regs := { s.regs with norAddr := BitVec.ofNat 64 ((a + 8) % 2 ^ 24) } }
      changed v fun p => { p with norBusy := true, norOp := some (.program a (le val.toNat 8)) }))) ∧
  (∀ s, opens .owner 0xD00048 s = true → s.pwr.norBusy = false → powered s = true →
    exec .eraseFw s = .next (after s (changed s fun p => { p with norBusy := true, norError := false, norOp := some .erase }))) ∧
  (∀ s, (s.pwr.norOp = some .erase →
      exec (.norOpComplete true) s = .next (after s (changed s fun p =>
        { p with nor := p.nor.filter (fun c => 0x1000000 ≤ c.1), norBusy := false, norOp := none }))) ∧
    (∀ off d, s.pwr.norOp = some (.program off d) →
      exec (.norOpComplete true) s = .next (after s (changed s fun p =>
        { p with nor := writeBytes Config.norDefault off d p.nor, norBusy := false, norOp := none }))) ∧
    (s.pwr.norOp.isSome = true →
      exec (.norOpComplete false) s = .next (after s (norFailed (changed s fun p => { p with norError := true }))))) ∧
  (∀ ins watts s,
    let v := hostDown (changed s fun p => { p with osfp := ins, osfpHeld := ins && decide (15 < watts) })
    (ins = true → 15 < watts → exec (.osfpInsert ins watts) s = .next (after s (logAll 1 6 (unitChip 0x30) (Config.eventCode 2) 0 v))) ∧
    (ins = true → watts ≤ 15 → powered v = true → 8 ≤ v.pwr.bootStage → exec (.osfpInsert ins watts) s = .next (after s (hostUp v))) ∧
    (ins = false → exec (.osfpInsert ins watts) s = .next (after s v))) ∧
  (∀ l s, l < 32 →
    exec (.cablePresentChange l true) s = .next (after s (changed s fun p => { p with cables := addTo l p.cables })) ∧
    exec (.cablePresentChange l false) s = .next (after s (changed s fun p => { p with cables := p.cables.filter (· ≠ l) }))) ∧
  (∀ s, exec (.i3cVrefChange true) s = .next (after s { s with i3c := { s.i3c with vref := true } }) ∧
    exec (.i3cVrefChange false) s = .next (after s { s with i3c := { s.i3c with vref := false, addr := none, ibi := false } }))
end

