-- ==== Sys2Proof/Laws/Cipher.lean ====
section
/-!
SUPPORT. Sys2Proof/Laws/Cipher.lean: the AES inverse cipher undoes the cipher under every schedule of whole keys, and unwrapping a
wrapped key answers the key (R402).
-/
namespace Sys2Proof.Machine
open Sys2Proof

/-! ### One block -/

theorem length_xorB (a b : Bytes) : (xorB a b).length = min a.length b.length := List.length_zipWith

theorem length_fit (b : Bytes) (n : Nat) : (fit b n).length = n := by
  simp only [fit, List.length_append, List.length_take, zeros, List.length_replicate]
  omega

/-- Adding a key twice leaves the bytes. -/
theorem xorB_xorB : ∀ (a k : Bytes), a.length ≤ k.length → xorB (xorB a k) k = a
  | [], _, _ => by simp [xorB]
  | x :: a, y :: k, h => by
    have ih := xorB_xorB a k (by simpa using h)
    simp only [xorB, List.zipWith_cons_cons] at ih ⊢
    rw [ih, BitVec.xor_assoc, BitVec.xor_self, BitVec.xor_zero]
  | _ :: _, [], h => by simp at h

theorem sboxInv_sbox : ∀ b : Byte, sboxInv (sbox b) = b := by decide +kernel

/-- Sixteen bytes, one by one. -/
theorem sixteen (s : Bytes) (h : s.length = 16) :
    ∃ a b c d e f g i j k l m n o p q, s = [a, b, c, d, e, f, g, i, j, k, l, m, n, o, p, q] := by
  match s, h with
  | [a, b, c, d, e, f, g, i, j, k, l, m, n, o, p, q], _ => exact ⟨a, b, c, d, e, f, g, i, j, k, l, m, n, o, p, q, rfl⟩

theorem shiftRowsInv_shiftRows (s : Bytes) (h : s.length = 16) : shiftRowsInv (shiftRows s) = s := by
  obtain ⟨a, b, c, d, e, f, g, i, j, k, l, m, n, o, p, q, rfl⟩ := sixteen s h
  rfl

theorem length_shiftRows (s : Bytes) : (shiftRows s).length = 16 := by simp [shiftRows]

theorem xtime_xor (a b : Byte) : xtime (a ^^^ b) = xtime a ^^^ xtime b := by
  have key : ∀ x : Byte, xtime x = (x <<< 1) ^^^ (if x.msb then 0x1B else 0) := by decide +kernel
  have bits : ∀ x y : Byte, (if (x ^^^ y).msb then (0x1B : Byte) else 0) = (if x.msb then 0x1B else 0) ^^^ (if y.msb then 0x1B else 0) := by
    intro x y
    rw [BitVec.msb_xor]
    cases x.msb <;> cases y.msb <;> decide
  rw [key, key, key, bits, BitVec.shiftLeft_xor_distrib]
  ac_rfl

theorem gmulGo_xor : ∀ (n : Nat) (a b c x y : Byte), gmul.go n (a ^^^ b) c (x ^^^ y) = gmul.go n a c x ^^^ gmul.go n b c y
  | 0, _, _, _, _, _ => rfl
  | n + 1, a, b, c, x, y => by
    simp only [gmul.go, xtime_xor]
    split
    · rw [← gmulGo_xor]; congr 1; ac_rfl
    · exact gmulGo_xor n _ _ _ _ _

/-- Multiplication distributes over the sum. -/
theorem gmul_xor (a b c : Byte) : gmul (a ^^^ b) c = gmul a c ^^^ gmul b c := by
  have h := gmulGo_xor 8 a b c 0 0
  rw [BitVec.xor_self] at h
  exact h

/-- The sums of products that one byte of a column passes through on its way back: itself in its own place, nothing in the others. -/
theorem mix_there_and_back : ∀ a : Byte,
    gmul (xtime a) 0x0E ^^^ gmul a 0x0B ^^^ gmul a 0x0D ^^^ gmul (xtime a) 0x09 ^^^ gmul a 0x09 = a ∧
    gmul (xtime a) 0x09 ^^^ gmul a 0x0E ^^^ gmul a 0x0B ^^^ gmul (xtime a) 0x0D ^^^ gmul a 0x0D = 0 ∧
    gmul (xtime a) 0x0D ^^^ gmul a 0x09 ^^^ gmul a 0x0E ^^^ gmul (xtime a) 0x0B ^^^ gmul a 0x0B = 0 ∧
    gmul (xtime a) 0x0B ^^^ gmul a 0x0D ^^^ gmul a 0x09 ^^^ gmul (xtime a) 0x0E ^^^ gmul a 0x0E = 0 := by decide +kernel

/-- Four sums of products regrouped by the byte that they come from. -/
theorem mix_group (a b c d p q r t : Byte) :
    gmul (xtime a ^^^ xtime b ^^^ b ^^^ c ^^^ d) p ^^^ gmul (a ^^^ xtime b ^^^ xtime c ^^^ c ^^^ d) q ^^^
      gmul (a ^^^ b ^^^ xtime c ^^^ xtime d ^^^ d) r ^^^ gmul (xtime a ^^^ a ^^^ b ^^^ c ^^^ xtime d) t =
    (gmul (xtime a) p ^^^ gmul a q ^^^ gmul a r ^^^ gmul (xtime a) t ^^^ gmul a t) ^^^
    (gmul (xtime b) q ^^^ gmul b r ^^^ gmul b t ^^^ gmul (xtime b) p ^^^ gmul b p) ^^^
    (gmul (xtime c) r ^^^ gmul c t ^^^ gmul c p ^^^ gmul (xtime c) q ^^^ gmul c q) ^^^
    (gmul (xtime d) t ^^^ gmul d p ^^^ gmul d q ^^^ gmul (xtime d) r ^^^ gmul d r) := by
  simp only [gmul_xor]
  ac_rfl

theorem mixColInv_mixCol (a b c d : Byte) : mixColInv (mixCol [a, b, c, d]) = [a, b, c, d] := by
  obtain ⟨a1, a2, a3, a4⟩ := mix_there_and_back a
  obtain ⟨b1, b2, b3, b4⟩ := mix_there_and_back b
  obtain ⟨c1, c2, c3, c4⟩ := mix_there_and_back c
  obtain ⟨d1, d2, d3, d4⟩ := mix_there_and_back d
  have h0 := mix_group a b c d 0x0E 0x0B 0x0D 0x09
  have h1 := mix_group a b c d 0x09 0x0E 0x0B 0x0D
  have h2 := mix_group a b c d 0x0D 0x09 0x0E 0x0B
  have h3 := mix_group a b c d 0x0B 0x0D 0x09 0x0E
  rw [a1, b4, c3, d2] at h0
  rw [a2, b1, c4, d3] at h1
  rw [a3, b2, c1, d4] at h2
  rw [a4, b3, c2, d1] at h3
  have z (x : Byte) : x ^^^ 0 = x := BitVec.xor_zero
  have z' (x : Byte) : 0 ^^^ x = x := BitVec.zero_xor
  simp only [z, z'] at h0 h1 h2 h3
  show [0 ^^^ _ ^^^ _ ^^^ _ ^^^ _, 0 ^^^ _ ^^^ _ ^^^ _ ^^^ _, 0 ^^^ _ ^^^ _ ^^^ _ ^^^ _, 0 ^^^ _ ^^^ _ ^^^ _ ^^^ _] = _
  simp only [z']
  refine congr (congrArg List.cons h0) (congr (congrArg List.cons h1) (congr (congrArg List.cons h2) (congrArg (· :: []) h3)))

theorem mixColsInv_mixCols (s : Bytes) (h : s.length = 16) : mixColsInv (mixCols s) = s := by
  obtain ⟨a, b, c, d, e, f, g, i, j, k, l, m, n, o, p, q, rfl⟩ := sixteen s h
  show mixColInv (mixCol [a, b, c, d]) ++ (mixColInv (mixCol [e, f, g, i]) ++ (mixColInv (mixCol [j, k, l, m]) ++
    (mixColInv (mixCol [n, o, p, q]) ++ []))) = _
  simp only [mixColInv_mixCol]
  rfl

theorem length_mixCols (s : Bytes) (h : s.length = 16) : (mixCols s).length = 16 := by
  obtain ⟨a, b, c, d, e, f, g, i, j, k, l, m, n, o, p, q, rfl⟩ := sixteen s h
  rfl

/-- Strings of one length, joined. -/
theorem length_flatten_of (k : Nat) : ∀ r : List Bytes, (∀ w ∈ r, w.length = k) → r.flatten.length = k * r.length
  | [], _ => rfl
  | w :: r, h => by
    rw [List.flatten_cons, List.length_append, h w (by simp), length_flatten_of k r fun x hx => h x (by simp [hx]), List.length_cons]
    rw [Nat.mul_succ]; omega

/-! ### The rounds -/

/-- One round's substitution and rows, and their undoing. -/
theorem unround_round (s : Bytes) (h : s.length = 16) : (shiftRowsInv (shiftRows (s.map sbox))).map sboxInv = s := by
  rw [shiftRowsInv_shiftRows _ (by simpa using h), List.map_map]
  have hf : sboxInv ∘ sbox = id := funext sboxInv_sbox
  rw [hf, List.map_id]

theorem length_aesRounds : ∀ (ks : List Bytes) (s : Bytes), (∀ k ∈ ks, k.length = 16) → s.length = 16 → (aesRounds ks s).length = 16
  | [], _, _, h => h
  | k :: ks, s, hk, h => by
    simp only [aesRounds]
    refine length_aesRounds ks _ (fun x hx => hk x (by simp [hx])) ?_
    have hl := length_shiftRows (s.map sbox)
    rw [length_xorB, hk k (by simp)]
    split
    · rw [hl]; rfl
    · rw [length_mixCols _ hl]; rfl

/-- The inverse rounds undo the rounds down to the first one's substitution. -/
theorem aesUnround_aesRounds : ∀ (ks : List Bytes) (k : Bytes) (s : Bytes) (rest : List Bytes),
    (∀ x ∈ k :: ks, x.length = 16) → s.length = 16 → rest ≠ [] →
    ∃ z r, (k :: ks).reverse = z :: r ∧
      aesUnround (r ++ rest) (xorB (aesRounds (k :: ks) s) z) = aesUnround rest (shiftRows (s.map sbox))
  | [], k, s, rest, hk, hs, _ => by
    refine ⟨k, [], rfl, ?_⟩
    show aesUnround rest (xorB (xorB (shiftRows (s.map sbox)) k) k) = _
    rw [xorB_xorB _ _ (Nat.le_of_eq (by rw [length_shiftRows, hk k (by simp)]))]
  | k' :: ks, k, s, rest, hk, hs, hr => by
    have hl := length_shiftRows (s.map sbox)
    have hm := length_mixCols _ hl
    have hkl : k.length = 16 := hk k (by simp)
    have hs' : (xorB (mixCols (shiftRows (s.map sbox))) k).length = 16 := by rw [length_xorB, hm, hkl]; rfl
    obtain ⟨z, r, hz, ih⟩ := aesUnround_aesRounds ks k' _ (k :: rest) (fun x hx => hk x (by simp [hx])) hs' (by simp)
    refine ⟨z, r ++ [k], by rw [List.reverse_cons, hz]; rfl, ?_⟩
    rw [List.append_assoc]
    refine Eq.trans ih ?_
    have he : rest.isEmpty = false := by cases rest with
      | nil => exact absurd rfl hr
      | cons _ _ => rfl
    simp only [aesUnround, he]
    rw [unround_round _ hs', xorB_xorB _ _ (Nat.le_of_eq (by rw [hm, hkl]))]
    simp only [Bool.false_eq_true, if_false]
    rw [mixColsInv_mixCols _ hl]

/-- The inverse cipher undoes the cipher. -/
theorem aesInvWith_aesWith (ks : List Bytes) (b : Bytes) (h2 : 2 ≤ ks.length) (hk : ∀ k ∈ ks, k.length = 16) (hb : b.length = 16) :
    aesInvWith ks (aesWith ks b) = b := by
  match ks, h2 with
  | k0 :: k1 :: ks, _ =>
    have fit16 (x : Bytes) (h : x.length = 16) : fit x 16 = x := by
      simp [fit, h, zeros, List.take_of_length_le (Nat.le_of_eq h)]
    have hs : (xorB b k0).length = 16 := by rw [length_xorB, hb, hk k0 (by simp)]; rfl
    obtain ⟨z, r, hz, h⟩ := aesUnround_aesRounds ks k1 (xorB b k0) [k0] (fun x hx => hk x (by simp [hx])) hs (by simp)
    have hlen := length_aesRounds (k1 :: ks) (xorB b k0) (fun x hx => hk x (by simp [hx])) hs
    have hrev : (k0 :: k1 :: ks).reverse = z :: (r ++ [k0]) := by rw [List.reverse_cons, hz]; rfl
    show (match (k0 :: k1 :: ks).reverse with | [] => _ | k :: t => aesUnround t (xorB (fit (aesRounds (k1 :: ks) (xorB (fit b 16) k0)) 16) k)) = b
    rw [hrev, fit16 b hb]
    show aesUnround (r ++ [k0]) (xorB (fit _ 16) z) = b
    rw [fit16 _ hlen, h]
    show xorB ((shiftRowsInv (shiftRows ((xorB b k0).map sbox))).map sboxInv) k0 = b
    rw [unround_round _ hs, xorB_xorB _ _ (Nat.le_of_eq (by rw [hb, hk k0 (by simp)]))]

/-! ### Key wrap -/

/-- What wrapping keeps: a whole integrity word, and whole semiblocks, `n` of them. -/
abbrev Semi (n : Nat) (x : Bytes × List Bytes) : Prop := x.1.length = 8 ∧ x.2.length = n ∧ ∀ b ∈ x.2, b.length = 8

/-- Unwrapping from the step that wrapping reached answers what wrapping began from. -/
theorem unwrapSteps_wrapSteps (ks : List Bytes) (h2 : 2 ≤ ks.length) (hk : ∀ k ∈ ks, k.length = 16) (n : Nat) (hn : 0 < n) :
    ∀ (m u : Nat) (x : Bytes × List Bytes), Semi n x →
      Semi n (wrapSteps ks m (u + 1) x) ∧ unwrapSteps ks (u + m) (wrapSteps ks m (u + 1) x) = unwrapSteps ks u x
  | 0, _, _, hx => ⟨hx, rfl⟩
  | m + 1, u, (a, r), ⟨ha, hr, hb⟩ => by
    have ha : a.length = 8 := ha
    have hr : r.length = n := hr
    have hmax : max r.length 1 = n := by rw [hr]; omega
    have hi : u % n < r.length := by rw [hr]; exact Nat.mod_lt _ hn
    have hri : (r.getD (u % n) []).length = 8 := by
      rw [List.getD_eq_getElem?_getD, List.getElem?_eq_getElem hi]; exact hb _ (List.getElem_mem hi)
    have hcat : (a ++ r.getD (u % n) []).length = 16 := by rw [List.length_append, ha, hri]
    have hlen : (aesWith ks (a ++ r.getD (u % n) [])).length = 16 := by
      match ks, h2 with
      | k0 :: k1 :: ks, _ =>
        refine length_aesRounds (k1 :: ks) _ (fun x hx => hk x (by simp [hx])) ?_
        rw [length_xorB, hk k0 (by simp), length_fit]
        rfl
    have hinv := aesInvWith_aesWith ks _ h2 hk hcat
    generalize hB : aesWith ks (a ++ r.getD (u % n) []) = b at hlen hinv
    have hbe : (be (u + 1) 8).length = 8 := by simp [be, le]
    have htake : (b.take 8).length = 8 := by simp [hlen]
    have hstep : wrapSteps ks (m + 1) (u + 1) (a, r) =
        wrapSteps ks m (u + 1 + 1) (xorB (b.take 8) (be (u + 1) 8), r.set (u % n) (b.drop 8)) := by
      simp only [wrapSteps, Nat.add_sub_cancel, hmax, hB]
    have hsemi : Semi n (xorB (b.take 8) (be (u + 1) 8), r.set (u % n) (b.drop 8)) := by
      refine ⟨by rw [length_xorB, htake, hbe]; rfl, by simp [hr], fun y hy => ?_⟩
      rcases List.mem_or_eq_of_mem_set hy with hy | rfl
      · exact hb y hy
      · simp [hlen]
    obtain ⟨hs, he⟩ := unwrapSteps_wrapSteps ks h2 hk n hn m (u + 1) _ hsemi
    rw [hstep]
    refine ⟨hs, ?_⟩
    rw [show u + (m + 1) = u + 1 + m by omega, he]
    have hget : (r.set (u % n) (b.drop 8)).getD (u % n) [] = b.drop 8 := by
      rw [List.getD_eq_getElem?_getD, List.getElem?_set_self hi]; rfl
    have hmax' : max (r.set (u % n) (b.drop 8)).length 1 = n := by rw [List.length_set, hmax]
    simp only [unwrapSteps, hmax', hget]
    rw [xorB_xorB _ _ (Nat.le_of_eq (by rw [htake, hbe])), List.take_append_drop, hinv,
      List.take_left' ha, List.drop_left' ha, List.set_set, List.getD_eq_getElem?_getD, List.getElem?_eq_getElem hi]
    simp

theorem length_rotateLeft4 (w : Bytes) (h : w.length = 4) : (w.rotateLeft 1).length = 4 := by
  match w, h with
  | [_, _, _, _], _ => rfl

/-- The words of a key schedule. -/
theorem length_aesExpand (nk : Nat) (hnk : 0 < nk) : ∀ (n i : Nat) (rc : Byte) (ws : List Bytes), nk ≤ ws.length → (∀ w ∈ ws, w.length = 4) →
    (aesExpand nk n i rc ws).length = ws.length + n ∧ ∀ w ∈ aesExpand nk n i rc ws, w.length = 4
  | 0, _, _, _, _, h => ⟨rfl, h⟩
  | n + 1, i, rc, ws, hl, h => by
    have get (j : Nat) (hj : j < ws.length) : (ws.getD j []).length = 4 := by
      rw [List.getD_eq_getElem?_getD, List.getElem?_eq_getElem hj]; exact h _ (List.getElem_mem hj)
    have h0 := get 0 (by omega)
    have h1 := get (nk - 1) (by omega)
    simp only [aesExpand]
    have key : ∀ t : Bytes, t.length = 4 → ∀ rc : Byte,
        (aesExpand nk n (i + 1) rc (xorB (ws.getD (nk - 1) []) t :: ws)).length = ws.length + (n + 1) ∧
        ∀ w ∈ aesExpand nk n (i + 1) rc (xorB (ws.getD (nk - 1) []) t :: ws), w.length = 4 := by
      intro t ht rc
      have ih := length_aesExpand nk hnk n (i + 1) rc (xorB (ws.getD (nk - 1) []) t :: ws) (by simp <;> omega) (by
        intro w hw
        rcases List.mem_cons.1 hw with rfl | hw
        · rw [length_xorB, h1, ht]; rfl
        · exact h w hw)
      refine ⟨by rw [ih.1, List.length_cons]; omega, ih.2⟩
    refine key _ ?_ _
    split
    · rw [length_xorB, List.length_map, length_rotateLeft4 _ h0]; rfl
    · split
      · rw [List.length_map, h0]
      · exact h0

/-- A key of 32 bytes gives fifteen round keys of sixteen bytes. -/
theorem aesKeys_whole (key : Bytes) (h : key.length = 32) : (aesKeys key).length = 15 ∧ ∀ k ∈ aesKeys key, k.length = 16 := by
  have hw := length_aesExpand 8 (by omega) 52 8 1 (((List.range 8).map fun i => slice key (4 * i) 4).reverse) (by simp) (by
    intro w hw
    simp only [List.mem_reverse, List.mem_map, List.mem_range] at hw
    obtain ⟨i, hi, rfl⟩ := hw
    simp [slice, h] <;> omega)
  have hl : ((List.range 8).map fun i => slice key (4 * i) 4).reverse.length = 8 := by simp
  rw [hl] at hw
  have hd : key.length / 4 = 8 := by rw [h]
  refine ⟨by simp [aesKeys, hd], ?_⟩
  intro k hk
  simp only [aesKeys, hd, List.mem_map, List.mem_range] at hk
  obtain ⟨r, hr, rfl⟩ := hk
  rw [length_flatten_of 4]
  · rw [aesKeys.slice', List.length_take, List.length_drop, List.length_reverse, hw.1]
    omega
  · intro w hm
    exact hw.2 w (List.mem_reverse.1 (List.mem_of_mem_drop (List.mem_of_mem_take hm)))

/-- The semiblocks of a string of whole semiblocks, joined, are the string. -/
theorem flatten_semiblocks (b : Bytes) (n : Nat) (h : b.length = 8 * n) : (semiblocks b).flatten = b := by
  have go : ∀ (n : Nat) (b : Bytes), b.length = 8 * n → ((List.range n).map fun i => slice b (8 * i) 8).flatten = b := by
    intro n
    induction n with
    | zero => intro b hb; rw [List.length_eq_zero_iff.1 hb]; rfl
    | succ n ih =>
      intro b hb
      rw [List.range_succ_eq_map, List.map_cons, List.map_map, List.flatten_cons]
      have hf : ((fun i => slice b (8 * i) 8) ∘ Nat.succ) = fun i => slice (b.drop 8) (8 * i) 8 := by
        funext i
        simp only [Function.comp, slice, List.drop_drop]
        congr 2; omega
      rw [hf, ih (b.drop 8) (by simp [hb] <;> omega)]
      simp [slice]
  rw [semiblocks, h, Nat.mul_div_cancel_left n (by omega)]
  exact go n b h

theorem semiblocks_whole (b : Bytes) (n : Nat) (h : b.length = 8 * n) :
    (semiblocks b).length = n ∧ ∀ w ∈ semiblocks b, w.length = 8 := by
  refine ⟨by simp [semiblocks, h], fun w hw => ?_⟩
  simp only [semiblocks, h, List.mem_map, List.mem_range] at hw
  obtain ⟨i, hi, rfl⟩ := hw
  simp [slice, h] <;> omega

/-- Strings of whole semiblocks are the semiblocks of what they join to. -/
theorem semiblocks_flatten (r : List Bytes) (h : ∀ w ∈ r, w.length = 8) : semiblocks r.flatten = r := by
  rw [semiblocks, length_flatten_of 8 r h, Nat.mul_div_cancel_left _ (by omega)]
  induction r with
  | nil => rfl
  | cons w r ih =>
    have hw : w.length = 8 := h w (by simp)
    rw [List.length_cons, List.range_succ_eq_map, List.map_cons, List.map_map]
    have hf : ((fun i => slice (w :: r).flatten (8 * i) 8) ∘ Nat.succ) = fun i => slice r.flatten (8 * i) 8 := by
      funext i
      simp only [Function.comp, slice, List.flatten_cons]
      rw [show 8 * i.succ = w.length + 8 * i by rw [hw]; omega, ← List.drop_drop, List.drop_left]
    rw [hf, ih fun x hx => h x (by simp [hx])]
    simp [slice, hw]

/-- Unwrapping a wrapped key of 32 bytes answers it. -/
theorem keyUnwrap_keyWrap (key p : Bytes) (h : p.length = 32) : keyUnwrap key (keyWrap key p) = some p := by
  obtain ⟨hkl, hk⟩ := aesKeys_whole (fit key 32) (length_fit key 32)
  obtain ⟨hn, hp⟩ := semiblocks_whole p 4 h
  have hx := unwrapSteps_wrapSteps (aesKeys (fit key 32)) (by rw [hkl]; omega) hk 4 (by omega) 24 0
    (List.replicate 8 0xA6, semiblocks p) ⟨rfl, hn, hp⟩
  simp only [keyUnwrap, keyWrap, hn]
  generalize hw : wrapSteps (aesKeys (fit key 32)) (6 * 4) 1 (List.replicate 8 0xA6, semiblocks p) = x at *
  obtain ⟨⟨h1, h2, h3⟩, he⟩ := hx
  rw [List.drop_left' h1, List.take_left' h1, semiblocks_flatten _ h3, h2]
  rw [Nat.zero_add] at he
  rw [show (6 * 4 : Nat) = 24 from rfl, show (x.1, x.2) = x from rfl, he]
  simp only [unwrapSteps, if_true, flatten_semiblocks p 4 h]

end Sys2Proof.Machine
end

