-- ==== Sys2Proof/Laws/State.lean ====
section
/-!
SUPPORT. Sys2Proof/Laws/State.lean: what each shared update of the state leaves as it was, one lemma per component, so that
no proof unfolds a record update.
-/
namespace Sys2Proof.Machine

@[simp] theorem after_regs (s t : State) : (after s t).regs = t.regs := rfl
@[simp] theorem after_accs (s t : State) : (after s t).accs = t.accs := rfl
@[simp] theorem after_clk (s t : State) : (after s t).clk = t.clk := rfl
@[simp] theorem after_pwr (s t : State) : (after s t).pwr = t.pwr := rfl
@[simp] theorem after_rom (s t : State) : (after s t).rom = t.rom := rfl
@[simp] theorem after_img (s t : State) : (after s t).img = t.img := rfl
@[simp] theorem after_ses (s t : State) : (after s t).ses = t.ses := rfl
@[simp] theorem after_stp (s t : State) : (after s t).stp = t.stp := rfl
@[simp] theorem after_ari (s t : State) : (after s t).ari = t.ari := rfl
@[simp] theorem after_atn (s t : State) : (after s t).atn = t.atn := rfl
@[simp] theorem after_mem (s t : State) : (after s t).mem = t.mem := rfl
@[simp] theorem after_vec (s t : State) : (after s t).vec = t.vec := rfl
@[simp] theorem after_hst (s t : State) : (after s t).hst = t.hst := rfl
@[simp] theorem after_shp (s t : State) : (after s t).shp = t.shp := rfl
@[simp] theorem after_wlt (s t : State) : (after s t).wlt = t.wlt := rfl
@[simp] theorem after_map (s t : State) : (after s t).map = t.map := rfl
@[simp] theorem after_ckp (s t : State) : (after s t).ckp = t.ckp := rfl
@[simp] theorem after_sec (s t : State) : (after s t).sec = t.sec := rfl
@[simp] theorem after_i3c (s t : State) : (after s t).i3c = t.i3c := rfl
@[simp] theorem after_err (s t : State) : (after s t).err = t.err := rfl
@[simp] theorem after_out (s t : State) : (after s t).out = t.out := rfl
@[simp] theorem after_free (s t : State) : (after s t).free = t.free := rfl
@[simp] theorem after_pending (s t : State) : (after s t).pending = s.pending := rfl
@[simp] theorem after_lim (s t : State) : (after s t).lim = (notePeaks t).lim := rfl

@[simp] theorem notePeaks_pending (s : State) : (notePeaks s).pending = s.pending := rfl
@[simp] theorem notePeaks_regs (s : State) : (notePeaks s).regs = s.regs := rfl
@[simp] theorem notePeaks_accs (s : State) : (notePeaks s).accs = s.accs := rfl
@[simp] theorem notePeaks_clk (s : State) : (notePeaks s).clk = s.clk := rfl
@[simp] theorem notePeaks_pwr (s : State) : (notePeaks s).pwr = s.pwr := rfl
@[simp] theorem notePeaks_rom (s : State) : (notePeaks s).rom = s.rom := rfl
@[simp] theorem notePeaks_img (s : State) : (notePeaks s).img = s.img := rfl
@[simp] theorem notePeaks_ses (s : State) : (notePeaks s).ses = s.ses := rfl
@[simp] theorem notePeaks_stp (s : State) : (notePeaks s).stp = s.stp := rfl
@[simp] theorem notePeaks_ari (s : State) : (notePeaks s).ari = s.ari := rfl
@[simp] theorem notePeaks_atn (s : State) : (notePeaks s).atn = s.atn := rfl
@[simp] theorem notePeaks_mem (s : State) : (notePeaks s).mem = s.mem := rfl
@[simp] theorem notePeaks_vec (s : State) : (notePeaks s).vec = s.vec := rfl
@[simp] theorem notePeaks_hst (s : State) : (notePeaks s).hst = s.hst := rfl
@[simp] theorem notePeaks_shp (s : State) : (notePeaks s).shp = s.shp := rfl
@[simp] theorem notePeaks_wlt (s : State) : (notePeaks s).wlt = s.wlt := rfl
@[simp] theorem notePeaks_map (s : State) : (notePeaks s).map = s.map := rfl
@[simp] theorem notePeaks_ckp (s : State) : (notePeaks s).ckp = s.ckp := rfl
@[simp] theorem notePeaks_sec (s : State) : (notePeaks s).sec = s.sec := rfl
@[simp] theorem notePeaks_i3c (s : State) : (notePeaks s).i3c = s.i3c := rfl
@[simp] theorem notePeaks_err (s : State) : (notePeaks s).err = s.err := rfl
@[simp] theorem notePeaks_out (s : State) : (notePeaks s).out = s.out := rfl
@[simp] theorem notePeaks_free (s : State) : (notePeaks s).free = s.free := rfl

@[simp] theorem advance_pending (t : Nat) (s : State) : (advance t s).pending = s.pending := rfl
@[simp] theorem advance_regs (t : Nat) (s : State) : (advance t s).regs = s.regs := rfl
@[simp] theorem advance_accs (t : Nat) (s : State) : (advance t s).accs = s.accs := rfl
@[simp] theorem advance_pwr (t : Nat) (s : State) : (advance t s).pwr = s.pwr := rfl
@[simp] theorem advance_rom (t : Nat) (s : State) : (advance t s).rom = s.rom := rfl
@[simp] theorem advance_img (t : Nat) (s : State) : (advance t s).img = s.img := rfl
@[simp] theorem advance_ses (t : Nat) (s : State) : (advance t s).ses = s.ses := rfl
@[simp] theorem advance_stp (t : Nat) (s : State) : (advance t s).stp = s.stp := rfl
@[simp] theorem advance_ari (t : Nat) (s : State) : (advance t s).ari = s.ari := rfl
@[simp] theorem advance_atn (t : Nat) (s : State) : (advance t s).atn = s.atn := rfl
@[simp] theorem advance_mem (t : Nat) (s : State) : (advance t s).mem = s.mem := rfl
@[simp] theorem advance_vec (t : Nat) (s : State) : (advance t s).vec = s.vec := rfl
@[simp] theorem advance_hst (t : Nat) (s : State) : (advance t s).hst = s.hst := rfl
@[simp] theorem advance_shp (t : Nat) (s : State) : (advance t s).shp = s.shp := rfl
@[simp] theorem advance_wlt (t : Nat) (s : State) : (advance t s).wlt = s.wlt := rfl
@[simp] theorem advance_map (t : Nat) (s : State) : (advance t s).map = s.map := rfl
@[simp] theorem advance_ckp (t : Nat) (s : State) : (advance t s).ckp = s.ckp := rfl
@[simp] theorem advance_sec (t : Nat) (s : State) : (advance t s).sec = s.sec := rfl
@[simp] theorem advance_i3c (t : Nat) (s : State) : (advance t s).i3c = s.i3c := rfl
@[simp] theorem advance_err (t : Nat) (s : State) : (advance t s).err = s.err := rfl
@[simp] theorem advance_lim (t : Nat) (s : State) : (advance t s).lim = s.lim := rfl
@[simp] theorem advance_out (t : Nat) (s : State) : (advance t s).out = s.out := rfl
@[simp] theorem advance_free (t : Nat) (s : State) : (advance t s).free = s.free := rfl
@[simp] theorem advance_clk (t : Nat) (s : State) : (advance t s).clk = s.clk.advance t := rfl

@[simp] theorem hit_pending (i : Nat) (s : State) : (hit i s).pending = s.pending := rfl
@[simp] theorem hit_regs (i : Nat) (s : State) : (hit i s).regs = s.regs := rfl
@[simp] theorem hit_accs (i : Nat) (s : State) : (hit i s).accs = s.accs := rfl
@[simp] theorem hit_clk (i : Nat) (s : State) : (hit i s).clk = s.clk := rfl
@[simp] theorem hit_pwr (i : Nat) (s : State) : (hit i s).pwr = s.pwr := rfl
@[simp] theorem hit_rom (i : Nat) (s : State) : (hit i s).rom = s.rom := rfl
@[simp] theorem hit_img (i : Nat) (s : State) : (hit i s).img = s.img := rfl
@[simp] theorem hit_ses (i : Nat) (s : State) : (hit i s).ses = s.ses := rfl
@[simp] theorem hit_stp (i : Nat) (s : State) : (hit i s).stp = s.stp := rfl
@[simp] theorem hit_ari (i : Nat) (s : State) : (hit i s).ari = s.ari := rfl
@[simp] theorem hit_atn (i : Nat) (s : State) : (hit i s).atn = s.atn := rfl
@[simp] theorem hit_mem (i : Nat) (s : State) : (hit i s).mem = s.mem := rfl
@[simp] theorem hit_vec (i : Nat) (s : State) : (hit i s).vec = s.vec := rfl
@[simp] theorem hit_hst (i : Nat) (s : State) : (hit i s).hst = s.hst := rfl
@[simp] theorem hit_shp (i : Nat) (s : State) : (hit i s).shp = s.shp := rfl
@[simp] theorem hit_wlt (i : Nat) (s : State) : (hit i s).wlt = s.wlt := rfl
@[simp] theorem hit_map (i : Nat) (s : State) : (hit i s).map = s.map := rfl
@[simp] theorem hit_ckp (i : Nat) (s : State) : (hit i s).ckp = s.ckp := rfl
@[simp] theorem hit_sec (i : Nat) (s : State) : (hit i s).sec = s.sec := rfl
@[simp] theorem hit_i3c (i : Nat) (s : State) : (hit i s).i3c = s.i3c := rfl
@[simp] theorem hit_err (i : Nat) (s : State) : (hit i s).err = s.err := rfl
@[simp] theorem hit_out (i : Nat) (s : State) : (hit i s).out = s.out := rfl
@[simp] theorem hit_free (i : Nat) (s : State) : (hit i s).free = s.free := rfl

@[simp] theorem modQp_pending (qp : Nat) (f : Qp → Qp) (s : State) : (modQp qp f s).pending = s.pending := rfl
@[simp] theorem modQp_regs (qp : Nat) (f : Qp → Qp) (s : State) : (modQp qp f s).regs = s.regs := rfl
@[simp] theorem modQp_accs (qp : Nat) (f : Qp → Qp) (s : State) : (modQp qp f s).accs = s.accs := rfl
@[simp] theorem modQp_clk (qp : Nat) (f : Qp → Qp) (s : State) : (modQp qp f s).clk = s.clk := rfl
@[simp] theorem modQp_pwr (qp : Nat) (f : Qp → Qp) (s : State) : (modQp qp f s).pwr = s.pwr := rfl
@[simp] theorem modQp_rom (qp : Nat) (f : Qp → Qp) (s : State) : (modQp qp f s).rom = s.rom := rfl
@[simp] theorem modQp_img (qp : Nat) (f : Qp → Qp) (s : State) : (modQp qp f s).img = s.img := rfl
@[simp] theorem modQp_ses (qp : Nat) (f : Qp → Qp) (s : State) : (modQp qp f s).ses = s.ses := rfl
@[simp] theorem modQp_stp (qp : Nat) (f : Qp → Qp) (s : State) : (modQp qp f s).stp = s.stp := rfl
@[simp] theorem modQp_ari (qp : Nat) (f : Qp → Qp) (s : State) : (modQp qp f s).ari = s.ari := rfl
@[simp] theorem modQp_atn (qp : Nat) (f : Qp → Qp) (s : State) : (modQp qp f s).atn = s.atn := rfl
@[simp] theorem modQp_mem (qp : Nat) (f : Qp → Qp) (s : State) : (modQp qp f s).mem = s.mem := rfl
@[simp] theorem modQp_vec (qp : Nat) (f : Qp → Qp) (s : State) : (modQp qp f s).vec = s.vec := rfl
@[simp] theorem modQp_shp (qp : Nat) (f : Qp → Qp) (s : State) : (modQp qp f s).shp = s.shp := rfl
@[simp] theorem modQp_wlt (qp : Nat) (f : Qp → Qp) (s : State) : (modQp qp f s).wlt = s.wlt := rfl
@[simp] theorem modQp_map (qp : Nat) (f : Qp → Qp) (s : State) : (modQp qp f s).map = s.map := rfl
@[simp] theorem modQp_ckp (qp : Nat) (f : Qp → Qp) (s : State) : (modQp qp f s).ckp = s.ckp := rfl
@[simp] theorem modQp_sec (qp : Nat) (f : Qp → Qp) (s : State) : (modQp qp f s).sec = s.sec := rfl
@[simp] theorem modQp_i3c (qp : Nat) (f : Qp → Qp) (s : State) : (modQp qp f s).i3c = s.i3c := rfl
@[simp] theorem modQp_err (qp : Nat) (f : Qp → Qp) (s : State) : (modQp qp f s).err = s.err := rfl
@[simp] theorem modQp_lim (qp : Nat) (f : Qp → Qp) (s : State) : (modQp qp f s).lim = s.lim := rfl
@[simp] theorem modQp_out (qp : Nat) (f : Qp → Qp) (s : State) : (modQp qp f s).out = s.out := rfl
@[simp] theorem modQp_free (qp : Nat) (f : Qp → Qp) (s : State) : (modQp qp f s).free = s.free := rfl

@[simp] theorem modPort_pending (p : Nat) (f : EPort → EPort) (s : State) : (modPort p f s).pending = s.pending := rfl
@[simp] theorem modPort_regs (p : Nat) (f : EPort → EPort) (s : State) : (modPort p f s).regs = s.regs := rfl
@[simp] theorem modPort_accs (p : Nat) (f : EPort → EPort) (s : State) : (modPort p f s).accs = s.accs := rfl
@[simp] theorem modPort_clk (p : Nat) (f : EPort → EPort) (s : State) : (modPort p f s).clk = s.clk := rfl
@[simp] theorem modPort_pwr (p : Nat) (f : EPort → EPort) (s : State) : (modPort p f s).pwr = s.pwr := rfl
@[simp] theorem modPort_rom (p : Nat) (f : EPort → EPort) (s : State) : (modPort p f s).rom = s.rom := rfl
@[simp] theorem modPort_img (p : Nat) (f : EPort → EPort) (s : State) : (modPort p f s).img = s.img := rfl
@[simp] theorem modPort_ses (p : Nat) (f : EPort → EPort) (s : State) : (modPort p f s).ses = s.ses := rfl
@[simp] theorem modPort_stp (p : Nat) (f : EPort → EPort) (s : State) : (modPort p f s).stp = s.stp := rfl
@[simp] theorem modPort_ari (p : Nat) (f : EPort → EPort) (s : State) : (modPort p f s).ari = s.ari := rfl
@[simp] theorem modPort_atn (p : Nat) (f : EPort → EPort) (s : State) : (modPort p f s).atn = s.atn := rfl
@[simp] theorem modPort_mem (p : Nat) (f : EPort → EPort) (s : State) : (modPort p f s).mem = s.mem := rfl
@[simp] theorem modPort_vec (p : Nat) (f : EPort → EPort) (s : State) : (modPort p f s).vec = s.vec := rfl
@[simp] theorem modPort_hst (p : Nat) (f : EPort → EPort) (s : State) : (modPort p f s).hst = s.hst := rfl
@[simp] theorem modPort_wlt (p : Nat) (f : EPort → EPort) (s : State) : (modPort p f s).wlt = s.wlt := rfl
@[simp] theorem modPort_map (p : Nat) (f : EPort → EPort) (s : State) : (modPort p f s).map = s.map := rfl
@[simp] theorem modPort_ckp (p : Nat) (f : EPort → EPort) (s : State) : (modPort p f s).ckp = s.ckp := rfl
@[simp] theorem modPort_sec (p : Nat) (f : EPort → EPort) (s : State) : (modPort p f s).sec = s.sec := rfl
@[simp] theorem modPort_i3c (p : Nat) (f : EPort → EPort) (s : State) : (modPort p f s).i3c = s.i3c := rfl
@[simp] theorem modPort_err (p : Nat) (f : EPort → EPort) (s : State) : (modPort p f s).err = s.err := rfl
@[simp] theorem modPort_lim (p : Nat) (f : EPort → EPort) (s : State) : (modPort p f s).lim = s.lim := rfl
@[simp] theorem modPort_out (p : Nat) (f : EPort → EPort) (s : State) : (modPort p f s).out = s.out := rfl
@[simp] theorem modPort_free (p : Nat) (f : EPort → EPort) (s : State) : (modPort p f s).free = s.free := rfl

@[simp] theorem setEvBuf_pending (t : Nat) (b : EvBuf) (s : State) : (setEvBuf t b s).pending = s.pending := rfl
@[simp] theorem setEvBuf_regs (t : Nat) (b : EvBuf) (s : State) : (setEvBuf t b s).regs = s.regs := rfl
@[simp] theorem setEvBuf_accs (t : Nat) (b : EvBuf) (s : State) : (setEvBuf t b s).accs = s.accs := rfl
@[simp] theorem setEvBuf_clk (t : Nat) (b : EvBuf) (s : State) : (setEvBuf t b s).clk = s.clk := rfl
@[simp] theorem setEvBuf_pwr (t : Nat) (b : EvBuf) (s : State) : (setEvBuf t b s).pwr = s.pwr := rfl
@[simp] theorem setEvBuf_rom (t : Nat) (b : EvBuf) (s : State) : (setEvBuf t b s).rom = s.rom := rfl
@[simp] theorem setEvBuf_img (t : Nat) (b : EvBuf) (s : State) : (setEvBuf t b s).img = s.img := rfl
@[simp] theorem setEvBuf_ses (t : Nat) (b : EvBuf) (s : State) : (setEvBuf t b s).ses = s.ses := rfl
@[simp] theorem setEvBuf_stp (t : Nat) (b : EvBuf) (s : State) : (setEvBuf t b s).stp = s.stp := rfl
@[simp] theorem setEvBuf_ari (t : Nat) (b : EvBuf) (s : State) : (setEvBuf t b s).ari = s.ari := rfl
@[simp] theorem setEvBuf_atn (t : Nat) (b : EvBuf) (s : State) : (setEvBuf t b s).atn = s.atn := rfl
@[simp] theorem setEvBuf_mem (t : Nat) (b : EvBuf) (s : State) : (setEvBuf t b s).mem = s.mem := rfl
@[simp] theorem setEvBuf_vec (t : Nat) (b : EvBuf) (s : State) : (setEvBuf t b s).vec = s.vec := rfl
@[simp] theorem setEvBuf_shp (t : Nat) (b : EvBuf) (s : State) : (setEvBuf t b s).shp = s.shp := rfl
@[simp] theorem setEvBuf_wlt (t : Nat) (b : EvBuf) (s : State) : (setEvBuf t b s).wlt = s.wlt := rfl
@[simp] theorem setEvBuf_map (t : Nat) (b : EvBuf) (s : State) : (setEvBuf t b s).map = s.map := rfl
@[simp] theorem setEvBuf_ckp (t : Nat) (b : EvBuf) (s : State) : (setEvBuf t b s).ckp = s.ckp := rfl
@[simp] theorem setEvBuf_sec (t : Nat) (b : EvBuf) (s : State) : (setEvBuf t b s).sec = s.sec := rfl
@[simp] theorem setEvBuf_i3c (t : Nat) (b : EvBuf) (s : State) : (setEvBuf t b s).i3c = s.i3c := rfl
@[simp] theorem setEvBuf_err (t : Nat) (b : EvBuf) (s : State) : (setEvBuf t b s).err = s.err := rfl
@[simp] theorem setEvBuf_lim (t : Nat) (b : EvBuf) (s : State) : (setEvBuf t b s).lim = s.lim := rfl
@[simp] theorem setEvBuf_out (t : Nat) (b : EvBuf) (s : State) : (setEvBuf t b s).out = s.out := rfl
@[simp] theorem setEvBuf_free (t : Nat) (b : EvBuf) (s : State) : (setEvBuf t b s).free = s.free := rfl

@[simp] theorem modLink_pending (l : Nat) (f : Link → Link) (s : State) : (modLink l f s).pending = s.pending := rfl
@[simp] theorem modLink_regs (l : Nat) (f : Link → Link) (s : State) : (modLink l f s).regs = s.regs := rfl
@[simp] theorem modLink_accs (l : Nat) (f : Link → Link) (s : State) : (modLink l f s).accs = s.accs := rfl
@[simp] theorem modLink_clk (l : Nat) (f : Link → Link) (s : State) : (modLink l f s).clk = s.clk := rfl
@[simp] theorem modLink_pwr (l : Nat) (f : Link → Link) (s : State) : (modLink l f s).pwr = s.pwr := rfl
@[simp] theorem modLink_rom (l : Nat) (f : Link → Link) (s : State) : (modLink l f s).rom = s.rom := rfl
@[simp] theorem modLink_img (l : Nat) (f : Link → Link) (s : State) : (modLink l f s).img = s.img := rfl
@[simp] theorem modLink_ses (l : Nat) (f : Link → Link) (s : State) : (modLink l f s).ses = s.ses := rfl
@[simp] theorem modLink_stp (l : Nat) (f : Link → Link) (s : State) : (modLink l f s).stp = s.stp := rfl
@[simp] theorem modLink_ari (l : Nat) (f : Link → Link) (s : State) : (modLink l f s).ari = s.ari := rfl
@[simp] theorem modLink_atn (l : Nat) (f : Link → Link) (s : State) : (modLink l f s).atn = s.atn := rfl
@[simp] theorem modLink_mem (l : Nat) (f : Link → Link) (s : State) : (modLink l f s).mem = s.mem := rfl
@[simp] theorem modLink_vec (l : Nat) (f : Link → Link) (s : State) : (modLink l f s).vec = s.vec := rfl
@[simp] theorem modLink_hst (l : Nat) (f : Link → Link) (s : State) : (modLink l f s).hst = s.hst := rfl
@[simp] theorem modLink_shp (l : Nat) (f : Link → Link) (s : State) : (modLink l f s).shp = s.shp := rfl
@[simp] theorem modLink_map (l : Nat) (f : Link → Link) (s : State) : (modLink l f s).map = s.map := rfl
@[simp] theorem modLink_ckp (l : Nat) (f : Link → Link) (s : State) : (modLink l f s).ckp = s.ckp := rfl
@[simp] theorem modLink_sec (l : Nat) (f : Link → Link) (s : State) : (modLink l f s).sec = s.sec := rfl
@[simp] theorem modLink_i3c (l : Nat) (f : Link → Link) (s : State) : (modLink l f s).i3c = s.i3c := rfl
@[simp] theorem modLink_err (l : Nat) (f : Link → Link) (s : State) : (modLink l f s).err = s.err := rfl
@[simp] theorem modLink_lim (l : Nat) (f : Link → Link) (s : State) : (modLink l f s).lim = s.lim := rfl
@[simp] theorem modLink_out (l : Nat) (f : Link → Link) (s : State) : (modLink l f s).out = s.out := rfl
@[simp] theorem modLink_free (l : Nat) (f : Link → Link) (s : State) : (modLink l f s).free = s.free := rfl

@[simp] theorem modSess_pending (i : Nat) (f : Sess → Sess) (s : State) : (modSess i f s).pending = s.pending := by unfold modSess; split <;> rfl
@[simp] theorem modSess_regs (i : Nat) (f : Sess → Sess) (s : State) : (modSess i f s).regs = s.regs := by unfold modSess; split <;> rfl
@[simp] theorem modSess_accs (i : Nat) (f : Sess → Sess) (s : State) : (modSess i f s).accs = s.accs := by unfold modSess; split <;> rfl
@[simp] theorem modSess_clk (i : Nat) (f : Sess → Sess) (s : State) : (modSess i f s).clk = s.clk := by unfold modSess; split <;> rfl
@[simp] theorem modSess_pwr (i : Nat) (f : Sess → Sess) (s : State) : (modSess i f s).pwr = s.pwr := by unfold modSess; split <;> rfl
@[simp] theorem modSess_rom (i : Nat) (f : Sess → Sess) (s : State) : (modSess i f s).rom = s.rom := by unfold modSess; split <;> rfl
@[simp] theorem modSess_img (i : Nat) (f : Sess → Sess) (s : State) : (modSess i f s).img = s.img := by unfold modSess; split <;> rfl
@[simp] theorem modSess_stp (i : Nat) (f : Sess → Sess) (s : State) : (modSess i f s).stp = s.stp := by unfold modSess; split <;> rfl
@[simp] theorem modSess_ari (i : Nat) (f : Sess → Sess) (s : State) : (modSess i f s).ari = s.ari := by unfold modSess; split <;> rfl
@[simp] theorem modSess_atn (i : Nat) (f : Sess → Sess) (s : State) : (modSess i f s).atn = s.atn := by unfold modSess; split <;> rfl
@[simp] theorem modSess_mem (i : Nat) (f : Sess → Sess) (s : State) : (modSess i f s).mem = s.mem := by unfold modSess; split <;> rfl
@[simp] theorem modSess_vec (i : Nat) (f : Sess → Sess) (s : State) : (modSess i f s).vec = s.vec := by unfold modSess; split <;> rfl
@[simp] theorem modSess_hst (i : Nat) (f : Sess → Sess) (s : State) : (modSess i f s).hst = s.hst := by unfold modSess; split <;> rfl
@[simp] theorem modSess_shp (i : Nat) (f : Sess → Sess) (s : State) : (modSess i f s).shp = s.shp := by unfold modSess; split <;> rfl
@[simp] theorem modSess_wlt (i : Nat) (f : Sess → Sess) (s : State) : (modSess i f s).wlt = s.wlt := by unfold modSess; split <;> rfl
@[simp] theorem modSess_map (i : Nat) (f : Sess → Sess) (s : State) : (modSess i f s).map = s.map := by unfold modSess; split <;> rfl
@[simp] theorem modSess_ckp (i : Nat) (f : Sess → Sess) (s : State) : (modSess i f s).ckp = s.ckp := by unfold modSess; split <;> rfl
@[simp] theorem modSess_sec (i : Nat) (f : Sess → Sess) (s : State) : (modSess i f s).sec = s.sec := by unfold modSess; split <;> rfl
@[simp] theorem modSess_i3c (i : Nat) (f : Sess → Sess) (s : State) : (modSess i f s).i3c = s.i3c := by unfold modSess; split <;> rfl
@[simp] theorem modSess_err (i : Nat) (f : Sess → Sess) (s : State) : (modSess i f s).err = s.err := by unfold modSess; split <;> rfl
@[simp] theorem modSess_lim (i : Nat) (f : Sess → Sess) (s : State) : (modSess i f s).lim = s.lim := by unfold modSess; split <;> rfl
@[simp] theorem modSess_out (i : Nat) (f : Sess → Sess) (s : State) : (modSess i f s).out = s.out := by unfold modSess; split <;> rfl
@[simp] theorem modSess_free (i : Nat) (f : Sess → Sess) (s : State) : (modSess i f s).free = s.free := by unfold modSess; split <;> rfl

@[simp] theorem modAcc_pending (a : Port) (f : AccRegs → AccRegs) (s : State) : (modAcc a f s).pending = s.pending := rfl
@[simp] theorem modAcc_regs (a : Port) (f : AccRegs → AccRegs) (s : State) : (modAcc a f s).regs = s.regs := rfl
@[simp] theorem modAcc_clk (a : Port) (f : AccRegs → AccRegs) (s : State) : (modAcc a f s).clk = s.clk := rfl
@[simp] theorem modAcc_pwr (a : Port) (f : AccRegs → AccRegs) (s : State) : (modAcc a f s).pwr = s.pwr := rfl
@[simp] theorem modAcc_rom (a : Port) (f : AccRegs → AccRegs) (s : State) : (modAcc a f s).rom = s.rom := rfl
@[simp] theorem modAcc_img (a : Port) (f : AccRegs → AccRegs) (s : State) : (modAcc a f s).img = s.img := rfl
@[simp] theorem modAcc_ses (a : Port) (f : AccRegs → AccRegs) (s : State) : (modAcc a f s).ses = s.ses := rfl
@[simp] theorem modAcc_stp (a : Port) (f : AccRegs → AccRegs) (s : State) : (modAcc a f s).stp = s.stp := rfl
@[simp] theorem modAcc_ari (a : Port) (f : AccRegs → AccRegs) (s : State) : (modAcc a f s).ari = s.ari := rfl
@[simp] theorem modAcc_atn (a : Port) (f : AccRegs → AccRegs) (s : State) : (modAcc a f s).atn = s.atn := rfl
@[simp] theorem modAcc_mem (a : Port) (f : AccRegs → AccRegs) (s : State) : (modAcc a f s).mem = s.mem := rfl
@[simp] theorem modAcc_vec (a : Port) (f : AccRegs → AccRegs) (s : State) : (modAcc a f s).vec = s.vec := rfl
@[simp] theorem modAcc_hst (a : Port) (f : AccRegs → AccRegs) (s : State) : (modAcc a f s).hst = s.hst := rfl
@[simp] theorem modAcc_shp (a : Port) (f : AccRegs → AccRegs) (s : State) : (modAcc a f s).shp = s.shp := rfl
@[simp] theorem modAcc_wlt (a : Port) (f : AccRegs → AccRegs) (s : State) : (modAcc a f s).wlt = s.wlt := rfl
@[simp] theorem modAcc_map (a : Port) (f : AccRegs → AccRegs) (s : State) : (modAcc a f s).map = s.map := rfl
@[simp] theorem modAcc_ckp (a : Port) (f : AccRegs → AccRegs) (s : State) : (modAcc a f s).ckp = s.ckp := rfl
@[simp] theorem modAcc_sec (a : Port) (f : AccRegs → AccRegs) (s : State) : (modAcc a f s).sec = s.sec := rfl
@[simp] theorem modAcc_i3c (a : Port) (f : AccRegs → AccRegs) (s : State) : (modAcc a f s).i3c = s.i3c := rfl
@[simp] theorem modAcc_err (a : Port) (f : AccRegs → AccRegs) (s : State) : (modAcc a f s).err = s.err := rfl
@[simp] theorem modAcc_lim (a : Port) (f : AccRegs → AccRegs) (s : State) : (modAcc a f s).lim = s.lim := rfl
@[simp] theorem modAcc_out (a : Port) (f : AccRegs → AccRegs) (s : State) : (modAcc a f s).out = s.out := rfl
@[simp] theorem modAcc_free (a : Port) (f : AccRegs → AccRegs) (s : State) : (modAcc a f s).free = s.free := rfl

@[simp] theorem modCtx_pending (c : Nat) (f : Ctx → Ctx) (s : State) : (modCtx c f s).pending = s.pending := rfl
@[simp] theorem modCtx_regs (c : Nat) (f : Ctx → Ctx) (s : State) : (modCtx c f s).regs = s.regs := rfl
@[simp] theorem modCtx_accs (c : Nat) (f : Ctx → Ctx) (s : State) : (modCtx c f s).accs = s.accs := rfl
@[simp] theorem modCtx_clk (c : Nat) (f : Ctx → Ctx) (s : State) : (modCtx c f s).clk = s.clk := rfl
@[simp] theorem modCtx_pwr (c : Nat) (f : Ctx → Ctx) (s : State) : (modCtx c f s).pwr = s.pwr := rfl
@[simp] theorem modCtx_rom (c : Nat) (f : Ctx → Ctx) (s : State) : (modCtx c f s).rom = s.rom := rfl
@[simp] theorem modCtx_img (c : Nat) (f : Ctx → Ctx) (s : State) : (modCtx c f s).img = s.img := rfl
@[simp] theorem modCtx_ses (c : Nat) (f : Ctx → Ctx) (s : State) : (modCtx c f s).ses = s.ses := rfl
@[simp] theorem modCtx_ari (c : Nat) (f : Ctx → Ctx) (s : State) : (modCtx c f s).ari = s.ari := rfl
@[simp] theorem modCtx_atn (c : Nat) (f : Ctx → Ctx) (s : State) : (modCtx c f s).atn = s.atn := rfl
@[simp] theorem modCtx_mem (c : Nat) (f : Ctx → Ctx) (s : State) : (modCtx c f s).mem = s.mem := rfl
@[simp] theorem modCtx_vec (c : Nat) (f : Ctx → Ctx) (s : State) : (modCtx c f s).vec = s.vec := rfl
@[simp] theorem modCtx_hst (c : Nat) (f : Ctx → Ctx) (s : State) : (modCtx c f s).hst = s.hst := rfl
@[simp] theorem modCtx_shp (c : Nat) (f : Ctx → Ctx) (s : State) : (modCtx c f s).shp = s.shp := rfl
@[simp] theorem modCtx_wlt (c : Nat) (f : Ctx → Ctx) (s : State) : (modCtx c f s).wlt = s.wlt := rfl
@[simp] theorem modCtx_map (c : Nat) (f : Ctx → Ctx) (s : State) : (modCtx c f s).map = s.map := rfl
@[simp] theorem modCtx_ckp (c : Nat) (f : Ctx → Ctx) (s : State) : (modCtx c f s).ckp = s.ckp := rfl
@[simp] theorem modCtx_sec (c : Nat) (f : Ctx → Ctx) (s : State) : (modCtx c f s).sec = s.sec := rfl
@[simp] theorem modCtx_i3c (c : Nat) (f : Ctx → Ctx) (s : State) : (modCtx c f s).i3c = s.i3c := rfl
@[simp] theorem modCtx_err (c : Nat) (f : Ctx → Ctx) (s : State) : (modCtx c f s).err = s.err := rfl
@[simp] theorem modCtx_lim (c : Nat) (f : Ctx → Ctx) (s : State) : (modCtx c f s).lim = s.lim := rfl
@[simp] theorem modCtx_out (c : Nat) (f : Ctx → Ctx) (s : State) : (modCtx c f s).out = s.out := rfl
@[simp] theorem modCtx_free (c : Nat) (f : Ctx → Ctx) (s : State) : (modCtx c f s).free = s.free := rfl

@[simp] theorem modPwr_pending (f : Power → Power) (s : State) : (modPwr f s).pending = s.pending := rfl
@[simp] theorem modPwr_regs (f : Power → Power) (s : State) : (modPwr f s).regs = s.regs := rfl
@[simp] theorem modPwr_accs (f : Power → Power) (s : State) : (modPwr f s).accs = s.accs := rfl
@[simp] theorem modPwr_clk (f : Power → Power) (s : State) : (modPwr f s).clk = s.clk := rfl
@[simp] theorem modPwr_rom (f : Power → Power) (s : State) : (modPwr f s).rom = s.rom := rfl
@[simp] theorem modPwr_img (f : Power → Power) (s : State) : (modPwr f s).img = s.img := rfl
@[simp] theorem modPwr_ses (f : Power → Power) (s : State) : (modPwr f s).ses = s.ses := rfl
@[simp] theorem modPwr_stp (f : Power → Power) (s : State) : (modPwr f s).stp = s.stp := rfl
@[simp] theorem modPwr_ari (f : Power → Power) (s : State) : (modPwr f s).ari = s.ari := rfl
@[simp] theorem modPwr_atn (f : Power → Power) (s : State) : (modPwr f s).atn = s.atn := rfl
@[simp] theorem modPwr_mem (f : Power → Power) (s : State) : (modPwr f s).mem = s.mem := rfl
@[simp] theorem modPwr_vec (f : Power → Power) (s : State) : (modPwr f s).vec = s.vec := rfl
@[simp] theorem modPwr_hst (f : Power → Power) (s : State) : (modPwr f s).hst = s.hst := rfl
@[simp] theorem modPwr_shp (f : Power → Power) (s : State) : (modPwr f s).shp = s.shp := rfl
@[simp] theorem modPwr_wlt (f : Power → Power) (s : State) : (modPwr f s).wlt = s.wlt := rfl
@[simp] theorem modPwr_map (f : Power → Power) (s : State) : (modPwr f s).map = s.map := rfl
@[simp] theorem modPwr_ckp (f : Power → Power) (s : State) : (modPwr f s).ckp = s.ckp := rfl
@[simp] theorem modPwr_sec (f : Power → Power) (s : State) : (modPwr f s).sec = s.sec := rfl
@[simp] theorem modPwr_i3c (f : Power → Power) (s : State) : (modPwr f s).i3c = s.i3c := rfl
@[simp] theorem modPwr_err (f : Power → Power) (s : State) : (modPwr f s).err = s.err := rfl
@[simp] theorem modPwr_lim (f : Power → Power) (s : State) : (modPwr f s).lim = s.lim := rfl
@[simp] theorem modPwr_out (f : Power → Power) (s : State) : (modPwr f s).out = s.out := rfl
@[simp] theorem modPwr_free (f : Power → Power) (s : State) : (modPwr f s).free = s.free := rfl
@[simp] theorem modPwr_pwr (f : Power → Power) (s : State) : (modPwr f s).pwr = f s.pwr := rfl

@[simp] theorem modSec_pending (f : Sec → Sec) (s : State) : (modSec f s).pending = s.pending := rfl
@[simp] theorem modSec_regs (f : Sec → Sec) (s : State) : (modSec f s).regs = s.regs := rfl
@[simp] theorem modSec_accs (f : Sec → Sec) (s : State) : (modSec f s).accs = s.accs := rfl
@[simp] theorem modSec_clk (f : Sec → Sec) (s : State) : (modSec f s).clk = s.clk := rfl
@[simp] theorem modSec_pwr (f : Sec → Sec) (s : State) : (modSec f s).pwr = s.pwr := rfl
@[simp] theorem modSec_rom (f : Sec → Sec) (s : State) : (modSec f s).rom = s.rom := rfl
@[simp] theorem modSec_img (f : Sec → Sec) (s : State) : (modSec f s).img = s.img := rfl
@[simp] theorem modSec_ses (f : Sec → Sec) (s : State) : (modSec f s).ses = s.ses := rfl
@[simp] theorem modSec_stp (f : Sec → Sec) (s : State) : (modSec f s).stp = s.stp := rfl
@[simp] theorem modSec_ari (f : Sec → Sec) (s : State) : (modSec f s).ari = s.ari := rfl
@[simp] theorem modSec_atn (f : Sec → Sec) (s : State) : (modSec f s).atn = s.atn := rfl
@[simp] theorem modSec_mem (f : Sec → Sec) (s : State) : (modSec f s).mem = s.mem := rfl
@[simp] theorem modSec_vec (f : Sec → Sec) (s : State) : (modSec f s).vec = s.vec := rfl
@[simp] theorem modSec_hst (f : Sec → Sec) (s : State) : (modSec f s).hst = s.hst := rfl
@[simp] theorem modSec_shp (f : Sec → Sec) (s : State) : (modSec f s).shp = s.shp := rfl
@[simp] theorem modSec_wlt (f : Sec → Sec) (s : State) : (modSec f s).wlt = s.wlt := rfl
@[simp] theorem modSec_map (f : Sec → Sec) (s : State) : (modSec f s).map = s.map := rfl
@[simp] theorem modSec_ckp (f : Sec → Sec) (s : State) : (modSec f s).ckp = s.ckp := rfl
@[simp] theorem modSec_i3c (f : Sec → Sec) (s : State) : (modSec f s).i3c = s.i3c := rfl
@[simp] theorem modSec_err (f : Sec → Sec) (s : State) : (modSec f s).err = s.err := rfl
@[simp] theorem modSec_lim (f : Sec → Sec) (s : State) : (modSec f s).lim = s.lim := rfl
@[simp] theorem modSec_out (f : Sec → Sec) (s : State) : (modSec f s).out = s.out := rfl
@[simp] theorem modSec_free (f : Sec → Sec) (s : State) : (modSec f s).free = s.free := rfl
@[simp] theorem modSec_sec (f : Sec → Sec) (s : State) : (modSec f s).sec = f s.sec := rfl

@[simp] theorem modI3c_pending (f : I3c → I3c) (s : State) : (modI3c f s).pending = s.pending := rfl
@[simp] theorem modI3c_regs (f : I3c → I3c) (s : State) : (modI3c f s).regs = s.regs := rfl
@[simp] theorem modI3c_accs (f : I3c → I3c) (s : State) : (modI3c f s).accs = s.accs := rfl
@[simp] theorem modI3c_clk (f : I3c → I3c) (s : State) : (modI3c f s).clk = s.clk := rfl
@[simp] theorem modI3c_pwr (f : I3c → I3c) (s : State) : (modI3c f s).pwr = s.pwr := rfl
@[simp] theorem modI3c_rom (f : I3c → I3c) (s : State) : (modI3c f s).rom = s.rom := rfl
@[simp] theorem modI3c_img (f : I3c → I3c) (s : State) : (modI3c f s).img = s.img := rfl
@[simp] theorem modI3c_ses (f : I3c → I3c) (s : State) : (modI3c f s).ses = s.ses := rfl
@[simp] theorem modI3c_stp (f : I3c → I3c) (s : State) : (modI3c f s).stp = s.stp := rfl
@[simp] theorem modI3c_ari (f : I3c → I3c) (s : State) : (modI3c f s).ari = s.ari := rfl
@[simp] theorem modI3c_atn (f : I3c → I3c) (s : State) : (modI3c f s).atn = s.atn := rfl
@[simp] theorem modI3c_mem (f : I3c → I3c) (s : State) : (modI3c f s).mem = s.mem := rfl
@[simp] theorem modI3c_vec (f : I3c → I3c) (s : State) : (modI3c f s).vec = s.vec := rfl
@[simp] theorem modI3c_hst (f : I3c → I3c) (s : State) : (modI3c f s).hst = s.hst := rfl
@[simp] theorem modI3c_shp (f : I3c → I3c) (s : State) : (modI3c f s).shp = s.shp := rfl
@[simp] theorem modI3c_wlt (f : I3c → I3c) (s : State) : (modI3c f s).wlt = s.wlt := rfl
@[simp] theorem modI3c_map (f : I3c → I3c) (s : State) : (modI3c f s).map = s.map := rfl
@[simp] theorem modI3c_ckp (f : I3c → I3c) (s : State) : (modI3c f s).ckp = s.ckp := rfl
@[simp] theorem modI3c_sec (f : I3c → I3c) (s : State) : (modI3c f s).sec = s.sec := rfl
@[simp] theorem modI3c_err (f : I3c → I3c) (s : State) : (modI3c f s).err = s.err := rfl
@[simp] theorem modI3c_lim (f : I3c → I3c) (s : State) : (modI3c f s).lim = s.lim := rfl
@[simp] theorem modI3c_out (f : I3c → I3c) (s : State) : (modI3c f s).out = s.out := rfl
@[simp] theorem modI3c_free (f : I3c → I3c) (s : State) : (modI3c f s).free = s.free := rfl
@[simp] theorem modI3c_i3c (f : I3c → I3c) (s : State) : (modI3c f s).i3c = f s.i3c := rfl

@[simp] theorem modImg_pending (f : ImgCtl → ImgCtl) (s : State) : (modImg f s).pending = s.pending := rfl
@[simp] theorem modImg_regs (f : ImgCtl → ImgCtl) (s : State) : (modImg f s).regs = s.regs := rfl
@[simp] theorem modImg_accs (f : ImgCtl → ImgCtl) (s : State) : (modImg f s).accs = s.accs := rfl
@[simp] theorem modImg_clk (f : ImgCtl → ImgCtl) (s : State) : (modImg f s).clk = s.clk := rfl
@[simp] theorem modImg_pwr (f : ImgCtl → ImgCtl) (s : State) : (modImg f s).pwr = s.pwr := rfl
@[simp] theorem modImg_rom (f : ImgCtl → ImgCtl) (s : State) : (modImg f s).rom = s.rom := rfl
@[simp] theorem modImg_ses (f : ImgCtl → ImgCtl) (s : State) : (modImg f s).ses = s.ses := rfl
@[simp] theorem modImg_stp (f : ImgCtl → ImgCtl) (s : State) : (modImg f s).stp = s.stp := rfl
@[simp] theorem modImg_ari (f : ImgCtl → ImgCtl) (s : State) : (modImg f s).ari = s.ari := rfl
@[simp] theorem modImg_atn (f : ImgCtl → ImgCtl) (s : State) : (modImg f s).atn = s.atn := rfl
@[simp] theorem modImg_mem (f : ImgCtl → ImgCtl) (s : State) : (modImg f s).mem = s.mem := rfl
@[simp] theorem modImg_vec (f : ImgCtl → ImgCtl) (s : State) : (modImg f s).vec = s.vec := rfl
@[simp] theorem modImg_hst (f : ImgCtl → ImgCtl) (s : State) : (modImg f s).hst = s.hst := rfl
@[simp] theorem modImg_shp (f : ImgCtl → ImgCtl) (s : State) : (modImg f s).shp = s.shp := rfl
@[simp] theorem modImg_wlt (f : ImgCtl → ImgCtl) (s : State) : (modImg f s).wlt = s.wlt := rfl
@[simp] theorem modImg_map (f : ImgCtl → ImgCtl) (s : State) : (modImg f s).map = s.map := rfl
@[simp] theorem modImg_ckp (f : ImgCtl → ImgCtl) (s : State) : (modImg f s).ckp = s.ckp := rfl
@[simp] theorem modImg_sec (f : ImgCtl → ImgCtl) (s : State) : (modImg f s).sec = s.sec := rfl
@[simp] theorem modImg_i3c (f : ImgCtl → ImgCtl) (s : State) : (modImg f s).i3c = s.i3c := rfl
@[simp] theorem modImg_err (f : ImgCtl → ImgCtl) (s : State) : (modImg f s).err = s.err := rfl
@[simp] theorem modImg_lim (f : ImgCtl → ImgCtl) (s : State) : (modImg f s).lim = s.lim := rfl
@[simp] theorem modImg_out (f : ImgCtl → ImgCtl) (s : State) : (modImg f s).out = s.out := rfl
@[simp] theorem modImg_free (f : ImgCtl → ImgCtl) (s : State) : (modImg f s).free = s.free := rfl
@[simp] theorem modImg_img (f : ImgCtl → ImgCtl) (s : State) : (modImg f s).img = f s.img := rfl

@[simp] theorem modCkp_pending (f : Ckp → Ckp) (s : State) : (modCkp f s).pending = s.pending := rfl
@[simp] theorem modCkp_regs (f : Ckp → Ckp) (s : State) : (modCkp f s).regs = s.regs := rfl
@[simp] theorem modCkp_accs (f : Ckp → Ckp) (s : State) : (modCkp f s).accs = s.accs := rfl
@[simp] theorem modCkp_clk (f : Ckp → Ckp) (s : State) : (modCkp f s).clk = s.clk := rfl
@[simp] theorem modCkp_pwr (f : Ckp → Ckp) (s : State) : (modCkp f s).pwr = s.pwr := rfl
@[simp] theorem modCkp_rom (f : Ckp → Ckp) (s : State) : (modCkp f s).rom = s.rom := rfl
@[simp] theorem modCkp_img (f : Ckp → Ckp) (s : State) : (modCkp f s).img = s.img := rfl
@[simp] theorem modCkp_ses (f : Ckp → Ckp) (s : State) : (modCkp f s).ses = s.ses := rfl
@[simp] theorem modCkp_stp (f : Ckp → Ckp) (s : State) : (modCkp f s).stp = s.stp := rfl
@[simp] theorem modCkp_ari (f : Ckp → Ckp) (s : State) : (modCkp f s).ari = s.ari := rfl
@[simp] theorem modCkp_atn (f : Ckp → Ckp) (s : State) : (modCkp f s).atn = s.atn := rfl
@[simp] theorem modCkp_mem (f : Ckp → Ckp) (s : State) : (modCkp f s).mem = s.mem := rfl
@[simp] theorem modCkp_vec (f : Ckp → Ckp) (s : State) : (modCkp f s).vec = s.vec := rfl
@[simp] theorem modCkp_hst (f : Ckp → Ckp) (s : State) : (modCkp f s).hst = s.hst := rfl
@[simp] theorem modCkp_shp (f : Ckp → Ckp) (s : State) : (modCkp f s).shp = s.shp := rfl
@[simp] theorem modCkp_wlt (f : Ckp → Ckp) (s : State) : (modCkp f s).wlt = s.wlt := rfl
@[simp] theorem modCkp_map (f : Ckp → Ckp) (s : State) : (modCkp f s).map = s.map := rfl
@[simp] theorem modCkp_sec (f : Ckp → Ckp) (s : State) : (modCkp f s).sec = s.sec := rfl
@[simp] theorem modCkp_i3c (f : Ckp → Ckp) (s : State) : (modCkp f s).i3c = s.i3c := rfl
@[simp] theorem modCkp_err (f : Ckp → Ckp) (s : State) : (modCkp f s).err = s.err := rfl
@[simp] theorem modCkp_lim (f : Ckp → Ckp) (s : State) : (modCkp f s).lim = s.lim := rfl
@[simp] theorem modCkp_out (f : Ckp → Ckp) (s : State) : (modCkp f s).out = s.out := rfl
@[simp] theorem modCkp_free (f : Ckp → Ckp) (s : State) : (modCkp f s).free = s.free := rfl
@[simp] theorem modCkp_ckp (f : Ckp → Ckp) (s : State) : (modCkp f s).ckp = f s.ckp := rfl

@[simp] theorem modMem_pending (f : Mem → Mem) (s : State) : (modMem f s).pending = s.pending := rfl
@[simp] theorem modMem_regs (f : Mem → Mem) (s : State) : (modMem f s).regs = s.regs := rfl
@[simp] theorem modMem_accs (f : Mem → Mem) (s : State) : (modMem f s).accs = s.accs := rfl
@[simp] theorem modMem_clk (f : Mem → Mem) (s : State) : (modMem f s).clk = s.clk := rfl
@[simp] theorem modMem_pwr (f : Mem → Mem) (s : State) : (modMem f s).pwr = s.pwr := rfl
@[simp] theorem modMem_rom (f : Mem → Mem) (s : State) : (modMem f s).rom = s.rom := rfl
@[simp] theorem modMem_img (f : Mem → Mem) (s : State) : (modMem f s).img = s.img := rfl
@[simp] theorem modMem_ses (f : Mem → Mem) (s : State) : (modMem f s).ses = s.ses := rfl
@[simp] theorem modMem_stp (f : Mem → Mem) (s : State) : (modMem f s).stp = s.stp := rfl
@[simp] theorem modMem_ari (f : Mem → Mem) (s : State) : (modMem f s).ari = s.ari := rfl
@[simp] theorem modMem_atn (f : Mem → Mem) (s : State) : (modMem f s).atn = s.atn := rfl
@[simp] theorem modMem_vec (f : Mem → Mem) (s : State) : (modMem f s).vec = s.vec := rfl
@[simp] theorem modMem_hst (f : Mem → Mem) (s : State) : (modMem f s).hst = s.hst := rfl
@[simp] theorem modMem_shp (f : Mem → Mem) (s : State) : (modMem f s).shp = s.shp := rfl
@[simp] theorem modMem_wlt (f : Mem → Mem) (s : State) : (modMem f s).wlt = s.wlt := rfl
@[simp] theorem modMem_map (f : Mem → Mem) (s : State) : (modMem f s).map = s.map := rfl
@[simp] theorem modMem_ckp (f : Mem → Mem) (s : State) : (modMem f s).ckp = s.ckp := rfl
@[simp] theorem modMem_sec (f : Mem → Mem) (s : State) : (modMem f s).sec = s.sec := rfl
@[simp] theorem modMem_i3c (f : Mem → Mem) (s : State) : (modMem f s).i3c = s.i3c := rfl
@[simp] theorem modMem_err (f : Mem → Mem) (s : State) : (modMem f s).err = s.err := rfl
@[simp] theorem modMem_lim (f : Mem → Mem) (s : State) : (modMem f s).lim = s.lim := rfl
@[simp] theorem modMem_out (f : Mem → Mem) (s : State) : (modMem f s).out = s.out := rfl
@[simp] theorem modMem_free (f : Mem → Mem) (s : State) : (modMem f s).free = s.free := rfl
@[simp] theorem modMem_mem (f : Mem → Mem) (s : State) : (modMem f s).mem = f s.mem := rfl

@[simp] theorem setHome_pending (n k : Nat) (x : HomeStream) (s : State) : (setHome n k x s).pending = s.pending := rfl
@[simp] theorem setHome_regs (n k : Nat) (x : HomeStream) (s : State) : (setHome n k x s).regs = s.regs := rfl
@[simp] theorem setHome_accs (n k : Nat) (x : HomeStream) (s : State) : (setHome n k x s).accs = s.accs := rfl
@[simp] theorem setHome_clk (n k : Nat) (x : HomeStream) (s : State) : (setHome n k x s).clk = s.clk := rfl
@[simp] theorem setHome_pwr (n k : Nat) (x : HomeStream) (s : State) : (setHome n k x s).pwr = s.pwr := rfl
@[simp] theorem setHome_rom (n k : Nat) (x : HomeStream) (s : State) : (setHome n k x s).rom = s.rom := rfl
@[simp] theorem setHome_img (n k : Nat) (x : HomeStream) (s : State) : (setHome n k x s).img = s.img := rfl
@[simp] theorem setHome_ses (n k : Nat) (x : HomeStream) (s : State) : (setHome n k x s).ses = s.ses := rfl
@[simp] theorem setHome_stp (n k : Nat) (x : HomeStream) (s : State) : (setHome n k x s).stp = s.stp := rfl
@[simp] theorem setHome_ari (n k : Nat) (x : HomeStream) (s : State) : (setHome n k x s).ari = s.ari := rfl
@[simp] theorem setHome_atn (n k : Nat) (x : HomeStream) (s : State) : (setHome n k x s).atn = s.atn := rfl
@[simp] theorem setHome_mem (n k : Nat) (x : HomeStream) (s : State) : (setHome n k x s).mem = s.mem := rfl
@[simp] theorem setHome_vec (n k : Nat) (x : HomeStream) (s : State) : (setHome n k x s).vec = s.vec := rfl
@[simp] theorem setHome_hst (n k : Nat) (x : HomeStream) (s : State) : (setHome n k x s).hst = s.hst := rfl
@[simp] theorem setHome_shp (n k : Nat) (x : HomeStream) (s : State) : (setHome n k x s).shp = s.shp := rfl
@[simp] theorem setHome_map (n k : Nat) (x : HomeStream) (s : State) : (setHome n k x s).map = s.map := rfl
@[simp] theorem setHome_ckp (n k : Nat) (x : HomeStream) (s : State) : (setHome n k x s).ckp = s.ckp := rfl
@[simp] theorem setHome_sec (n k : Nat) (x : HomeStream) (s : State) : (setHome n k x s).sec = s.sec := rfl
@[simp] theorem setHome_i3c (n k : Nat) (x : HomeStream) (s : State) : (setHome n k x s).i3c = s.i3c := rfl
@[simp] theorem setHome_err (n k : Nat) (x : HomeStream) (s : State) : (setHome n k x s).err = s.err := rfl
@[simp] theorem setHome_lim (n k : Nat) (x : HomeStream) (s : State) : (setHome n k x s).lim = s.lim := rfl
@[simp] theorem setHome_out (n k : Nat) (x : HomeStream) (s : State) : (setHome n k x s).out = s.out := rfl
@[simp] theorem setHome_free (n k : Nat) (x : HomeStream) (s : State) : (setHome n k x s).free = s.free := rfl

end Sys2Proof.Machine
end

