-- ==== Sys2Proof/Laws/Run.lean ====
section
/-!
SUPPORT. Sys2Proof/Laws/Run.lean: what a meaning answers, whatever it does: `run` always a next state, `runOn` a next state on a
unit that exists and the one fault on another; the commands that wait stay as they are, and the marks of R482 cover the counts.
-/
namespace Sys2Proof.Machine

theorem run_next (f : State → State) (s : State) : run f s = .next (after s (f s)) := rfl

theorem runOn_next {b : Bool} {f : State → State} {s : State} (h : b = true) : runOn b f s = .next (after s (f s)) := if_pos h

theorem runOn_fault {b : Bool} {f : State → State} {s : State} (h : b = false) : runOn b f s = .fault .noSuchUnit := by
  subst h; rfl

/-- All that `runOn` can answer. -/
theorem runOn_cases {b : Bool} {f : State → State} {s t : State} (h : runOn b f s = .next t) : b = true ∧ t = after s (f s) := by
  unfold runOn at h; split at h
  · next hb => cases h; exact ⟨hb, rfl⟩
  · cases h

theorem runOn_pending {b : Bool} {f : State → State} {s t : State} (h : runOn b f s = .next t) : t.pending = s.pending := by
  rw [(runOn_cases h).2]; rfl

/-- A step with a command in front is that command's meaning. -/
theorem step_front (s : State) (c : Instr) (rest : List Instr) (h : s.pending = c :: rest) :
    step s = exec c { s with pending := rest } := by
  unfold step; rw [h]

/-- A step of an empty queue is what passes in one tick. -/
theorem step_idle (s : State) (h : s.pending = []) : step s = .next (idle s) := by
  unfold step; rw [h]

/-! ### Lists under keys -/

theorem find?_putN {α : Type} (i j : Nat) (v : α) (l : List (Nat × α)) :
    find? i (putN j v l) = if i = j then some v else find? i l := by
  induction l with
  | nil => simp [putN, find?]
  | cons p l ih =>
    obtain ⟨k, a⟩ := p
    unfold putN
    split
    · subst_vars; simp only [find?]; split <;> simp_all
    · split
      · simp only [find?]
      · simp only [find?, ih]; split <;> simp_all; intro; omega

theorem findD_putN {α : Type} (i j : Nat) (v d : α) (l : List (Nat × α)) :
    findD i (putN j v l) d = if i = j then v else findD i l d := by
  unfold findD; rw [find?_putN]; split <;> rfl

theorem find?_put {κ α : Type} [DecidableEq κ] (i j : κ) (v : α) (l : List (κ × α)) :
    find? i (put j v l) = if i = j then some v else find? i l := by
  induction l with
  | nil => simp [put, find?]
  | cons p l ih =>
    obtain ⟨k, a⟩ := p
    unfold put
    split
    · subst_vars; simp only [find?]; split <;> simp_all
    · simp only [find?, ih]; split
      · simp_all; intro h; simp_all
      · rfl

/-- A queue pair read after a change of one. -/
theorem qpOf_modQp (i j : Nat) (f : Qp → Qp) (s : State) :
    qpOf (modQp j f s) i = if i = j then f (qpOf s j) else qpOf s i := by
  unfold qpOf modQp; dsimp only; rw [findD_putN]; rfl

/-- A link read after a change of one. -/
theorem linkOf_modLink (i j : Nat) (f : Link → Link) (s : State) :
    linkOf (modLink j f s) i = if i = j then f (linkOf s j) else linkOf s i := by
  unfold linkOf modLink; dsimp only; rw [findD_putN]; rfl

/-- A session read after a change of one that is there. -/
theorem sess?_modSess (i j : Nat) (f : Sess → Sess) (s : State) :
    sess? (modSess j f s) i = if i = j then (sess? s j).map f else sess? s i := by
  unfold modSess
  split
  · next h => split <;> simp_all
  · next x h =>
    unfold sess? at *; dsimp only; rw [find?_putN]; split <;> simp_all

/-! ### The high-water marks (R482) -/

/-- One pass over the limits raises each mark to its count, and lowers none below a count it covered. -/
theorem fold_covers (n : Nat → Nat) (l : List Nat) (ps : List (Nat × Nat)) (i : Nat)
    (h : i ∈ l ∨ min (n i) (2 ^ 24 - 1) ≤ findD i ps 0) :
    min (n i) (2 ^ 24 - 1) ≤ findD i (l.foldl (fun ps i =>
      if findD i ps 0 < n i then putN i (min (n i) (2 ^ 24 - 1)) ps else ps) ps) 0 := by
  induction l generalizing ps with
  | nil => simpa using h
  | cons j l ih =>
    apply ih
    by_cases hi : i ∈ l
    · exact .inl hi
    · right
      by_cases hj : i = j
      · subst hj; dsimp only; split
        · rw [findD_putN]; simp
        · omega
      · have h' : min (n i) (2 ^ 24 - 1) ≤ findD i ps 0 := by rcases h with h | h <;> simp_all
        dsimp only
        split
        · rw [findD_putN, if_neg hj]; exact h'
        · exact h'

/-- The present counts do not depend on the marks. -/
theorem limitNow_after (s t : State) (i : Nat) : limitNow (after s t) i = limitNow t i := rfl

/-- Whatever a command did, the marks cover the counts it leaves. -/
theorem after_covers (s t : State) : PeaksCover (after s t) := by
  intro i hi
  rw [limitNow_after]
  exact fold_covers (limitNow t) (List.range 32) t.lim.peaks i (.inl (List.mem_range.mpr hi))

end Sys2Proof.Machine
end

