-- ==== Sys2Proof/Laws/Gates.lean ====
section
/-!
SUPPORT. Sys2Proof/Laws/Gates.lean: what the shared ways into a command's own effect answer: the gate of a register write, the
checks of a tack (R253), of a settlement, and the path of a fabric request to its home (R320, R321).
-/
namespace Sys2Proof.Machine

/-- An open gate lets the write have its effect. -/
theorem gateWrite_open {acc off f s} (h : opens acc off s = true) : gateWrite acc off f s = f s := by
  unfold opens at h; unfold gateWrite
  split at h
  · simp only [Bool.and_eq_true, Bool.not_eq_true'] at h; simp [h]
  · simp_all
  · rename_i hr; simp [hr]; simp at h; simp [h]
  · simp_all

/-- A served tack has its own effect in the state that the checks leave, under the bindings of its arrival. -/
theorem servedB_tackRowB {h b eff s t d u} (hs : servedB h b s = some (t, d, u)) : tackRowB h b eff s = eff t d u := by
  unfold servedB at hs; unfold tackRowB
  split at hs
  · cases hs
  · rename_i t' d' u' ht
    try simp only [ht]
    split at hs
    · rename_i hc
      simp only [Option.some.injEq, Prod.mk.injEq] at hs
      obtain ⟨rfl, rfl, rfl⟩ := hs
      simp only [Bool.and_eq_true, Option.isNone_iff_eq_none] at hc
      obtain ⟨⟨h1, h2⟩, h3⟩ := hc
      rw [h1]
      have h4 : ckpGate h b (eff t' d') u' = eff t' d' u' := by
        simp only [ckpOpen, Bool.not_eq_true'] at h3; simp [ckpGate, h3]
      simp only [servedHere, Bool.or_eq_true, decide_eq_true_eq] at h2
      unfold routeTack
      rcases h2 with h2 | h2 <;> simp_all
    · cases hs

/-- The same for a tack whose own checks ask nothing of the bindings. -/
theorem served_tackRow {h b eff s t u} (hs : served h b s = some (t, u)) : tackRow h b eff s = eff t u := by
  unfold served at hs
  cases hb : servedB h b s with
  | none => simp [hb] at hs
  | some x =>
    simp only [hb, Option.map_some, Option.some.injEq, Prod.mk.injEq] at hs
    obtain ⟨rfl, rfl⟩ := hs
    exact servedB_tackRowB hb

/-- A settlement past its checks is its own effect. -/
theorem settles_row {h b n f s u} (hs : settles h b s = some u) : settleRow h b n f s = settleEff h b n f u := by
  unfold settles at hs; unfold settleRow
  split at hs
  · cases hs
  · rename_i t d u' ht
    try simp only [ht]
    split at hs
    · rename_i hc
      simp only [Option.some.injEq] at hs
      subst hs
      simp only [Bool.and_eq_true, Option.isNone_iff_eq_none, Bool.not_eq_true'] at hc
      obtain ⟨h1, h2⟩ := hc
      rw [h1]
      simp [h2]
    · cases hs

/-- A request that reaches its T1 address is applied at once and answered. -/
theorem homeRequest_applies {l r t s} (ha : appliesAt l r t s) :
    homeRequest l r (owe l (.req r) s) = (let (st, d, v) := applyRequest r (homeState l r s); (st = 0, respond l r st 0 d v)) := by
  obtain ⟨h1, h2, h3, h4, h5, h6, h7, h8, h9, h10, h11⟩ := ha
  have e1 : waitingOf (freeOnce r (owe l (.req r) s)) r = [] := by
    unfold waitingOf
    rw [List.filter_eq_nil_iff]
    have : (freeOnce r (owe l (.req r) s)).wlt.buffer = (owe l (.req r) s).wlt.buffer := rfl
    rw [this]; simpa using h5
  have e2 : mustWait (freeOnce r (owe l (.req r) s)) r = false := by
    unfold mustWait
    rw [e1]
    cases ha : atomicOp r.op
    · simp
    · simp; exact h6 ha
  have e3 : (homeStream (freeOnce r (owe l (.req r) s)) r.hdr.src r.stream) = homeStream (owe l (.req r) s) r.hdr.src r.stream := rfl
  have n1 : ¬ r.incarnation < (homeStream (owe l (.req r) s) r.hdr.src r.stream).incarnation := by omega
  have n2 : ¬ r.incarnation > (homeStream (owe l (.req r) s) r.hdr.src r.stream).incarnation := by omega
  have e5 : r.seq = ((homeStream (freeOnce r (owe l (.req r) s)) r.hdr.src r.stream).next +
      ((waitingOf (freeOnce r (owe l (.req r) s)) r).map (·.2.2.seq)).eraseDups.length) % 2 ^ 32 := by
    rw [e1, e3]; exact h4
  unfold homeRequest
  simp only [h2, n1, n2, Bool.false_eq_true, if_false]
  rw [if_pos e5]
  simp only [e2, Bool.false_eq_true, if_false]
  unfold takeRequest homeState
  simp only [e3, h7, Bool.false_eq_true, if_false]

/-- The same as the request arrives on a link. -/
theorem requestArrives_applies {l r t s op} (ha : appliesAt l { r with op := op } t s) :
    requestArrives l op r s = (let (st, d, v) := applyRequest { r with op := op } (homeState l { r with op := op } s); respond l { r with op := op } st 0 d v) := by
  unfold requestArrives
  have h1 := ha.1
  rw [if_neg (by simpa using h1), homeRequest_applies ha]

/-- With an image active the fabric's messages have their effect. -/
theorem onFabric_on {f : State → State} {s : State} (h : imageOn s = true) : onFabric f s = f s := if_pos h

/-- What applying a LOAD, STORE or atomic does (R320). -/
theorem applyRequest_at {l r t s} (ha : appliesAt l r t s) (h3 : r.op ≠ 3) (hop : (r.op = 1 || r.op = 2 || r.op = 3 || atomicOp r.op) = true) :
    applyRequest r (homeState l r s) = (
      let v := homeState l r s
      let d := Config.ramDefault
      if r.op = 1 then (0, readBytes d t 128 v.mem.t1, v)
      else if r.op = 2 then
        (0, [], { v with mem := { v.mem with t1 := writeBytes d t (mergeLine (readBytes d t 128 v.mem.t1) r.data r.mask) v.mem.t1 } })
      else
        let old := BitVec.ofNat 64 (leNat (readBytes d t 8 v.mem.t1))
        let new := atomicNew r.op old r.a r.b
        let w := { v with mem := { v.mem with t1 := writeBytes d t (le new.toNat 8) v.mem.t1 } }
        let res : OnceRes := { node := r.hdr.src, stream := r.stream, seq := r.seq, val := old, at_ := now v }
        (0, le old.toNat 8 ++ zeros 8, { w with wlt := { w.wlt with once := w.wlt.once ++ [res] } })) := by
  obtain ⟨_, _, _, _, _, _, _, h8, h9, h10, _⟩ := ha
  unfold applyRequest
  rw [if_neg (by rw [hop]; simp), if_neg (by rw [h8]; simp), if_neg h3]
  simp only [h9]
  rw [if_neg (by rw [h10]; simp)]
  rfl

/-- A register write through an open gate at a defined offset. -/
theorem registerWrite_open {acc off v s} (ho : opens acc off s = true) (hr : (regRow? off).isSome = true) :
    exec (.registerWrite acc off v) s = .next (after s (writeDefined acc off v s)) := by
  have : (regRow? off).isNone = false := by cases h : regRow? off <;> simp_all
  simp [exec, execRegisterWrite, run, writeRegister, this, gateWrite_open ho]

end Sys2Proof.Machine
end

