-- ==== Sys2Proof/Laws/Frames.lean ====
section
/-!
SUPPORT. Sys2Proof/Laws/Frames.lean: what the shared operations that send and tell leave as it was: logging an event (R9 to R12),
host writes and reads, frames queued for a link, an answer of the home.
-/
namespace Sys2Proof.Machine

/-- `t` is `s` but for the host port, the egress queues and the limit counts. -/
def SameButHost (s t : State) : Prop := t = { s with hst := t.hst, shp := t.shp, lim := t.lim }

/-- `t` is `s` but for those and the Welt links and streams. -/
def SameButFabric (s t : State) : Prop := t = { s with hst := t.hst, shp := t.shp, lim := t.lim, wlt := t.wlt }

theorem SameButHost.refl (s : State) : SameButHost s s := rfl

theorem SameButHost.trans {s t u : State} (h : SameButHost s t) (k : SameButHost t u) : SameButHost s u := by
  unfold SameButHost at *; rw [k, h]

theorem SameButHost.fabric {s t : State} (h : SameButHost s t) : SameButFabric s t := by
  unfold SameButFabric; unfold SameButHost at h; rw [h]

theorem SameButFabric.refl (s : State) : SameButFabric s s := rfl

theorem SameButFabric.trans {s t u : State} (h : SameButFabric s t) (k : SameButFabric t u) : SameButFabric s u := by
  unfold SameButFabric at *; rw [k, h]

theorem SameButFabric.mem {s t : State} (h : SameButFabric s t) : t.mem = s.mem := by rw [h]

theorem sbh_modQp (qp f) (s : State) : SameButHost s (modQp qp f s) := rfl

theorem sbh_modPort (p f) (s : State) : SameButHost s (modPort p f s) := rfl

theorem sbh_hit (i) (s : State) : SameButHost s (hit i s) := rfl

theorem sbh_setEvBuf (t b) (s : State) : SameButHost s (setEvBuf t b s) := rfl

theorem sbh_pushFrame (p q f) (s : State) : SameButHost s (pushFrame p q f s) := by
  unfold pushFrame; dsimp only; split <;> rfl

theorem sbh_foldl {α : Type} (f : State → α → State) (h : ∀ s a, SameButHost s (f s a)) (l : List α) (s : State) :
    SameButHost s (l.foldl f s) := by
  induction l generalizing s with
  | nil => rfl
  | cons a l ih => exact (h s a).trans (ih _)

theorem sbf_foldl {α : Type} (f : State → α → State) (h : ∀ s a, SameButFabric s (f s a)) (l : List α) (s : State) :
    SameButFabric s (l.foldl f s) := by
  induction l generalizing s with
  | nil => rfl
  | cons a l ih => exact (h s a).trans (ih _)

theorem sbh_rdmaRead (q r a l) (s : State) : SameButHost s (rdmaRead q r a l s) := sbh_pushFrame ..

theorem sbh_readConsumer (q r a) (s : State) : SameButHost s (readConsumer q r a s) := by
  unfold readConsumer
  split
  · exact (sbh_modQp ..).trans (sbh_hit ..)
  · exact sbh_rdmaRead ..

theorem sbh_rdmaWrite (q r a b) (s : State) : SameButHost s (rdmaWrite q r a b s) :=
  sbh_foldl _ (fun _ _ => sbh_pushFrame ..) _ _


theorem sbh_deliverEvents (n t) (s : State) : SameButHost s (deliverEvents n t s) := by
  induction n generalizing s with
  | zero => rfl
  | succ n ih =>
    unfold deliverEvents
    split
    · rfl
    · dsimp only
      split
      · rfl
      · split
        · split
          · rfl
          · exact (sbh_modQp ..).trans (sbh_readConsumer ..)
        · split
          · rfl
          · exact (((sbh_modQp ..).trans (sbh_setEvBuf ..)).trans (sbh_rdmaWrite ..)).trans (ih _)

theorem sbh_eventTo (e) (s : State) (t) : SameButHost s (eventTo e s t) := by
  unfold eventTo; dsimp only
  refine SameButHost.trans ?_ (sbh_deliverEvents ..)
  split <;> rfl

theorem sbh_logTo (ts a b c d e) (s : State) (f) : SameButHost s (logTo ts a b c d e s f) := sbh_foldl _ (sbh_eventTo _) _ _

theorem sbh_logAll (a b c d e) (s : State) (f) : SameButHost s (logAll a b c d e s f) := by
  unfold logAll; split
  · rfl
  · exact sbh_logTo ..

theorem logAll_regs (a b c d e) (s : State) (f) : (logAll a b c d e s f).regs = s.regs := by
  rw [sbh_logAll a b c d e s f]


theorem sbh_sendControl (l f) (s : State) : SameButHost s (sendControl l f s) := rfl

theorem sbh_selfNode {s t : State} (h : SameButHost s t) : selfNode t = selfNode s := by rw [h]; rfl

theorem sbf_modLink (l f) (s : State) : SameButFabric s (modLink l f s) := rfl

theorem sbf_oweHeld (h) (s : State) : SameButFabric s (oweHeld h s) := by unfold oweHeld; split <;> rfl

theorem sbf_owe (l f) (s : State) : SameButFabric s (owe l f s) := by
  unfold owe; split
  · rfl
  · exact sbf_oweHeld ..

theorem sbf_countDiscard (l) (s : State) : SameButFabric s (countDiscard l s) := by
  unfold countDiscard; split
  · split <;> rfl
  · rfl

theorem sbf_discardFrame (o) (s : State) : SameButFabric s (discardFrame o s) := (sbf_oweHeld ..).trans (sbf_countDiscard ..)

theorem sbf_deliver (f) (s : State) : SameButFabric s (deliver f s) := rfl

/-- Sending a frame on changes the egress queues, the link counts and the events alone. -/
theorem sbf_routeFrame (o b f) (s : State) : SameButFabric s (routeFrame o b f s) := by
  unfold routeFrame; dsimp only
  split
  · exact (sbf_discardFrame ..).trans (sbh_logAll ..).fabric
  · split
    · exact (sbf_oweHeld ..).trans (sbf_deliver ..)
    · split
      · refine SameButFabric.trans ?_ (sbh_modPort ..).fabric
        split <;> rfl
      · refine SameButFabric.trans ?_ (sbh_pushFrame ..).fabric
        split <;> rfl
    · split
      · refine SameButFabric.trans (sbf_oweHeld o.held s) ?_
        split
        · split
          · exact (sbh_modPort ..).fabric
          · exact (sbh_pushFrame ..).fabric
        · exact sbf_deliver ..
        · exact sbf_countDiscard ..
      · exact sbf_discardFrame ..

/-- An answer of the home likewise. -/
theorem sbf_respond (i r st n d) (s : State) : SameButFabric s (respond i r st n d s) := sbf_routeFrame ..

theorem sbf_homeState (l r) (s : State) : SameButFabric s (homeState l r s) := by
  unfold homeState
  have h := sbf_owe l (.req r) s
  dsimp only
  exact h.trans rfl

end Sys2Proof.Machine
end

