-- ==== Sys2Proof/Laws/Memory.lean ====
section
/-!
SUPPORT. Sys2Proof/Laws/Memory.lean: the byte memories and byte strings. Each operation keeps the canonical form; a byte read after a write is the
byte written inside the bytes written and the byte that was there outside them; reading a run is reading its bytes.
-/
namespace Sys2Proof.Machine

/-- The canonical form as facts about the list. -/
theorem wf_iff (d : Byte) (m : List Host.Cell) :
    Memory.wf d m = true ↔ m.Pairwise (fun x y => x.1 < y.1) ∧ ∀ c ∈ m, c.2 ≠ d := by
  induction m with
  | nil => simp [Memory.wf]
  | cons c m ih =>
    cases m with
    | nil => simp [Memory.wf]
    | cons e m =>
      have hw : Memory.wf d (c :: e :: m) = (c.2 != d && c.1 < e.1 && Memory.wf d (e :: m)) := rfl
      rw [hw]
      simp only [Bool.and_eq_true, bne_iff_ne, decide_eq_true_eq, ih]
      constructor
      · rintro ⟨⟨h1, h2⟩, h3, h4⟩
        refine ⟨List.pairwise_cons.mpr ⟨fun x hx => ?_, h3⟩, fun x hx => ?_⟩
        · rcases List.mem_cons.mp hx with rfl | hx
          · exact h2
          · exact Nat.lt_trans h2 ((List.pairwise_cons.mp h3).1 x hx)
        · rcases List.mem_cons.mp hx with rfl | hx
          · exact h1
          · exact h4 x hx
      · rintro ⟨h1, h2⟩
        obtain ⟨h3, h4⟩ := List.pairwise_cons.mp h1
        exact ⟨⟨h2 c (by simp), h3 e (by simp)⟩, h4, fun x hx => h2 x (List.mem_cons_of_mem _ hx)⟩

/-- Leaving out entries keeps the form. -/
theorem wf_filter {d : Byte} {m : List Host.Cell} (p : Host.Cell → Bool) (h : Memory.wf d m = true) :
    Memory.wf d (m.filter p) = true := by
  rw [wf_iff] at *
  exact ⟨h.1.filter p, fun c hc => h.2 c ((List.mem_filter.mp hc).1)⟩

/-- Every entry that bytes need lies in their range and differs from the unlisted byte. -/
theorem mem_cellsOf {d : Byte} {a : Nat} {bs : Bytes} {c : Host.Cell} (h : c ∈ cellsOf d a bs) :
    a ≤ c.1 ∧ c.1 < a + bs.length ∧ c.2 ≠ d := by
  induction bs generalizing a with
  | nil => simp [cellsOf] at h
  | cons b bs ih =>
    unfold cellsOf at h
    split at h
    · obtain ⟨h1, h2, h3⟩ := ih h; simp only [List.length_cons]; exact ⟨by omega, by omega, h3⟩
    · next hb =>
      rcases List.mem_cons.mp h with rfl | h
      · simp only [List.length_cons]; exact ⟨Nat.le_refl _, by omega, hb⟩
      · obtain ⟨h1, h2, h3⟩ := ih h; simp only [List.length_cons]; exact ⟨by omega, by omega, h3⟩

/-- The entries that bytes need are in the canonical form. -/
theorem wf_cellsOf (d : Byte) (a : Nat) (bs : Bytes) : (cellsOf d a bs).Pairwise (fun x y => x.1 < y.1) := by
  induction bs generalizing a with
  | nil => simp [cellsOf]
  | cons b bs ih =>
    unfold cellsOf
    split
    · exact ih _
    · exact List.pairwise_cons.mpr ⟨fun c hc => (mem_cellsOf hc).1, ih _⟩

/-- Writing bytes keeps the form. -/
theorem wf_writeBytes {d : Byte} {m : List Host.Cell} (a : Nat) (bs : Bytes) (h : Memory.wf d m = true) :
    Memory.wf d (writeBytes d a bs m) = true := by
  rw [wf_iff] at *
  unfold writeBytes
  refine ⟨?_, fun c hc => ?_⟩
  · rw [List.pairwise_append, List.pairwise_append]
    refine ⟨⟨h.1.filter _, wf_cellsOf .., fun x hx y hy => ?_⟩, h.1.filter _, fun x hx y hy => ?_⟩
    · have := (mem_cellsOf hy).1
      have := (List.mem_filter.mp hx).2
      simp only [decide_eq_true_eq] at this; omega
    · have hy := (List.mem_filter.mp hy).2
      simp only [decide_eq_true_eq] at hy
      rcases List.mem_append.mp hx with hx | hx
      · have := (List.mem_filter.mp hx).2
        simp only [decide_eq_true_eq] at this; omega
      · have := (mem_cellsOf hx).2.1; omega
  · rcases List.mem_append.mp hc with hc | hc
    · rcases List.mem_append.mp hc with hc | hc
      · exact h.2 c ((List.mem_filter.mp hc).1)
      · exact (mem_cellsOf hc).2.2
    · exact h.2 c ((List.mem_filter.mp hc).1)

/-- A byte is read from the first part of a memory that lists it. -/
theorem readByte_append (d : Byte) (a : Nat) (m n : List Host.Cell) :
    readByte d a (m ++ n) = if (m.any fun c => c.1 = a) then readByte d a m else readByte d a n := by
  induction m with
  | nil => simp
  | cons c m ih =>
    obtain ⟨k, b⟩ := c
    simp only [List.cons_append, readByte]
    split
    · subst_vars; simp
    · next hk =>
      have : k ≠ a := fun e => hk e.symm
      rw [ih]; simp [this]

/-- A byte that no entry lists. -/
theorem readByte_none {d : Byte} {a : Nat} {m : List Host.Cell} (h : ∀ c ∈ m, c.1 ≠ a) : readByte d a m = d := by
  induction m with
  | nil => rfl
  | cons c m ih =>
    obtain ⟨k, b⟩ := c
    simp only [readByte]
    rw [if_neg fun e => h _ (List.mem_cons_self ..) e.symm]
    exact ih fun c hc => h c (List.mem_cons_of_mem _ hc)

/-- Leaving out entries at other addresses does not change a byte. -/
theorem readByte_filter {d : Byte} {a : Nat} {m : List Host.Cell} {p : Host.Cell → Bool} (h : ∀ b, p (a, b) = true) :
    readByte d a (m.filter p) = readByte d a m := by
  induction m with
  | nil => rfl
  | cons c m ih =>
    obtain ⟨k, b⟩ := c
    by_cases hk : a = k
    · subst hk; rw [List.filter_cons_of_pos (h b)]; simp [readByte]
    · by_cases hp : p (k, b) = true
      · rw [List.filter_cons_of_pos hp]; simp only [readByte, if_neg hk]; exact ih
      · rw [List.filter_cons_of_neg hp]; simp only [readByte, if_neg hk]; exact ih

/-- A byte of the entries that bytes need is that byte. -/
theorem readByte_cellsOf (d : Byte) (a i : Nat) (bs : Bytes) (h : i < bs.length) :
    readByte d (a + i) (cellsOf d a bs) = bs.getD i d := by
  induction bs generalizing a i with
  | nil => simp at h
  | cons b bs ih =>
    cases i with
    | zero =>
      unfold cellsOf
      split
      · next hb =>
        rw [readByte_none fun c hc => ?_]
        · simp [hb]
        · have := (mem_cellsOf hc).1; omega
      · simp [readByte]
    | succ i =>
      have e : a + (i + 1) = a + 1 + i := by omega
      unfold cellsOf
      split
      · rw [e, ih _ _ (by simpa using h)]; simp
      · simp only [readByte]
        rw [if_neg (by omega), e, ih _ _ (by simpa using h)]; simp

/-- Reading a byte after writing bytes. -/
theorem readByte_writeBytes (d : Byte) (a x : Nat) (bs : Bytes) (m : List Host.Cell) :
    readByte d x (writeBytes d a bs m) =
      if a ≤ x ∧ x < a + bs.length then bs.getD (x - a) d else readByte d x m := by
  unfold writeBytes
  rw [List.append_assoc, readByte_append]
  by_cases h1 : x < a
  · rw [if_neg (by omega : ¬ (a ≤ x ∧ x < a + bs.length))]
    split
    · exact readByte_filter fun b => by simpa using h1
    · next hn =>
      have hm : ∀ c ∈ m, c.1 ≠ x := by
        intro c hc e
        apply hn
        rw [List.any_eq_true]
        exact ⟨c, List.mem_filter.mpr ⟨hc, by simpa [e] using h1⟩, by simpa using e⟩
      rw [readByte_none hm, readByte_none]
      intro c hc
      rcases List.mem_append.mp hc with hc | hc
      · have := (mem_cellsOf hc).1; omega
      · exact hm c ((List.mem_filter.mp hc).1)
  · have hf : ((m.filter fun c => c.1 < a).any fun c => c.1 = x) = false := by
      rw [List.any_eq_false]
      intro c hc
      have := (List.mem_filter.mp hc).2
      simp only [decide_eq_true_eq] at *; omega
    rw [hf, if_neg (by simp), readByte_append]
    by_cases h2 : x < a + bs.length
    · rw [if_pos (show a ≤ x ∧ x < a + bs.length from ⟨by omega, h2⟩)]
      have hr := readByte_cellsOf d a (x - a) bs (by omega)
      rw [show a + (x - a) = x by omega] at hr
      split
      · exact hr
      · next hn =>
        have hd : readByte d x (cellsOf d a bs) = d := by
          apply readByte_none
          intro c hc e
          apply hn
          rw [List.any_eq_true]
          exact ⟨c, hc, by simpa using e⟩
        rw [← hr, hd, readByte_none]
        intro c hc
        have := (List.mem_filter.mp hc).2
        simp only [decide_eq_true_eq] at this; omega
    · rw [if_neg (by omega : ¬ (a ≤ x ∧ x < a + bs.length))]
      have hc : ((cellsOf d a bs).any fun c => c.1 = x) = false := by
        rw [List.any_eq_false]
        intro c hc
        have := (mem_cellsOf hc).2.1
        simp only [decide_eq_true_eq]; omega
      rw [hc, if_neg (by simp)]
      exact readByte_filter fun b => by simp only [decide_eq_true_eq]; omega

/-- A run has its length. -/
theorem length_readBytes (d : Byte) (a k : Nat) (m : List Host.Cell) : (readBytes d a k m).length = k := by
  have go : ∀ k a m, (readRun d a k m).length = k := by
    intro k
    induction k with
    | zero => intro a m; rfl
    | succ k ih =>
      intro a m
      cases m with
      | nil => simp [readRun, ih]
      | cons c m => obtain ⟨x, b⟩ := c; unfold readRun; split <;> simp [ih]
  exact go ..

/-- A byte of a run is the byte at its address, in a memory in canonical form. -/
theorem getD_readBytes (d : Byte) (a k i : Nat) (m : List Host.Cell) (h : Memory.wf d m = true) (hi : i < k) :
    (readBytes d a k m).getD i d = readByte d (a + i) m := by
  have go : ∀ k a i (m : List Host.Cell), m.Pairwise (fun x y => x.1 < y.1) → (∀ c ∈ m, a ≤ c.1) → i < k →
      (readRun d a k m).getD i d = readByte d (a + i) m := by
    intro k
    induction k with
    | zero => intro a i m _ _ h; omega
    | succ k ih =>
      intro a i m hp ha hi
      cases m with
      | nil =>
        cases i with
        | zero => simp [readRun, readByte]
        | succ i =>
          have := ih (a + 1) i [] hp (by simp) (by omega)
          simp only [readRun, List.getD_cons_succ, this, readByte]
      | cons c m =>
        obtain ⟨x, b⟩ := c
        obtain ⟨h1, h2⟩ := List.pairwise_cons.mp hp
        have hx := ha (x, b) (by simp)
        simp only at hx
        unfold readRun
        split
        · next e =>
          subst e
          cases i with
          | zero => simp [readByte]
          | succ i =>
            have := ih (a + 1) i m h2 (fun c hc => h1 c hc) (by omega)
            simp only [List.getD_cons_succ, this, readByte]
            rw [if_neg (by omega), show a + (i + 1) = a + 1 + i by omega]
        · next e =>
          cases i with
          | zero =>
            simp only [List.getD_cons_zero, Nat.add_zero]
            rw [readByte_none]
            intro c hc
            rcases List.mem_cons.mp hc with rfl | hc
            · exact fun e' => e e'.symm
            · have := h1 c hc; simp only at this; omega
          | succ i =>
            have := ih (a + 1) i ((x, b) :: m) hp (fun c hc => by
              rcases List.mem_cons.mp hc with rfl | hc
              · simp only; omega
              · have := h1 c hc; simp only at this; omega) (by omega)
            simp only [List.getD_cons_succ, this]
            rw [show a + (i + 1) = a + 1 + i by omega]
  unfold readBytes
  rw [wf_iff] at h
  rw [go k a i _ (h.1.sublist (List.dropWhile_sublist _)) _ hi]
  · have hs : ∀ m : List Host.Cell, readByte d (a + i) (m.dropWhile fun c => c.1 < a) = readByte d (a + i) m := by
      intro m
      induction m with
      | nil => rfl
      | cons c m ih =>
        obtain ⟨x, b⟩ := c
        by_cases hx : x < a
        · rw [List.dropWhile_cons_of_pos (by simpa using hx), ih]; simp only [readByte]; rw [if_neg (by omega)]
        · rw [List.dropWhile_cons_of_neg (by simpa using hx)]
    exact hs m
  · intro c hc
    generalize hm : m.dropWhile (fun c => decide (c.1 < a)) = n at hc
    cases n with
    | nil => simp at hc
    | cons e n =>
      have he : ¬ e.1 < a := by
        have := List.head?_dropWhile_not (fun c : Host.Cell => decide (c.1 < a)) m
        rw [hm] at this
        simpa using this
      have hp := h.1.sublist (List.dropWhile_sublist (fun c : Host.Cell => decide (c.1 < a)) (l := m))
      rw [hm] at hp
      rcases List.mem_cons.mp hc with rfl | hc
      · omega
      · have := (List.pairwise_cons.mp hp).1 c hc; omega

/-- Writing one byte keeps the form. -/
theorem wf_writeByte {d : Byte} {m : List Host.Cell} (a : Nat) (b : Byte) (h : Memory.wf d m = true) :
    Memory.wf d (writeByte d a b m) = true := by
  rw [wf_iff] at *
  induction m with
  | nil => unfold writeByte; split <;> simp_all
  | cons c m ih =>
    obtain ⟨x, y⟩ := c
    obtain ⟨h1, h2⟩ := h
    obtain ⟨h3, h4⟩ := List.pairwise_cons.mp h1
    have hm : ∀ c ∈ m, c.2 ≠ d := fun c hc => h2 c (List.mem_cons_of_mem _ hc)
    have hy : y ≠ d := h2 (x, y) (by simp)
    unfold writeByte
    split
    · split
      · exact ⟨h1, h2⟩
      · next hb =>
        refine ⟨List.pairwise_cons.mpr ⟨fun c hc => ?_, h1⟩, fun c hc => ?_⟩
        · rcases List.mem_cons.mp hc with rfl | hc
          · assumption
          · have := h3 c hc; simp only at this ⊢; omega
        · rcases List.mem_cons.mp hc with rfl | hc
          · exact hb
          · exact h2 c hc
    · split
      · subst_vars
        split
        · exact ⟨h4, hm⟩
        · next hb =>
          refine ⟨List.pairwise_cons.mpr ⟨h3, h4⟩, fun c hc => ?_⟩
          rcases List.mem_cons.mp hc with rfl | hc
          · exact hb
          · exact hm c hc
      · have hi := ih ⟨h4, hm⟩
        refine ⟨List.pairwise_cons.mpr ⟨fun c hc => ?_, hi.1⟩, fun c hc => ?_⟩
        · have hk : ∀ (m : List Host.Cell) c, c ∈ writeByte d a b m → c.1 = a ∨ c ∈ m := by
            intro m
            induction m with
            | nil => intro c hc; unfold writeByte at hc; split at hc <;> simp_all
            | cons e m ih =>
              intro c hc
              obtain ⟨u, v⟩ := e
              unfold writeByte at hc
              split at hc
              · split at hc
                · exact .inr hc
                · rcases List.mem_cons.mp hc with rfl | hc
                  · exact .inl rfl
                  · exact .inr hc
              · split at hc
                · split at hc
                  · exact .inr (List.mem_cons_of_mem _ hc)
                  · rcases List.mem_cons.mp hc with rfl | hc
                    · exact .inl rfl
                    · exact .inr (List.mem_cons_of_mem _ hc)
                · rcases List.mem_cons.mp hc with rfl | hc
                  · exact .inr (by simp)
                  · rcases ih c hc with h | h
                    · exact .inl h
                    · exact .inr (List.mem_cons_of_mem _ h)
          rcases hk m c hc with e | hc
          · simp only; omega
          · exact h3 c hc
        · rcases List.mem_cons.mp hc with rfl | hc
          · exact hy
          · exact hi.2 c hc

/-! ### Blocks under numbers (T2) -/

/-- Storing a block keeps the list rising, and adds no number but its own. -/
theorem rising_putN {α : Type} (k : Nat) (a : α) (l : List (Nat × α)) (h : Rising l) :
    Rising (putN k a l) ∧ ∀ p ∈ putN k a l, p = (k, a) ∨ p ∈ l := by
  induction l with
  | nil => simp [putN, Rising]
  | cons q l ih =>
    obtain ⟨j, b⟩ := q
    simp only [Rising, List.pairwise_cons] at h
    have ih := ih h.2
    unfold putN
    split
    · subst_vars
      exact ⟨List.pairwise_cons.mpr h, fun p hp => by rcases List.mem_cons.mp hp with h | h <;> simp [h]⟩
    · split
      · refine ⟨List.pairwise_cons.mpr ⟨fun p hp => ?_, List.pairwise_cons.mpr h⟩, fun p hp => by
          rcases List.mem_cons.mp hp with h | h <;> simp [h]⟩
        rcases List.mem_cons.mp hp with rfl | hp
        · assumption
        · have := h.1 p hp; dsimp only at this ⊢; omega
      · refine ⟨List.pairwise_cons.mpr ⟨fun p hp => ?_, ih.1⟩, fun p hp => ?_⟩
        · rcases ih.2 p hp with rfl | hp
          · dsimp only; omega
          · exact h.1 p hp
        · rcases List.mem_cons.mp hp with rfl | hp
          · simp
          · rcases ih.2 p hp with h | h <;> simp [h]

/-- Erasing blocks keeps the list rising. -/
theorem rising_filter {α : Type} (p : Nat × α → Bool) (l : List (Nat × α)) (h : Rising l) : Rising (l.filter p) :=
  h.sublist (List.filter_sublist ..)

/-! ### Little-endian bytes (R3) -/

/-- Writing a number takes the bytes asked for. -/
theorem length_le (n k : Nat) : (le n k).length = k := by
  induction k generalizing n with
  | zero => rfl
  | succ k ih => simp [le, ih]

/-- The bytes of a number spell it, cut to their width. -/
theorem leNat_le (n k : Nat) : leNat (le n k) = n % 256 ^ k := by
  induction k generalizing n with
  | zero => simp [le, leNat, Nat.mod_one]
  | succ k ih =>
    simp only [le, leNat, ih, BitVec.toNat_ofNat]
    have h : 256 ^ (k + 1) = 256 * 256 ^ k := by rw [Nat.pow_succ, Nat.mul_comm]
    rw [h, Nat.mod_mul]

end Sys2Proof.Machine
end

