-- ==== Sys2Proof/Machine/Line.lean ====
section
/-!
DEFINITION. Sys2Proof/Machine/Line.lean: what the lanes of a Welt link carry for the flits that leave on it (R302, R303): the code
RS(544,514) over GF(2^10) of IEEE 802.3 clause 119, the spread of a codeword's symbols over the active lanes, the slots of the
alignment blocks, and the Gray-coded PAM4 levels. The order of bits in a symbol, the field's polynomial and the code's generator are
those of clause 119; the alignment block's contents are not the spec's (log entry 142).
-/
namespace Sys2Proof.Machine
open Sys2Proof

/-! ### GF(2^10) and RS(544,514) -/

/-- An element of GF(2^10) times x, modulo x^10 + x^3 + 1. -/
def gfTwice (a : Nat) : Nat := if a < 512 then 2 * a else (2 * a) % 1024 ^^^ 9

/-- The product of two elements of GF(2^10), over the low `n` bits of the second. -/
def gfMulN : Nat → Nat → Nat → Nat
  | 0, _, _ => 0
  | n + 1, a, b => (if b % 2 = 1 then a else 0) ^^^ gfMulN n (gfTwice a) (b / 2)

/-- The product of two elements of GF(2^10). -/
def gfMul (a b : Nat) : Nat := gfMulN 10 a b

/-- A polynomial, highest power first, times (x − r). -/
def mulRoot (r : Nat) (p : List Nat) : List Nat :=
  (p ++ [0]).zipWith (fun a b => a ^^^ gfMul r b) (0 :: p)

/-- The generator of RS(544,514): the product of (x − α^j) for j from 0 to 29, highest power first. -/
def rsGenerator : List Nat := (List.range 30).foldl (fun p j => mulRoot ((List.range j).foldl (fun a _ => gfTwice a) 1) p) [1]

/-- One message symbol enters the division by the generator: the next remainder. -/
def rsStep (rem : List Nat) (m : Nat) : List Nat :=
  let f := rem.headD 0 ^^^ m
  (rem.drop 1 ++ [0]).zipWith (fun a g => a ^^^ gfMul f g) (rsGenerator.drop 1)

/-- The 544 symbols of a codeword: 514 message symbols, then the 30 parity symbols. -/
def rsEncode (msg : List Nat) : List Nat := msg ++ msg.foldl rsStep (List.replicate 30 0)

/-! ### Flits into codewords and lanes (R303) -/

/-- The bits of bytes as they are sent, the low bit of each byte first. -/
def bitsSent (b : Bytes) : List Bool := b.flatMap fun x => (List.range 8).map fun i => x.toNat.testBit i

/-- The value of up to ten bits, the first one lowest. -/
def symbolOf (b : List Bool) : Nat := b.foldr (fun x v => (if x then 1 else 0) + 2 * v) 0

/-- Flits fill the message symbols of codewords bit-serially, with no gap between them: the whole codewords of a stream of bits; `n` bounds
them. -/
def codewords : Nat → List Bool → List (List Nat)
  | 0, _ => []
  | n + 1, b =>
    if b.length < 5140 then []
    else rsEncode ((List.range 514).map fun i => symbolOf ((b.drop (10 * i)).take 10)) :: codewords n (b.drop 5140)

/-- What a codeword slot carries on the lanes: symbols, or an alignment block. -/
inductive LineSlot where
  | symbols (lanes : List (List Nat))
  | align
deriving DecidableEq, Repr

/-- The symbols of a codeword, round-robin over the active lanes from L0 on. -/
def spreadLanes (lanes : Nat) (cw : List Nat) : List (List Nat) :=
  (List.range lanes).map fun l => (List.range (ceilDiv (cw.length - l) lanes)).map fun i => cw.getD (l + lanes * i) 0

/-- One codeword slot in every 32,768 carries the alignment block: the slots of codewords from slot `i` on. -/
def slots (lanes : Nat) : Nat → List (List Nat) → List LineSlot
  | _, [] => []
  | i, c :: l =>
    if i % 32768 = 0 then .align :: .symbols (spreadLanes lanes c) :: slots lanes (i + 2) l
    else .symbols (spreadLanes lanes c) :: slots lanes (i + 1) l

/-- The Gray-coded PAM4 level of two bits, the first sent and the second (R302). -/
def pam4 (a b : Bool) : Nat :=
  match a, b with
  | false, false => 0
  | false, true => 1
  | true, true => 2
  | true, false => 3

/-- The lanes of a link in use: four, or two (R308). -/
def activeLanes (k : Link) : Nat := if k.lanes = 15 then 4 else 2

/-- The flits that left on a link, in order. -/
def flitsSent (l : Nat) (out : List Out) : List Bytes :=
  out.filterMap fun o => match o with | .flit k b => if k = l then some b else none | _ => none

/-- What a link's lanes have carried for the flits that left on it. -/
def lineOf (s : State) (l : Nat) : List LineSlot :=
  let b := (flitsSent l s.out).flatMap bitsSent
  slots (activeLanes (linkOf s l)) 0 (codewords (b.length / 5140) b)

end Sys2Proof.Machine
end

