-- ==== Sys2Proof/Tests/Slice0.lean ====
section
/-!
SUPPORT. Sys2Proof/Tests/Slice0.lean: ill-formed commands refused by each check, small states that meet the hypotheses of the
statements (a theorem named `witness_` for each), and tests of single commands whose expected results come from the spec.
-/
namespace Sys2Proof.Tests
open Sys2Proof Sys2Proof.Machine
set_option Elab.async false

/-! ### A small module: one tenant on queue pair 1, one context, no job -/

/-- Context 0 of the small module: MXINT8 pages, 4,096 positions, mode 0. -/
def ctxA : CtxCfg :=
  { id := 0, kvFormat := 6, stFormat := 1, experts := 0, layers := 1, maxPos := 4096, digest := zeros 32, mode := 0,
    scoreLayer := 0, sink := 1, recent := 1, defBudget := 2048, decay := 0 }

/-- A Last image that binds tenant 7, with every right, to queue pair 1. -/
def imgA : Image :=
  { log2 := 12, pinnedMax := 4, ctxs := [ctxA], tenants := [{ id := 7, ctxMask := 15, rights := 255, eventQp := 1 }],
    qps := [{ idx := 1, tenant := 7, topClass := 0, egress := 0, meter := 0xFFFF }], quotas := [25, 25, 25, 25],
    seeds := [0, 0], topo := { dims := [2, 1, 1, 1], links := [0] } }

/-- A result ring of 64 slots. -/
def ringA : Ring := { slots := 64, rkey := 1, addr := 4096, consumerAddr := 64 }

/-- The small module in service: the image active, the table in T1, queue pair 1 READY, the owner's port on its bus. -/
def base : State :=
  { State.reset with
    img := { State.reset.img with active := some imgA },
    ses := { State.reset.ses with tracker := 0 },
    hst := { State.reset.hst with linkUp := true, txOn := true, qps := [(1, { st := 2, gen := 1, version := 0x48, result := some ringA })] },
    stp := { State.reset.stp with ctxs := [(0, { state := 3, ready := true })] },
    regs := { State.reset.regs with pwrEnable := 3 },
    i3c := { State.reset.i3c with vref := true },
    pwr := { State.reset.pwr with state := 1, bootStage := 9, vinMv := 48000, rails := 5 } }

/-- The base before the boot stage ends, an input at its lowest. -/
def booting (n : Nat) : State := { base with pwr := { base.pwr with bootStage := n } }

/-- A change of the image unit of the small module. -/
def withImg (f : ImgCtl → ImgCtl) : State := { base with img := f base.img }

/-- A tack header on queue pair 1, long enough for every opcode. -/
def hdrA : TackHdr := { qp := 1, length := 16384, handle := 5 }

/-- The entry of session 5. -/
def entA : Entry :=
  { state := .ember, prior := .ember, handle := 5, index := 3, tenant := 7, adapterId := 0xFFFF, place := 1, budget := 2048,
    seedKey := zeros 16, auditHead := zeros 32 }

/-- The small module with a session at index 3. -/
def withSess (x : Sess) : State := { base with ses := { base.ses with table := [(3, x)] } }

/-- Session 5 in a state. -/
def sesIn (st : SesState) : Sess := { e := { entA with state := st } }

/-- Every check before a tack's own passes, and `p` holds in the state that they leave. -/
def served? (h : TackHdr) (b : TackBody) (s : State) (p : State → Bool) : Bool :=
  match served h b s with
  | some (_, u) => p u
  | none => false

/-- The same, of the bindings too. -/
def servedB? (h : TackHdr) (b : TackBody) (s : State) (p : Machine.Bind → State → Bool) : Bool :=
  match servedB h b s with
  | some (_, d, u) => p d u
  | none => false

/-- The same for a settlement. -/
def settles? (h : TackHdr) (b : TackBody) (s : State) (p : State → Bool) : Bool :=
  match settles h b s with
  | some u => p u
  | none => false

/-- `names` as a Bool, for session 5 at index 3. -/
def named? (x : Sess) (u : State) : Bool := byHandle? u hdrA.handle = some (3, x) && decide (x.e.state ≠ .ash)

/-- A member of a job of two nodes, this module the cobbler. -/
def mapA : LaceMap :=
  { state := 2, job := 9, epoch := 4, term := 2, cobbler := 0, tenant := 7,
    members := [{ node := 0, roles := 15, qpFirst := 100, qpCount := 0 }, { node := 1, roles := 15, qpFirst := 200, qpCount := 1 }],
    pools := [{ id := 1, kind := 0, park := false, units := 1, members := [(0, 0, 0, 0)] }], slots := [] }

/-- Job 9 in service here. -/
def jobA : Job := { map := mapA, term := 2 }

/-- The small module in job 9. -/
def withJob (j : Job) : State := { base with map := { base.map with jobs := [(9, j)] } }

/-! ### Witnesses: states that meet the hypotheses of the statements -/

theorem witness_IdleStepIsOneTick : base.pending = [] := by decide +kernel

theorem witness_CommandsStopOnlyWithoutTheirUnit :
    hasUnit (.contextLoad .owner 3) = true ∧ hasUnit (.contextLoad .owner 4) = false ∧ hasUnit (.cellFence 47 73 1) = true ∧
    hasUnit (.cellFence 47 74 1) = false ∧ hasUnit (.railPowerGood 1) = true ∧ hasUnit (.railPowerGood 0) = false ∧
    hasUnit (.ueT1 0x17FFFFFFFFF .unused) = true ∧ hasUnit (.ueT1 0x18000000000 .unused) = false := by decide +kernel

theorem witness_CommandsKeepTheQueue : ∃ t, exec .stageLockTimeout base = .next t := ⟨_, rfl⟩

theorem witness_PeaksCoverTheCounts : PeaksCover State.reset ∧ ∃ t, step State.reset = .next t := by
  refine ⟨?_, _, rfl⟩
  show ∀ i, i < 32 → min (limitNow State.reset i) (2 ^ 24 - 1) ≤ findD i State.reset.lim.peaks 0
  decide +kernel

theorem witness_MemoriesKeepTheirForm : MemoriesWf base ∧ ∃ t, exec (.secImgStageData 1) base = .next t :=
  ⟨⟨List.Pairwise.nil, fun _ h => (List.not_mem_nil h).elim, rfl, rfl, rfl, rfl⟩, _, rfl⟩

/-- A LOAD of node 1 as the small module sees it. -/
def reqA : Request := { hdr := { src := 1, job := 9 }, op := 1, stream := 0, tag := 0, seq := 0, addr := 0, ackThrough := 0xFFFFFFFF, incarnation := 1 }

theorem witness_FramesReadBackAsWritten :
    (Frame.req reqA).wf = true ∧
    (let r : Response := { hdr := { dest := 1 }, op := 1, stream := 0, tag := 0, seq := 0, status := 0, data := zeros 128 }
     (Frame.rsp r).wf = true ∧ 32 + r.data.length = frameLen (.rsp r)) := by decide +kernel

theorem witness_EntriesReadBackAsWritten :
    (sesIn .ember).e.wf = true ∧ (sesIn .ash).e.wf = true ∧ retained (sesIn .ember).st.rows < 2 ^ 32 := by decide +kernel

theorem witness_StorageRegistersHoldTheirFields :
    opens .owner 0x100008 base = true ∧ (rwSlot? 0x100008).isSome = true ∧ opens .owner 0x400058 base = true ∧
    (rwsSlot? 0x400058).isSome = true ∧ base.img.isSealed = false ∧ pctBelowUse 25 base = false ∧
    (withImg fun i => { i with isSealed := true }).img.isSealed = true ∧
    opens .owner 0x400058 (withImg fun i => { i with isSealed := true }) = true := by decide +kernel

theorem witness_StorageBelowUse :
    (let s : State := { base with mem := { base.mem with chans := [(0, { vecUsed := 100 })] } }
     opens .owner 0x400058 s = true ∧ pctBelowUse 0 s = true ∧ s.img.isSealed = false) := by decide +kernel

theorem witness_LaneCapsAndContextFlags :
    opens .owner 0x100030 base = true ∧ opens .owner 0x100038 base = true ∧ opens (.host 1) 0x100038 base = true ∧ (3 : Nat) < 4 := by
  decide +kernel

/-- The small module with thermal limits. -/
def withThermal (v : Word) : State := { base with regs := { base.regs with pwrThermal := v } }

theorem witness_ThermalLimitsAreTakenInRange :
    opens .owner 0xD00020 base = true ∧ base.img.isSealed = false ∧
    (let s := withImg fun i => { i with isSealed := true }
     opens .owner 0xD00020 s = true ∧ s.img.isSealed = true ∧ s.regs.pwrThermal.toNat < 2 ^ 24) ∧
    (let s := withThermal (BitVec.ofNat 64 (95 + 94 * 256 + 111 * 65536))
     wfield s.regs.pwrThermal 8 8 < throttleC s ∧ 110 < wfield s.regs.pwrThermal 16 8 ∧ throttleC s + 5 ≤ 110) ∧
    (let s := withThermal (BitVec.ofNat 64 (95 + 95 * 256 + 99 * 65536))
     throttleC s ≤ wfield s.regs.pwrThermal 8 8 ∧ wfield s.regs.pwrThermal 16 8 < throttleC s + 5 ∧ throttleC s ≤ 105) ∧
    (let s := withThermal (BitVec.ofNat 64 (95 + 110 * 65536))
     throttleC s + 5 ≤ wfield s.regs.pwrThermal 16 8 ∧ wfield s.regs.pwrThermal 16 8 ≤ 110) := by decide +kernel

theorem witness_BootStageHoldsOwnerWritesBack :
    onBus (booting 8) = true ∧ (booting 8).pwr.bootStage < 9 ∧ (regRow? 0xD00010).isSome = true ∧ (regRow? 0).isSome = true ∧
    (booting 7).pwr.bootStage < 8 ∧ onBus (booting 7) = true ∧ (regRow? 0xB01070).isSome = true ∧ (regRow? 0xB01078).isSome = true := by decide +kernel

theorem witness_CountersReadAsStated :
    opens .owner 0x100028 base = true ∧ opens .owner 0xC00038 base = true ∧ opens .owner 0x200000 base = true := by decide +kernel

theorem witness_ControlRegistersActAsTheirCommands :
    opens .owner 0x200018 base = true ∧ opens .owner 0xA00050 base = true ∧ opens .owner 0xD00010 base = true ∧
    wfield (1 : Word) 0 2 = 1 ∧ wfield (2 : Word) 0 2 = 2 ∧ wfield (0 : Word) 0 2 = 0 ∧ wfield (1 : Word) 0 3 = 1 ∧
    wfield (2 : Word) 0 3 = 2 ∧ wfield (4 : Word) 0 3 = 4 ∧ wfield (0 : Word) 0 3 = 0 ∧
    wfield (8 : Word) 0 4 = 8 ∧ wfield (4 : Word) 0 4 = 4 ∧ wfield (0 : Word) 0 4 = 0 := by decide +kernel

theorem witness_UndefinedOffsetsReadZeroAndWarn :
    regRow? 4 = none ∧ regRow? 0xFFFFF8 = none ∧ reaches .owner base = true ∧ reaches (.host 1) base = true := by decide +kernel

/-- The small module where the tenant has no register right. -/
def noRights : State := withImg fun i =>
  { i with active := some { imgA with tenants := [{ id := 7, ctxMask := 15, rights := 0, eventQp := 1 }] } }

/-- The small module where the tenant may read and write registers that other rights guard. -/
def someRights : State := withImg fun i =>
  { i with active := some { imgA with tenants := [{ id := 7, ctxMask := 15, rights := 12, eventQp := 1 }] } }

theorem witness_HostAccessNeedsItsRights :
    (match regRow? 0 with | some r => hostMayWrite noRights 1 r | none => true) = false ∧
    (match regRow? 0xB00058 with
      | some r => servedB? hdrA (.regRead 0xB00058) someRights (fun d _ => !rightsRead d.rights r) &&
          servedB? hdrA (.regWrite 0xB00058 1) someRights fun d _ => !rightsWrite d.rights r
      | none => false) = true ∧
    (let s : State := { base with accs := [(.host 1, { qpSel := 2, inspectTenant := 8 })] }
     tenantOf s (accRegs s (.host 1)).qpSel ≠ tenantOf s 1 ∧ (accRegs s (.host 1)).inspectTenant ≠ tenantOf s 1 ∧
     (qpCfgs s).all (fun c => !(c.meter = (accRegs s (.host 1)).meterSel && c.tenant = tenantOf s 1)) = true) ∧
    (let j : Job := { jobA with map := { mapA with tenant := 8 } }
     let s : State := { withJob j with accs := [(.host 1, { jobSel := 9 })] }
     (match job? s (accRegs s (.host 1)).jobSel with | some j => decide (j.map.tenant ≠ tenantOf s 1) | none => false) = true) := by
  decide +kernel

theorem witness_TreeSumPairsByIndex : 2 ≤ ([1, 2, 3] : List F32).length := by decide

theorem witness_BucketOfADistance :
    (let w : Wt := { (default : Wt) with nexact := 16, subBits := 2, nbuckets := 32 }
     w.nexact = 2 ^ 4 ∧ w.subBits ≤ 4 ∧ 2 ^ w.subBits ≤ w.nexact ∧ 1 ≤ w.nbuckets ∧ w.nbuckets ≤ 1024 ∧ 15 < w.nexact ∧ w.nexact ≤ 16 ∧
     2 ^ 4 ≤ 16 ∧ 16 < 2 ^ 5) := by decide +kernel

theorem witness_ArithmeticAnswersAreCanonical : isNaN 0x7F800001 = true := by decide +kernel

/-- An event of a severity. -/
def evA (sev : Nat) : EventRec := { time := 0, freeRun := true, severity := sev, level := 6, unit := 0, code := 0x0401, detail := 0 }

theorem witness_BufferedEventsKeepSeverity3 :
    (let b : EvBuf := { held := List.replicate 256 (evA 0), reserve := List.replicate 3 (evA 3) }
     b.held.length = 256 ∧ b.reserve.length ≤ 4 ∧ (evA 3).severity = 3 ∧ (evA 0).severity ≠ 3 ∧ b.reserve.length < 4) := by decide +kernel

/-- Every check of a request of node 1 passes, and it reaches T1 address `t`. -/
def applies? (l : Nat) (r : Request) (t : Nat) (s : State) : Bool :=
  let u := owe l (.req r) s
  let x := homeStream u r.hdr.src r.stream
  let v := homeState l r s
  decide (r.hdr.dest = selfNode s) && !u.err.chipOut && decide (r.incarnation = x.incarnation) && decide (r.seq = x.next % 2 ^ 32) &&
  !(u.wlt.buffer.any fun b => b.2.2.hdr.src = r.hdr.src && b.2.2.stream = r.stream) &&
  (!atomicOp r.op || decide ((freeOnce r u).wlt.once.length < onceMax)) && !x.lost && jobServed v r.hdr.job &&
  decide (homeAddr v r = .inl t) && !(v.err.regions.contains (t1Map v t).1) && imageOn s

/-- The small module in job 9, node 1 known as a requester in its first incarnation. -/
def homeA : State :=
  { withJob jobA with wlt := { base.wlt with homes := [((1, 0), { incarnation := 1, next := 0 })] } }

/-- `applies?` says that a request is applied. -/
theorem appliesAt_of {l r t s} (h : applies? l r t s = true) : appliesAt l r t s := by
  simp only [applies?, Bool.and_eq_true, Bool.or_eq_true, Bool.not_eq_true', decide_eq_true_eq] at h
  obtain ⟨⟨⟨⟨⟨⟨⟨⟨⟨⟨h1, h2⟩, h3⟩, h4⟩, h5⟩, h6⟩, h7⟩, h8⟩, h9⟩, h10⟩, h11⟩ := h
  refine ⟨h1, h2, h3, h4, h5, fun h => ?_, h7, h8, h9, h10, h11⟩
  rcases h6 with h6 | h6
  · rw [h] at h6; cases h6
  · exact h6

/-- The first and the last line of the job's page. -/
theorem witness_StoreChangesItsLineAlone :
    MemoriesWf homeA ∧ appliesAt 0 { reqA with op := 0x02, addr := 0 } 0 homeA ∧
    appliesAt 31 { reqA with op := 0x02, addr := 3968 } 3968 homeA ∧ appliesAt 0 { reqA with op := 0x10, addr := 4088 } 4088 homeA ∧
    appliesAt 0 { reqA with op := 0x01, addr := 128 } 128 homeA :=
  ⟨⟨List.Pairwise.nil, fun _ h => (List.not_mem_nil h).elim, rfl, rfl, rfl, rfl⟩, appliesAt_of (by decide +kernel), appliesAt_of (by decide +kernel), appliesAt_of (by decide +kernel),
    appliesAt_of (by decide +kernel)⟩

theorem witness_DuplicatesAreNotAppliedAgain :
    (let x := homeStream homeA 1 0
     reqA.hdr.dest = selfNode homeA ∧ ({ reqA with incarnation := 0 } : Request).incarnation < x.incarnation ∧
     reqA.incarnation = x.incarnation ∧
     ({ reqA with seq := 0xFFFFFFFF } : Request).seq ≠ (x.next + ((waitingOf homeA reqA).map (·.2.2.seq)).eraseDups.length) % 2 ^ 32) := by decide +kernel

theorem witness_HostPortFrames : ∃ t, exec .hostLinkDown base = .next t := ⟨_, rfl⟩

theorem witness_OwnerPortFrames : ∃ t, exec .getpid base = .next t := ⟨_, rfl⟩

theorem witness_PowerFrames : ∃ t, exec .idleEntry base = .next t := ⟨_, rfl⟩

theorem witness_LinkFrames : ∃ t, exec (.laneLock 31 15) base = .next t := ⟨_, rfl⟩

theorem witness_FabricRequestFrames : ∃ t, exec (.store 31 reqA) base = .next t := ⟨_, rfl⟩

theorem witness_SessionFrames : ∃ t, exec (.kvSpill 47) base = .next t := ⟨_, rfl⟩

theorem witness_EngineFrames : ∃ t, exec (.bankHandoverDone 3071) base = .next t := ⟨_, rfl⟩

theorem witness_AgreementFrames : ∃ t, exec (.heartbeatTimer 9) (withJob jobA) = .next t := ⟨_, rfl⟩

theorem witness_TackFrames : ∃ t, exec (.nop hdrA) base = .next t := ⟨_, rfl⟩

/-! The image unit and contexts -/

theorem witness_OwnerImageCommandsComplete :
    opens .owner 0xB00060 base = true ∧ base.img.st = 0 ∧
    (let s := withImg fun i => { i with st := 1, source := 1 }
     opens .owner 0xB00068 s = true ∧ s.img.addrFull = false ∧ s.img.st = 1 ∧ s.img.source = 1 ∧ s.regs.stageAddr.toNat < 0xFFFFF8) ∧
    (let s := withImg fun i => { i with st := 2 }
     opens .owner 0xB00058 s = true ∧ s.img.st = 2 ∧ s.img.active.isSome = true) ∧
    (withImg fun i => { i with st := 3 }).img.st = 3 ∧
    (let s := withImg fun i => { i with st := 4, draining := true }
     s.img.st = 4 ∧ s.img.draining = true ∧ s.img.drainOver = false) ∧
    (withImg fun i => { i with storing := some imgA }).img.storing = some imgA := by decide +kernel

theorem witness_StagingTacksComplete :
    served? hdrA .stageBegin base (fun u => decide (u.img.st = 0)) = true ∧
    (let s := withImg fun i => { i with st := 1, source := 2, stageQp := 1 }
     served? hdrA (.stageData (2 ^ 24 - 8) (.inline (zeros 8))) s
       (fun u => decide (u.img.st = 1) && decide (u.img.source = 2) && decide (u.img.stageQp = hdrA.qp)) = true ∧
     served? hdrA (.stageEnd 8) s (fun u => decide (u.img.st = 1) && decide (u.img.source = 2) && decide (u.img.stageQp = hdrA.qp)) = true) ∧
    (let r : DataRef := { addr := 0, len := 64, rkey := 1 }
     served? hdrA (.weightsStage 0 r) base (fun _ => !refRefused r) = true) := by decide +kernel

/-- The small module with context 0 in a state. -/
def withCtx (n : Nat) : State := { base with stp := { base.stp with ctxs := [(0, { state := n })], loads := [0] } }

theorem witness_ContextCommandsComplete :
    (let r : DataRef := { addr := 0, len := 64, rkey := 1 }
     servedB? hdrA (.adapterLoad r) base (fun _ _ => !refRefused r) = true) ∧
    served? hdrA (.adapterDrop 0 5) base (fun _ => true) = true ∧
    opens .owner 0x100048 (withCtx 1) = true ∧ (ctxOf (withCtx 1) 0).state = 1 ∧
    opens .owner 0x100048 (withCtx 3) = true ∧ (ctxOf (withCtx 3) 0).state = 3 ∧
    opens .owner 0x100048 (withCtx 2) = true ∧ (ctxOf (withCtx 2) 0).state = 2 ∧ (withCtx 2).stp.loads = [0] ∧
    (ctxOf (withCtx 5) 0).state = 5 ∧ (ctxOf (withCtx 6) 0).state = 6 := by decide +kernel

theorem witness_ClearAndTestCommandsComplete :
    ([0x100000, 0x200018, 0x300038, 0x400070, 0x500050, 0x600000, 0x700008, 0x700058, 0x800070, 0x900060, 0xA00050, 0xB010E0,
      0xC00040, 0xD00010, 0xF00008, 0xF00068] : List Nat).all (opens .owner · base) = true ∧
    bit base.regs.stpCtrl.toNat 0 = false ∧ base.stp.running = false ∧
    ({ base with ari := { base.ari with katRunning := true } } : State).ari.katRunning = true := by decide +kernel

/-! Sessions -/

/-- OPEN of context 0. -/
def openA : OpenBody := { ctx := 0, cls := 0, flags := 0, budget := 0, adapterId := 0xFFFF, seedKey := zeros 16 }

/-- A turn of one token. -/
def turnA : TurnBody :=
  { cls := 4, stopCount := 0, maxTokens := 1, inputCount := 1, deadline := 0, samp := {}, stops := [], input := .inline (zeros 4) }

/-- Dispute of session 5, decided for node 1. -/
def dispA : Dispute :=
  { handle := 5, job := 9, due := 0, done := true, winner := some (1, 0),
    answers := [{ node := 1, state := .ember, epoch := 0, count := 0, head := zeros 32, inPlace := true }] }

/-- Session 5 and its dispute, in job 9. -/
def disputed : State :=
  { withJob jobA with ses := { base.ses with table := [(3, { sesIn .suspect with job := some 9 })], disputes := [dispA] } }

theorem witness_OpensComplete :
    (match ctxCfg? base 0 with
      | some c => served? hdrA (.openSes openA) base fun u =>
          decide (ctxCfg? u 0 = some c) && decide (u.img.active = some imgA) && (c.budgetFor (attnLayers imgA 0) 0).isSome &&
          (freeIndex? u).isSome && (jobOfQp u 1).isNone
      | none => false) = true := by decide +kernel

theorem witness_TurnsComplete :
    served? hdrA (.turn turnA) (withSess (sesIn .ember)) (fun u =>
      decide (turnBodyBad turnA = false) && decide (turnA.deadline = 0) && decide (byHandle? u 5 = some (3, sesIn .ember)) &&
      (stateRefuses (sesIn .ember).e).isNone && (contextRefuses u 0).isNone && (bindFor u (sesIn .ember).e).isSome &&
      decide ((sesIn .ember).e.length + turnA.inputCount + 1 ≤ maxPositions u 0) && !queueFull u) = true := by decide +kernel

theorem witness_SessionTacksComplete :
    (let x := sesIn .ember
     served? hdrA (.park 2) (withSess x) (fun u => named? x u && !x.e.pinned && !x.e.turnAdmitted && !x.copyUp) = true ∧
     served? hdrA .pin (withSess x) (fun u => named? x u && decide (x.e.cls = 0) && decide (topClass u 1 = 0) &&
       decide (pinnedCount u < pinLimit u)) = true ∧
     served? hdrA .unpin (withSess x) (named? x) = true ∧
     served? hdrA .close (withSess x) (named? x) = true) ∧
    (let x := sesIn .banked
     served? hdrA .wake (withSess x) (named? x) = true ∧
     served? hdrA (.kindle 7) (withSess x) (fun u => named? x u && decide (sess? u 3 = some x) && decide (kindleCount u < kindleLimit u)) = true) ∧
    served? hdrA .wake (withSess (sesIn .banking)) (named? (sesIn .banking)) = true ∧
    served? hdrA .close (withSess (sesIn .live)) (named? (sesIn .live)) = true := by decide +kernel

theorem witness_MoveCompletes :
    (let x : Sess := { sesIn .ember with job := some 9 }
     let s : State := { withJob jobA with ses := (withSess x).ses }
     served? hdrA (.move 1) s (fun u => named? x u && decide (job? u 9 = some jobA) && decide (jobA.map.state = 2) &&
       decide (1 ≠ selfNode u) && jobA.map.members.any fun m => m.node = 1 && bit m.roles 0) = true) := by decide +kernel

theorem witness_SettlementsComplete :
    settles? hdrA (.confirm 1) disputed (fun u => (byHandle? u 5).isSome && decide (job? u 9 = some jobA) &&
      decide (homeNode u jobA.map 5 = selfNode u) && decide (u.ses.disputes.find? (·.handle = 5) = some dispA)) = true ∧
    settles? hdrA (.resolve 1) disputed (fun u => (byHandle? u 5).isSome && decide (job? u 9 = some jobA) &&
      decide (homeNode u jobA.map 5 = selfNode u) && decide (u.ses.disputes.find? (·.handle = 5) = some dispA)) = true := by decide +kernel

/-- A session in motion. -/
def moving (src ack q : Bool) : Sess :=
  { sesIn .moving with
    e := { entA with state := .moving, place := 2 }, job := some 9,
    mv := some { source := src, peer := 1, job := 9, epoch := 6, due := 0, ackSent := ack, queried := q } }

theorem witness_SessionTimesAndTransfersComplete :
    (let x : Sess := { sesIn .banking with bankTier := some 2 }
     sess? (withSess x) 3 = some x ∧ t2Room (withSess x) (stripeTiles (wtOf (withSess x) 0) (fmtOf (withSess x) 0) x.st) = true ∧
     (stripePlace (withSess x) (stripeTiles (wtOf (withSess x) 0) (fmtOf (withSess x) 0) x.st)).isSome = true) ∧
    (let x : Sess := { sesIn .waking with wake := some { group := 6, key := 0, arrival := 0 } }
     wakesRun (withSess x) < 64 ∧ (nextWake? (withSess x)).isSome = true) ∧
    (let x : Sess := { sesIn .waking with wake := some { group := 6, key := 0, arrival := 0, running := true } }
     sess? (withSess x) 3 = some x ∧ allocWaits (withSess x) 3 = false) ∧
    (let x : Sess := { sesIn .ember with copyUp := true }
     sess? (withSess x) 3 = some x) ∧
    (let x : Sess := { sesIn .banked with e := { entA with state := .banked, kindled := true } }
     sess? (withSess x) 3 = some x ∧ x.e.kindled = true) ∧
    (let x : Sess := { sesIn .ember with e := { entA with kindled := true } }
     sess? (withSess x) 3 = some x ∧ x.e.kindled = true) ∧
    ({ base with ses := { base.ses with pressing := true } } : State).ses.pressing = true ∧
    (let x := sesIn .ash
     sess? (withSess x) 3 = some x ∧ x.reclaimed = false ∧ captureReads (withSess x) 5 = false) ∧
    (let x : Sess := { sesIn .ash with e := { entA with state := .ash, moved := true }, reclaimed := true }
     sess? (withSess x) 3 = some x ∧ x.e.moved = true) ∧
    (let s := withSess (sesIn .ember)
     opens .owner 0x28 s = true ∧ 3 < tableMax s ∧ (sess? s 3).isSome = true) := by decide +kernel

theorem witness_MovesAndDisputesComplete :
    (let s := withJob jobA
     imageOn s = true ∧ job? s 9 = some jobA ∧ (freeIndex? s).isSome = true ∧ jobA.map.state = 2 ∧
     (match ownMember s jobA.map with | some m => bit m.roles 0 | none => false) = true ∧ (ctxCfg? s 0).isSome = true ∧
     (byHandle? s 5).isNone = true ∧ homeNode s jobA.map 5 = selfNode s ∧ (jobA.map.members.any (·.node = 1)) = true) ∧
    (let x := moving false false false
     let s := withSess x
     byHandle? s 5 = some (3, x) ∧ x.e.state = .moving ∧ x.e.place = 2 ∧
     t2Room s (stripeTiles (wtOf s 0) (fmtOf s 0) {}) = true ∧
     (stripePlace s (stripeTiles (wtOf s 0) (fmtOf s 0) {})).isSome = true ∧ (inMove s 5 false).isSome = true) ∧
    (inMove (withSess (moving true false false)) 5 true).isSome = true ∧
    (inMove (withSess (moving false true false)) 5 false).isSome = true ∧
    (inMove (withSess (moving true false true)) 5 true).isSome = true ∧
    (let s := withSess (sesIn .ember)
     (byHandle? s 5).isSome = true ∧ (claimOf s 5).isSome = true) ∧
    (let d : Dispute := { dispA with done := false }
     let s : State := { base with ses := { base.ses with disputes := [d] } }
     (s.ses.disputes.find? fun d => d.handle = 5 && !d.done) = some d ∧ (d.answers.any ranks) = true ∧
     (disputeWinner d.answers).isSome = true) ∧
    (let d : Dispute := { dispA with done := false, answers := [] }
     let s : State := { base with ses := { base.ses with disputes := [d] } }
     (s.ses.disputes.find? fun d => d.handle = 5 && !d.done) = some d ∧ (d.answers.any ranks) = false) ∧
    (let s := withSess (sesIn .suspect)
     byHandle? s 5 = some (3, sesIn .suspect) ∧ selfNode s = 0) := by decide +kernel

/-! Memory and objects -/

/-- Object 2 in T1. -/
def objA : Obj := { id := 2, kind := 0, tier := 1, region := 0, size := 4096 }

/-- The small module with an object. -/
def withObj (o : Obj) : State := { base with mem := { base.mem with objs := [o] } }

/-- The small module with a model of one attention layer on tile 0, and a session in a lane with one page row outside its windows. -/
def spilling (r : Row) : State :=
  let img : Image := { imgA with primary := [{ ctx := 0, part := 0, layer := 0, firstExpert := 0, experts := 0, mask := 1, kib := 0 }] }
  let x : Sess := { e := { entA with state := .live, place := 0, length := 4096 }, st := { rows := [r] } }
  { withSess x with
    img := { base.img with active := some img },
    stp := { base.stp with
      ctxs := [(0, { state := 3, weights := zeros 12 ++ [1] ++ zeros 13 ++ [1, 0, 64] ++ zeros 227 })], atn := 64 } }

/-- The page row of that session. -/
def rowA : Row := { v := 10, written := 128, pages := [{}] }

theorem witness_SpillAndStorageCommandsComplete :
    arbExists (.cell 47 73) = true ∧ winner base (.cell 47 73) [3] = some 3 ∧
    (let q : AllocReq := { idx := 3, tiles := [0], since := 0 }
     let s : State := { base with mem := { base.mem with queue := [q] } }
     s.mem.queue = [q] ∧ tilesFit s q.idx q.tiles = true ∧ s.mem.queue.find? (fun q => !q.warned) = some q) ∧
    (let s : State := { base with stp := { base.stp with atn := 64 } }
     kvFree s 47 < spillLow s) ∧
    (let x : Sess := { sesIn .ember with spillT1 := true }
     sess? (withSess x) 3 = some x ∧ allocWaits (withSess x) 3 = false) ∧
    (let s := spilling rowA
     kvFree s 0 < spillLow s ∧ sessionVictim s 0 = none ∧ (spillRows s 0).isEmpty = false) ∧
    (let s := { spilling rowA with regs := base.regs, mem := { base.mem with spilling := [0] } }
     0 ∈ s.mem.spilling ∧ kvFree s 0 < spillHigh s) ∧
    (let s := spilling { rowA with pages := [{ dma := true }] }
     (match sess? s 3 with
       | some x => decide (sumN (x.st.rows.map fun r => r.pages.countP fun p => decide (r.v = 10) && p.dma && pageOnTile 0 p) ≠ 0)
       | none => false) = true ∧ allocWaits s 3 = false) ∧
    powered base = true ∧
    (let addr := 0x17FFFFFFFFF
     let recent := (base.err.t1Ues.filter fun x => decide (now base < x.2 + 1000000000)) ++ [(packageOf base addr, now base)]
     addr < 0x18000000000 ∧
     (recent.filter fun x => decide (x.1 = packageOf base addr)).length <
       max 1 (wfield ({ base with regs := { base.regs with errCfg := 0x1000 } } : State).regs.errCfg 10 8)) ∧
    31 < 32 ∧ 0 < chanBlocks := by decide +kernel

/-- T2 has room for an object where nothing stands on its channels and each keeps its share free. -/
theorem objRoom_of_empty (s : State) (o : Obj)
    (h : ((List.range 32).all fun ch => (runsOn s ch).isEmpty && decide (objBlocks o ch ≤ chanBlocks)) = true)
    (hr : ((List.range 32).all fun ch => objBlocks o ch = 0 || shareRoom s o ch (objBlocks o ch)) = true) : objRoom s o 2 = true := by
  have run : ∀ ch < 32, (t2Run s ch (objBlocks o ch)).isSome = true := by
    intro ch hc
    have hx := List.all_eq_true.1 h ch (List.mem_range.2 hc)
    simp only [Bool.and_eq_true, List.isEmpty_iff, decide_eq_true_eq] at hx
    rw [t2Run, List.find?_isSome]
    exact ⟨0, by simp, by simp [hx.1, hx.2]⟩
  have whole : ∀ l : List Nat, (∀ ch ∈ l, ch < 32) →
      (l.mapM fun ch => (t2Run s ch (objBlocks o ch)).map fun b => (ch, b)).isSome = true := by
    intro l
    induction l with
    | nil => intro _; rfl
    | cons a l ih =>
      intro hl
      obtain ⟨b, hb⟩ := Option.isSome_iff_exists.1 (run a (hl a (by simp)))
      obtain ⟨r, hr⟩ := Option.isSome_iff_exists.1 (ih fun x hx => hl x (by simp [hx]))
      simp [List.mapM_cons, hb, hr]
  show ((objPlace s o).isSome && _) = true
  rw [hr, Bool.and_true, objPlace]
  exact whole _ fun ch hc => List.mem_range.1 (List.mem_filter.1 hc).1

theorem witness_PlacementAndHandoverCommandsComplete :
    (let o : Obj := { id := nextObjId base, kind := 4, tier := 2, region := 0xF, size := 65536 }
     opens .owner 0x400060 base = true ∧ objRoom base o 2 = true) ∧
    (let s := withObj objA
     opens .owner 0x400060 s = true ∧ obj? s 2 = some objA ∧ objA.busy = none ∧ objA.pinned = false ∧ 2 ≠ objA.tier ∧
     sourceIn s objA [2, 3] = false ∧ adapterObj s objA = false ∧ objRoom s objA 2 = true) ∧
    (let o : Obj := { objA with busy := some (.owner, 1, 2) }
     obj? (withObj o) 2 = some o) ∧
    (let val : Word := BitVec.ofNat 64 (0x7F * 2 ^ 12 + 5 * 2 ^ 19 + 2 * 2 ^ 26)
     opens .owner 0x400028 base = true ∧
     handoverRefuse base (wfield val 0 12) (wfield val 12 7) (wfield val 19 7) (wfield val 26 3) = none) ∧
    (let s : State := { base with mem := { base.mem with banks := [(3071, { pending := some (.owner, 5, 2, 0) })] } }
     (bankOf s 3071).pending = some (.owner, 5, 2, 0) ∧ (pagesIn s 3071).any (allocWaits s) = false) := by
  refine ⟨⟨?_, objRoom_of_empty _ _ ?_ ?_⟩, ⟨?_, ?_, ?_, ?_, ?_, ?_, ?_, objRoom_of_empty _ _ ?_ ?_⟩, ?_, ?_, ?_⟩ <;> decide +kernel

/-! Vector search -/

/-- A descriptor of a graph index: id 5, dimension 32 in BF16, sketches of 256 bits, degree 8, 10 slots. -/
def descA : Bytes :=
  [0x48, 1, 0, 8, 32, 0, 0, 1, 5, 0, 0, 0, 1, 0, 0, 0, 0, 8, 16, 0] ++ zeros 28 ++ [10] ++ zeros 207

/-- The index that it describes. -/
def idxA : VIndex :=
  { id := 5, tenant := 7, graph := true, metric := 0, format := 8, dim := 32, bits := 256, mask := 1, skKind := 0, degree := 8,
    cprobe := 16, nlist := 0, key := zeros 16, centre := [], capacity := 10, cents := [], csk := [] }

/-- The small module with that index. -/
def withIdx (x : VIndex) : State := { base with vec := { base.vec with idxs := [x] } }

/-- An insert of a zero vector. -/
def insA : VecInsertBody := { indexId := 5, cls := 0, id := 1, attr := 0, data := zeros 128 }

/-- A query command for one result. -/
def askA : Bytes := [0x48, 0, 5, 0, 1, 0, 64, 0, 16, 0] ++ zeros 182

/-- A query waiting on channel 0. -/
def queryA : VQuery := { qseq := 1, ch := 0, order := 0, hdr := hdrA, buf := { addr := 0, len := 64, rkey := 1 }, raw := askA, bulk := false }

/-- A record of the index. -/
def recA : VRec := { slot := 0, gen := 1, id := 1, attr := 0, seq := 1, list := 0, vec := [], sketch := [] }

theorem witness_VectorTacksComplete :
    served? hdrA (.vecCreate (.inline descA)) base (fun u => decide (vecOwner u hdrA (leAt descA 8 2) = none) && vecServed u &&
      !badDescriptor descA && decide (vindex? u (readDescriptor (vecTenant u hdrA) descA).id = none) &&
      decide (u.vec.idxs.length < 256) && vecRoom u none (readDescriptor (vecTenant u hdrA) descA)) = true ∧
    served? hdrA (.vecDrop 5) (withIdx idxA) (fun u => decide (vecOwner u hdrA 5 = none) && vecServed u && decide (vecIndex u hdrA 5 = some idxA)) = true ∧
    served? hdrA (.vecInsert insA) (withIdx idxA) (fun u => decide (vecIndex u hdrA 5 = some idxA) && !vecDegraded u idxA &&
      decide (4 * idxA.dim + (if idxA.skKind = 1 then idxA.skBytes else 0) ≤ insA.data.length) &&
      !idxA.badVector (f32sAt insA.data 0 idxA.dim) &&
      match idxA.nextSlot with
      | some (slot, gen) => vecRoom u (some idxA) (idxA.insert hdrA insA slot gen (now u))
      | none => false) = true ∧
    (let x : VIndex := { idxA with recs := [recA], gens := [(0, 1)] }
     served? hdrA (.vecDelete 5 0 0 1) (withIdx x) (fun u => decide (vecIndex u hdrA 5 = some x) && !vecDegraded u x &&
       (x.recs.any fun r => r.slot = 0 && r.gen = 1 && (x.delSeq r).isNone) && decide (x.dels.length < delLogMax)) = true) ∧
    served? hdrA (.vecQuery queryA.buf askA) (withIdx idxA) (fun u => decide (vecIndex u hdrA (leAt askA 2 2) = some idxA) &&
      !refRefused queryA.buf && !idxA.badAsk askA queryA.buf.len && !vecDegraded u idxA) = true := by decide +kernel

theorem witness_VectorEngineWorkCompletes :
    (let x : VIndex := { idxA with queries := [queryA] }
     engCoord (withIdx x) 0 < coordMax ∧ (nextCommand? 0 (withIdx x)).isSome = true) ∧
    (let w : VWork := { idx := 5, owner := .query 1, bulk := false, ch := 0, own := false, job := .scan 0, stage := .queued }
     let s : State := { base with vec := { base.vec with work := [w] } }
     engFwd s 0 < 768 ∧ ((engWork s 0).find? fun w => decide (w.stage = .queued)) = some w) ∧
    (let q : VQuery := { queryA with active := true }
     let x : VIndex := { idxA with queries := [q] }
     let v := finishWork 5 1 (x.bound q) (withIdx x)
     vindex? (withIdx x) 5 = some x ∧ (x.queries.find? fun q => q.qseq = 1 && q.active) = some q ∧ vecDegraded (withIdx x) x = false ∧
     (match vindex? v 5 with
       | some y => match y.queries.find? fun q => q.qseq = 1 && q.active with
         | some r => queryThrough v y r
         | none => false
       | none => false) = true) ∧
    (let x : VIndex := { idxA with batches := [{ num := 0, list := 0, opened := 0, reqs := [1] }] }
     vindex? (withIdx x) 5 = some x ∧ (x.batches.find? fun b => b.list = 0 && !b.closed).isSome = true ∧ x.chanOf 0 < 32) ∧
    (let x : VIndex := { idxA with waiting := [{ seq := 1, pos := some 0, since := 3 }], recs := [recA] }
     vindex? (withIdx x) 5 = some x ∧
     ((x.waiting.filter fun u => (x.graph || u.list = 0) && u.pos.isSome && !x.programming u).map (·.since)).min? = some 3 ∧
     workWaits (withIdx x) 5 (.update 1) = false ∧ vecDegraded (withIdx x) x = false ∧
     (vindex? (endReads (fun w => decide (w.idx = 5) && decide (w.owner = .update 1)) (withIdx x)) 5).isSome = true) ∧
    opens .owner 0x500050 base = true ∧
    (let x : VIndex := { idxA with repairing := some 1 }
     let s : State := { withIdx x with regs := { base.regs with vecCfg := 2 ^ 53 } }
     vindex? s 5 = some x ∧ repairOn s = true ∧ vecDegraded s x = false ∧ workWaits s 5 .repair = false) := by decide +kernel

/-! The host port -/

/-- The private data of a REQ for queue pair 1. -/
def reqPriv : Bytes := le 0x4B434154 4 ++ [1, 0, 1, 0, 0x48] ++ zeros 7

/-- The small module with queue pair 1 in a state. -/
def withQp (q : Qp) : State := { base with hst := { base.hst with qps := [(1, q)] } }

theorem witness_QueuePairCommandsComplete :
    (let s : State := { base with hst := { base.hst with linkUp := false } }
     s.hst.linkUp = false ∧ s.pwr.osfpHeld = false) ∧
    base.hst.linkUp = true ∧
    (let s := withQp {}
     s.hst.txOn = true ∧ 12 ≤ reqPriv.length ∧ leAt reqPriv 0 4 = 0x4B434154 ∧ leAt reqPriv 6 1 = 1 ∧ leAt reqPriv 4 2 = 1 ∧
     (qpCfg? s 1).isSome = true ∧ (((List.range (min (leAt reqPriv 6 1) 4)).map fun i => leAt reqPriv (8 + i) 1).any versionOk) = true ∧
     (qpOf s 1).st = 0) ∧
    (qpOf (withQp { st := 1 }) 1).st = 1 ∧ (qpOf (withQp { st := 3 }) 1).st = 3 ∧ (qpOf base 1).st = 2 ∧
    (let s := withQp { st := 2, rate := 1000000000, unacked := [.i3c []] }
     (qpOf s 1).st = 2 ∧ (qpOf s 1).rate < lineRate ∧ (qpOf s 1).unacked.isEmpty = false ∧ (qpOf s 1).retries < wfield s.regs.hstCfg 11 3) := by
  decide +kernel

theorem witness_HostTrafficCompletes :
    ((qpOf base 1).st = 2 ∧ (zeros 65536).length ≤ 65536 ∧ base.hst.poolUsed < 1024) ∧
    served? hdrA .nop base (fun _ => true) = true ∧
    (let b : RingBody := { kind := 1, log2Slots := 6, rkey := 1, addr := 32, consumerAddr := 8 }
     served? hdrA (.ringSetup b) base (fun u => decide ((tenant? u (tenantOf u hdrA.qp)).map (·.eventQp) = some hdrA.qp)) = true) ∧
    served? hdrA (.ringSetup { kind := 0, log2Slots := 20, rkey := 1, addr := 64, consumerAddr := 8 }) base (fun _ => true) = true ∧
    (match regRow? 0 with
      | some r => servedB? hdrA (.regRead 0) base fun d _ => rightsRead d.rights r
      | none => false) = true ∧
    (match regRow? 0x100038 with
      | some r => servedB? hdrA (.regWrite 0x100038 5) base fun d _ => rightsWrite d.rights r
      | none => false) = true ∧
    (let s := withQp { st := 2, fetches := [{ hdr := hdrA, body := .nop, ref := { addr := 0, len := 8, rkey := 1 } }] }
     (((qpOf s 1).fetches.find? fun f => f.left < readsOf f.ref && f.hdr.tag = 0).map (·.ref.len)) = some (zeros 8).length) ∧
    (let r : Ring := { ringA with reading := true }
     let s := withQp { st := 2, result := some r }
     (qpOf s 1).result = some r ∧ r.reading = true ∧ (r.rkey, r.consumerAddr) ∉ (qpOf s 1).readsDue) ∧
    (eventRing? (withQp { st := 2, event := some ringA }) 7).isSome = true ∧
    (let f : EFrame := { len := 64, at_ := 0 }
     let s : State := { base with shp := { base.shp with ports := [(0, { ctl := [f] }), (32, { running := true, gates := some { base := 0, cycle := 1000, entries := [(500, 1), (500, 2)] } })] } }
     s.hst.linkUp = true ∧ s.hst.txOn = true ∧ (takeFrame 0 (fun _ => true) (unpaused s) s).1 = some f ∧ (gateDue? 32 s).isSome = true) ∧
    bit ({ base with regs := { base.regs with shpCfg := 1 } } : State).regs.shpCfg.toNat 0 = true := by decide +kernel

/-- The small module with a clock. -/
def withClk (c : Clock) : State := { base with clk := c }

theorem witness_ClockAndOwnerCommandsComplete :
    ptpMine base {} = true ∧ wfield base.regs.hstCfg 40 2 ≠ 3 ∧ followed (withClk {}).clk 1 = true ∧ followed (withClk { masters := [(1, 5), (2, 7)] }).clk 1 = true ∧
    (let s := withClk { pendSync := some (3, 100), state := 1, everLocked := true }
     s.clk.pendSync = some (3, 100) ∧ s.clk.state ≠ 0 ∧ s.clk.everLocked = true) ∧
    (let s := withClk { pendDelay := some (3, 100), lastT1T2 := some (5, 6) }
     s.clk.pendDelay = some (3, 100) ∧ s.clk.lastT1T2 = some (5, 6) ∧ s.clk.state = 0) ∧
    (withClk { state := 2 }).clk.state = 2 ∧ opens .owner 0x600000 base = true ∧ base.img.active.isSome = true ∧
    (opens .owner 0x100008 base = true ∧ (regRow? 0x100008).isSome = true ∧ (writeAction .owner 0x100008 5 base).isNone = true ∧
      (writeSelector .owner 0x100008 5 base).isNone = true ∧ rwsSlot? 0x100008 = none ∧ (rwSlot? 0x100008).isSome = true) ∧
    (let s : State := { base with i3c := { base.i3c with addr := some 8, sel := 0 } }
     addressed s = true ∧ (regRow? s.i3c.sel).isSome = true ∧ s.i3c.sel ≠ 0xB010B8) := by decide +kernel

/-! The fabric -/

/-- The small module with link 31 in a state. -/
def withLink (k : Link) : State := { base with wlt := { base.wlt with links := [(31, k)] } }

/-- A TRAIN of node 1 that fits the topology, link 31 leading in direction 1 of a line of two nodes. -/
def trainA (crypt : Nat) : TrainMsg :=
  { node := 1, coords := [1, 0, 0, 0], link := 0, direction := 2, flags := crypt, kind := 0, seedCheck := seedCheck base, dims := [2, 1, 1, 1] }

/-- The small module with link 31 named by the topology, in the clear or encrypted. -/
def wired (n : Nat) (k : Link) : State :=
  { withLink k with
    img := { base.img with active := some { imgA with topo := { dims := [2, 1, 1, 1], links := List.replicate 31 0 ++ [n] } } },
    sec := { base.sec with identity := true }, rom := { base.rom with secret := some (keyWrap kWrap (zeros 32)) } }

/-- A stored secret unwraps, so links have a base key. -/
theorem linkBase_of_secret (s : State) (hi : s.sec.identity = true) (hr : s.rom.secret = some (keyWrap kWrap (zeros 32))) :
    (linkBase? s).isSome = true := by
  rw [linkBase?, Option.isSome_map, dsk?, hi, hr, if_pos rfl, Option.bind_some, keyUnwrap_keyWrap _ _ (by rw [zeros, List.length_replicate]),
    Option.isSome_some]

theorem witness_LinkCommandsComplete :
    opens .owner 0x800000 base = true ∧ (linkOf (withLink { st := 1 }) 31).st = 1 ∧
    bit ({ base with regs := { base.regs with wltCfg := 2 ^ 44 } } : State).regs.wltCfg.toNat 44 = true ∧
    (linkOf (withLink { st := 2 }) 31).st = 2 ∧ (linkOf (withLink { st := 3 }) 31).st = 3 ∧
    (let s := wired 1 { st := 3 }
     trainFails s 31 (trainA 0) = none ∧ linkCrypt s 31 = false) ∧
    (let s := wired 17 { st := 3 }
     trainFails s 31 (trainA 1) = none ∧ linkCrypt s 31 = true ∧ (linkBase? s).isSome = true) ∧
    (let k : Link := { st := 4, newKey := some ([], zeros 32), myNonce := some (zeros 32), peerNode := 1 }
     let m : KeyMsg := { step := 2, keySeq := 1, nonce := zeros 32, tag := confirmTag (zeros 32) (directionBit 1 0) 1 }
     (linkOf (withLink k) 31).st = 4 ∧ m.keySeq = (linkOf (withLink k) 31).keySeq + 1 ∧ m.step = 2 ∧
     (linkOf (withLink k) 31).newKey = some ([], zeros 32) ∧
     m.tag = confirmTag (zeros 32) (directionBit (linkOf (withLink k) 31).peerNode (selfNode (withLink k))) m.keySeq ∧
     (linkOf (withLink k) 31).myNonce.isSome = true ∧ (linkOf (withLink k) 31).confirmGot = false) ∧
    (let k : Link := { st := 5, encrypted := true, txSeq := 2 ^ 40 }
     (linkOf (withLink k) 31).st = 5 ∧ (linkOf (withLink k) 31).encrypted = true ∧ 2 ^ 39 ≤ sinceKey (linkOf (withLink k) 31) ∧
     2 ^ 40 ≤ sinceKey (linkOf (withLink k) 31)) ∧
    ((linkOf (withLink { st := 6 }) 31).st = 6 ∧ linkMay (withLink { st := 6 }) 31 = true) ∧
    (let s : State := { withLink { st := 5 } with accs := [(.owner, { linkSel := 31 })] }
     opens .owner 0x800070 s = true ∧ (linkOf s (accRegs s .owner).linkSel).st = 5) := by
  refine ⟨?_, ?_, ?_, ?_, ?_, ?_, ⟨?_, ?_, ?_⟩, ?_, ?_, ?_, ?_⟩
  case refine_9 => exact linkBase_of_secret _ rfl rfl
  all_goals decide +kernel

/-- A flit with its check. -/
def flitA (kind : Nat) : Bytes :=
  let b := [BitVec.ofNat 8 kind] ++ zeros 503
  b ++ le (crc64 b).toNat 8

/-- An outstanding request. -/
def outA : Outst := { req := reqA, first := 0, last := 0 }

theorem witness_FabricRequestsComplete :
    imageOn base = true ∧
    (([0x10, 0x11, 0x12, 0x13, 0x14, 0x15] : List Nat).all fun op => applies? 31 { reqA with op := op, addr := 4088 } 4088 homeA) = true ∧
    (let s : State := { homeA with wlt := { homeA.wlt with buffer := [(7, 0, reqA)] } }
     (lineAccept 7 s).1 = some reqA) ∧
    (let s : State := { base with wlt := { base.wlt with outst := [outA], once := [{ node := 1, stream := 2, seq := 3, val := 0, at_ := 0 }] } }
     (s.wlt.outst.find? fun o => o.req.tag = 0 && o.req.seq = 0 && o.req.stream = 0) = some outA ∧
     s.wlt.outst.find? (·.req.tag = 0) = some outA ∧
     now (advance (outA.last + respTimeout s) s) < outA.first + 10000000 ∧
     (s.wlt.once.find? fun x => x.node = 1 && x.stream = 2 && x.seq = 3).isSome = true) ∧
    ((linkOf (withLink { st := 5 }) 31).st = 5 ∧ leAt (flitA 0) 2 6 = (linkOf (withLink { st := 5 }) 31).rxNext ∧
     leAt (flitA 0) 0 1 = 0 ∧ leAt (flitA 1) 0 1 = 1 ∧ (flitA 0).length = 512) ∧
    (linkOf (withLink { st := 5, replayBuf := [{ seq := 0, at_ := 0, raw := [], frames := [] }] }) 31).replayBuf =
      [{ seq := 0, at_ := 0, raw := [], frames := [] }] ∧
    (isControl (.req { reqA with hdr := { dest := 1 } }) = false ∧ (frameHdr (.req { reqA with hdr := { dest := 1 } })).dest ≠ selfNode base) ∧
    (1 ≠ selfNode base ∧ find? 1 base.wlt.states = none) := by decide +kernel

/-- The check of a flit that was built with it. -/
theorem witness_FlitsCarryTheirCheck (k : Nat) : leAt (flitA k) 504 8 = (crc64 ((flitA k).take 504)).toNat := by
  have key : ∀ b : Bytes, b.length = 504 →
      leAt (b ++ le (crc64 b).toNat 8) 504 8 = (crc64 ((b ++ le (crc64 b).toNat 8).take 504)).toNat := by
    intro b hl
    have hd : (b ++ le (crc64 b).toNat 8).drop 504 = le (crc64 b).toNat 8 := by rw [← hl, List.drop_left]
    have ht : (b ++ le (crc64 b).toNat 8).take 504 = b := by rw [← hl, List.take_left]
    rw [ht, leAt, slice, hd, List.take_of_length_le (Nat.le_of_eq (length_le _ _)), leNat_le]
    exact Nat.mod_eq_of_lt (crc64 b).isLt
  exact key _ (by rw [List.length_append, zeros, List.length_replicate]; rfl)

/-! Composition -/

/-- A lace header of node 1 for job 9. -/
def laceA : LaceHdr := { job := 9, term := 2, epoch := 4, sender := 1, part := 0, parts := 1, mapId := zeros 8 }

/-- A map of job 9, one epoch on, as its bytes. -/
def nextMap : LaceMap := { mapA with epoch := 5, seedCheck := slotSeedCheck base }

/-- The one part of a proposal of that map. -/
def propA : LaceHdr := { laceA with mapId := mapIdOf nextMap }

theorem witness_LaceAgreementCommandsComplete :
    (let s := withJob jobA
     imageOn s = true ∧
     job? s 9 = some jobA ∧ jobA.map.cobbler = selfNode s ∧ jobA.live = true ∧ jobA.term ≤ laceA.term ∧
     (voters jobA.map).contains (selfNode s) = true ∧ laceA.epoch ≤ jobA.map.epoch ∧ laceA.term = jobA.term ∧ leads s jobA = false ∧
     jobA.candidate = false ∧ jobA.map.state ≠ 0) ∧
    (let p : Proposal := { map := mapA, due := 0 }
     let j : Job := { jobA with proposal := some p }
     job? (withJob j) 9 = some j ∧ (nodesOf p.map ++ nodesOf j.map).contains laceA.sender = true ∧ laceA.term = p.map.term ∧
     p.accepted.contains laceA.sender = false ∧ laceA.term ≤ j.term ∧ (p.refused.any (·.1 = laceA.sender)) = false) ∧
    (let m : LaceMap := { mapA with epoch := 5 }
     let j : Job := { jobA with accepted := some (laceA.mapId, m) }
     job? (withJob j) 9 = some j ∧ j.accepted = some (laceA.mapId, m) ∧ m.epoch = ({ laceA with epoch := 5 } : LaceHdr).epoch ∧ j.map.epoch < m.epoch) ∧
    (job? (withJob { jobA with hasLease := true }) 9).isSome = true ∧
    (let j : Job := { jobA with candidate := true }
     job? (withJob j) 9 = some j ∧ laceA.term = j.term ∧ j.votes.contains laceA.sender = false) ∧
    (let m : LaceMap := { mapA with cobbler := 1 }
     let s : State := { withJob { jobA with map := m } with accs := [(.owner, { jobSel := 9 })] }
     opens .owner 0x900060 s = true ∧ (job? s (accRegs s .owner).jobSel).isSome = true ∧ m.cobbler ≠ selfNode s) ∧
    (let j : Job := { jobA with map := { mapA with state := 1 }, hasLease := true, leaseEnd := 1 }
     let s := withJob j
     job? s 9 = some j ∧ j.map.state = 1 ∧ leads s j = true ∧ j.proposal = none) ∧
    (let j : Job := { jobA with drainOn := true }
     job? (withJob j) 9 = some j ∧ j.removed = false) := by decide +kernel

theorem witness_ProposalsComplete :
    (let part := mapBytes nextMap
     match collectPart 1 propA part (withJob jobA) with
     | (some b, v) => match mapOf propA b with
       | some m => (refuseReason v m propA.term).isNone
       | none => false
     | _ => false) = true := by decide +kernel

theorem witness_SyncsComplete :
    (let part := mapBytes nextMap
     match collectPart 10 propA part (withJob jobA) with
     | (some b, v) => match mapOf propA b, job? v 9 with
       | some m, some j => decide (j.map.epoch < m.epoch) && decide (m.state ≠ 3)
       | _, _ => false
     | _ => false) = true := by decide +kernel

/-- A COMPOSE request that removes nothing of job 9. -/
def composeA : Bytes := [0x48, 2, 9, 0] ++ zeros 28

theorem witness_LaceServiceCommandsComplete :
    (let s := withJob jobA
     imageOn s = true ∧ job? s 9 = some jobA ∧ jobA.live = true ∧ jobA.term ≤ laceA.term ∧ jobA.map.epoch < ({ laceA with epoch := 5 } : LaceHdr).epoch ∧
     (readMapHeader ([0x48, 3, 9, 0] ++ zeros 44)).state = 3 ∧ laceA.epoch = jobA.map.epoch ∧ ([] : List LocRec).length < 127 ∧
     (jobA.map.members.any (·.node = 1)) = true) ∧
    (let j : Job := { jobA with heard := [(1, 0)] }
     let s := withJob j
     job? s 9 = some j ∧ j.map.cobbler = selfNode s ∧ 1 ≠ selfNode s ∧ (nodesOf j.map).contains 1 = true ∧ find? 1 j.heard = some 0) ∧
    (match collectPart 14 laceA composeA (withJob jobA) with
      | (some b, v) => match readCompose b, job? v 9 with
        | some r, some j => decide (r.job = 9) && decide (r.op ≠ 1) && decide (j.map.cobbler = selfNode v)
        | _, _ => false
      | _ => false) = true ∧
    (let s : State := { withJob jobA with ses := (withSess (sesIn .ember)).ses }
     sessionOp (opcodeOf .pin) = true ∧ routeIn s (some 9) 0 5 true = .here ∧ 0x20 ≤ opcodeOf (.vecDrop 5) ∧ opcodeOf (.vecDrop 5) ≤ 0x24) ∧
    (1 ≠ selfNode base ∧ ({ kind := 2, status := 0, opcode := 0 } : ResultRec).kind ≠ 1 ∧
     ({ kind := 1, status := 0, opcode := 1 } : ResultRec).kind = 1 ∧ orderedOp 1 = true) ∧
    (let s : State := { base with hst := { base.hst with catchUp := [(9, hdrA, .pin, 0, 0)] } }
     (s.hst.catchUp.find? fun x => x.2.1.qp = 1 && x.2.1.tag = 0).isSome = true) ∧
    opens .owner 0x900038 base = true ∧ poolUsedBytes base + 2 ^ 21 ≤ poolSize ∧ opens .owner 0x900040 base = true ∧ opens (.host 1) 0x900040 base = true ∧
    bit (1 : Word).toNat 0 = true ∧ (accRegs base .owner).reqCode ≠ 9 ∧ wfield (1 : Word) 4 19 ≤ 262144 ∧
    (let s : State := { base with accs := [(.host 1, { reqKey := 64 * 2 ^ 32 + 1 })] }
     (accRegs s (.host 1)).reqCode ≠ 9 ∧ opens (.host 1) 0x900040 s = true ∧
     refRefused { addr := (accRegs s (.host 1)).reqAddr, len := field (accRegs s (.host 1)).reqKey 32 22, rkey := 1 } = false) := by decide +kernel

/-! Checkpoint -/

/-- The checkpoint unit of the small module in a state, with its store regions registered and the deployment secret set. -/
def withCkp (f : Ckp → Ckp) : State :=
  let r : DataRef := { addr := 0, len := 2 ^ 30, rkey := 1 }
  { withJob jobA with
    ckp := f { base.ckp with job := 9, regions := [{ job := 9, kind := 0, node := 0, qp := 1, ref := r }, { job := 9, kind := 1, node := 0, qp := 1, ref := r }] },
    rom := { base.rom with secret := some (zeros 32) } }

/-- A replay of one token. -/
def replayA : ReplayBody :=
  { cls := 4, flags := 0, adapterVersion := 0, expectLength := 0, count := 1, firstSample := 0, expectLast := 0, samp := {},
    expectTurnSeq := 0, input := .inline (zeros 4) }

/-- An owner key of slot 0, and a manifest body that names it. -/
def keyed (s : State) : State := { s with sec := { s.sec with identity := true }, rom := { s.rom with keys := [(0, zeros 48)] } }

theorem witness_CheckpointTakingCommandsComplete :
    (let r : DataRef := { addr := 0, len := 4096, rkey := 1 }
     let s := withCkp fun c => c
     served? hdrA (.ckpStore 9 1 1 0 r) s (fun u => u.rom.secret.isSome) = true ∧ refRefused r = false ∧ bit 1 0 = true ∧ bit 0 0 = false ∧
     served? hdrA (.ckpStore 9 0 0 0 r) s (fun u => u.rom.secret.isSome) = true ∧
     served? hdrA (.ckpBegin 9 1 0xFFFF 1 7 0) s (fun u => decide (u.ckp.st = 0) && u.rom.secret.isSome && (job? u 9).isSome &&
       (regionOf u 9 0 (selfNode u)).isSome && (regionOf u 9 1 0).isSome) = true ∧
     served? hdrA (.ckpBegin 9 4096 1 0 7 0) s (fun u => decide (u.ckp.st = 0) && u.rom.secret.isSome &&
       (match job? u 9 with | some j => j.map.pools.any fun p => p.id = 1 && p.kind = 0 && !p.park | none => false)) = true) ∧
    (let b : BlobJob := { h := 5, v := 0, g := 0, ctx := 0, data := [], share := true }
     let m : LaceMap := { mapA with pools := [{ id := 1, kind := 0, park := false, units := 2048, members := [(0, 0, 0, 0)] }] }
     let s : State := { withCkp (fun c => { c with todo := [b], loading := 3, pool := 1 }) with map := (withJob { jobA with map := m }).map }
     s.ckp.todo = [b] ∧ s.ckp.loading = 3 ∧ s.ckp.waiting = false ∧ (claimLog2? (advance (s.ckp.polled + 10000) s)).isSome = true) ∧
    ((withCkp fun c => { c with st := 2, phase := 8 }).ckp.st = 2 ∧ (withCkp fun c => { c with st := 2, phase := 8 }).ckp.phase = 8) ∧
    (let s := withCkp fun c => { c with st := 3, phase := 9, pool := 1 }
     s.ckp.st = 3 ∧ s.ckp.phase = 9 ∧ (ckpPool? s).isSome = true) ∧
    (let s := withCkp fun c => { c with st := 3, phase := 9 }
     (ckpPool? s).isSome = false ∧ s.ckp.members ≤ 1) ∧
    (let s := withCkp fun c => { c with st := 4, step := 7 }
     s.ckp.st = 4 ∧ opens .owner 0xA00050 s = true ∧
     served? hdrA (.ckpAbort 9 7) s (fun u => decide (u.ckp.st = 4) && decide (u.ckp.job = 9) && decide (u.ckp.step = 7)) = true) := by
  decide +kernel

theorem witness_CommitsComplete :
    (let s := keyed (withCkp fun c => { c with st := 4, step := 7, body := zeros 80 ++ (sha256 (zeros 48)).take 8 })
     served? hdrA (.ckpCommit 9 7 (zeros 16224)) s (fun u => decide (u.ckp.st = 4) && decide (u.ckp.job = 9) && decide (u.ckp.step = 7) &&
       (regionOf u 9 1 0).isSome && (ownerKey? u (slice u.ckp.body 80 8)).isSome) = true) := by decide +kernel

theorem witness_RestoreAndCollectCommandsComplete :
    (let r : DataRef := { addr := 0, len := 4096, rkey := 1 }
     let q : RestoreReq := { hdr := some hdrA, job := 9, which := 0, flags := 0, slotLo := 0, slotHi := 65535, buf := some r }
     served? hdrA (.ckpRestore 9 1 0 0 65535 r) (withCkp fun c => c) (fun u => decide (u.ckp.st = 0) && (regionOf u 9 1 0).isSome) = true ∧
     (withCkp fun c => { c with st := 5, restore := some q }).ckp.restore = some q ∧ base.ckp.placing = none ∧ q.hdr = some hdrA) ∧
    (let s : State := { withSess (sesIn .ember) with regs := { base.regs with pwrEnable := 3 } }
     served? hdrA (.ckpReplay replayA) s (fun _ => !replayBodyBad replayA) = true ∧
     served? hdrA (.ckpReplay { replayA with input := .ref { addr := 0, len := 4, rkey := 1 } }) s
       (fun _ => !replayBodyBad { replayA with input := .ref { addr := 0, len := 4, rkey := 1 } }) = true) ∧
    served? hdrA (.ckpCollect 9) (withCkp fun c => c) (fun u => decide (u.ckp.st = 0) && (regionOf u 9 1 0).isSome) = true ∧
    (let s := withCkp fun c => { c with st := 6, collect := some hdrA, holdEnd := some 5 }
     s.ckp.st = 6 ∧ s.ckp.collect = some hdrA ∧ s.ckp.holdEnd = some 5) ∧
    opens .owner 0xA00050 base = true := by decide +kernel

/-! Security -/

/-- The small module with a security block. -/
def withSec (f : Sec → Sec) : State := { base with sec := f { base.sec with identity := true } }

theorem witness_OwnerPortCommandsComplete :
    onBus base = true ∧ base.i3c.addr = none ∧ ({ base with i3c := { base.i3c with addr := some 8 } } : State).i3c.addr.isSome = true ∧
    opens .owner 0xB01078 base = true ∧ base.sec.keyBuf.length < 16288 ∧ opens .owner 0xB01070 base = true ∧
    keyRefuses (withSec fun c => { c with keyBuf := zeros 48 }) 1 3 = none ∧
    (let s : State := { withSec (fun c => c) with img := State.reset.img }
     keyRefuses s 4 0 = none) ∧
    (withSec fun c => { c with keyBusy := some (1, 3, zeros 48) }).sec.keyBusy = some (1, 3, zeros 48) := by decide +kernel

/-- A REMOVE or SET_SECRET that only its signature can refuse. -/
theorem witness_SignedKeyCommands :
    (let s := keyed (withSec fun c => { c with keyBuf := zeros 16224 })
     let r := keyRefuses { s with rom := { s.rom with keys := [(0, zeros 48), (1, zeros 48)] } } 2 1
     r = none ∨ r = some 3) ∧
    (let s := keyed (withSec fun c => { c with keyBuf := zeros 16256 })
     let r := keyRefuses { s with img := State.reset.img } 3 0
     r = none ∨ r = some 3) := by
  constructor
  · dsimp only
    cases h : keySigned { keyed (withSec fun c => { c with keyBuf := zeros 16224 }) with
      rom := { (keyed (withSec fun c => { c with keyBuf := zeros 16224 })).rom with keys := [(0, zeros 48), (1, zeros 48)] } } 2 1
    · right; unfold keyRefuses; rw [h]; decide +kernel
    · left; unfold keyRefuses; rw [h]; decide +kernel
  · dsimp only
    cases h : keySigned { keyed (withSec fun c => { c with keyBuf := zeros 16256 }) with img := State.reset.img } 3 0
    · right; unfold keyRefuses; rw [h]; decide +kernel
    · left; unfold keyRefuses; rw [h]; decide +kernel

theorem witness_QuoteAndAuditCommandsComplete :
    (let r : DataRef := { addr := 0, len := 65536, rkey := 1 }
     let root : AudRoot := { seq := 1, rcd := zeros 8, sig := zeros 8, subs := [] }
     served? hdrA (.quote (zeros 32) r) (withSec fun c => c) (fun u => u.sec.identity && !refRefused r && decide (quoteLen ≤ r.len) &&
       decide (u.sec.quotes.length < 16)) = true ∧
     served? hdrA (.identityRead r) (withSec fun c => c) (fun u => u.sec.identity) = true ∧
     served? hdrA (.auditRootRead 1 r) (withSec fun c => { c with rootSeq := 1, roots := [root] })
       (fun u => u.sec.identity && (u.sec.roots.find? fun x => x.seq = 1 && u.sec.rootSeq < x.seq + rootKeep u).isSome && decide ((rootBytes root).length ≤ r.len)) = true) ∧
    opens .owner 0xB010A8 (withSec fun c => c) = true ∧
    (let s := withSec fun c => { c with quoteBusy := true, quotes := [{ hdr := none, nonce := zeros 32 }] }
     s.sec.quoteBusy = true ∧ s.sec.quotes = [{ hdr := none, nonce := zeros 32 }] ∧ s.sec.identity = true) ∧
    served? hdrA (.auditRingSetup { kind := 0, log2Slots := 6, rkey := 1, addr := 128, consumerAddr := 8, producerAddr := 16 }) base
      (fun u => decide ((tenant? u (tenantOf u 1)).map (·.eventQp) = some 1)) = true ∧
    (auditRing? (withQp { st := 2, audit := some ringA }) 7).isSome = true ∧ base.img.active.isSome = true := by decide +kernel

/-! Fencing -/

/-- The small module whose image can lose tile 0 or a region, with tiles fenced. -/
def withTiles (ts : List Nat) (lossy : Bool) : State :=
  let img : Image := if lossy then { imgA with tileLoss := [(0, [])], regionLoss := [(0, []), (7, [])] } else imgA
  { base with img := { base.img with active := some img }, err := { base.err with tiles := ts } }

/-- The small module with nothing active. -/
def blank : State := { base with img := State.reset.img }

theorem witness_FencingCommandsComplete :
    cellFenced base 47 73 = false ∧ cellFenced base 47 69 = false ∧ cellFenced base 0 6 = false ∧
    ({ base with stp := { base.stp with running := true } } : State).stp.running = true ∧
    base.err.tiles.contains 47 = false ∧ base.err.regions.contains 7 = false ∧
    (base.err.regions.contains 0 = false ∧ blank.img.active.isNone = true ∧ base.img.active.isSome = true) ∧
    (let s : State := { base with err := { base.err with salvage := [(47, 5, [3])] } }
     (s.err.salvage.any (·.1 = 47)) = true ∧ s.err.salvage.find? (·.1 = 47) = some (47, 5, [3])) ∧
    base.err.chipOut = false := by decide +kernel

/-- What a tile fence leaves of the placement, with tiles `ts` fenced before it (R434). -/
def fencedTiles (s : State) : State := { s with err := { s.err with tiles := addTo 0 s.err.tiles } }

theorem witness_TileFences :
    (let v := fencedTiles (withTiles [1] false)
     v.img.active.isSome = true ∧ 2 ≤ (v.err.tiles.filter (· / 6 = 0 / 6)).length) ∧
    (let v := fencedTiles (withTiles [] false)
     (v.err.tiles.filter (· / 6 = 0 / 6)).length < 2 ∧ placeable v = false) ∧
    (let v := fencedTiles (withTiles [] true)
     (v.err.tiles.filter (· / 6 = 0 / 6)).length < 2 ∧ placeable v = true) := by decide +kernel

/-- The small module armed for an injection. -/
def armed : State := { base with err := { base.err with armedTo := some 1000000000 } }

theorem witness_InjectionCommandsComplete :
    opens .owner 0xC00040 base = true ∧ opens .owner 0xC00028 armed = true ∧ armed.err.armedTo = some 1000000000 ∧ now armed ≤ 1000000000 ∧
    bankOfUnit? 0x03072F3F = some 3071 ∧ cellOf? 0x03072F3F = some (47, 69) ∧ tileOf? 0x10072F00 = some 47 ∧
    wfield armed.regs.injectAddr 0 48 < 0x18000000000 ∧ fourOf? 0x22 0x22070003 = some 31 ∧ fourOf? 0x23 0x23070003 = some 31 ∧
    regionOf? 0x24070000 = some 7 := by decide +kernel

theorem witness_StepBoundaryRuns :
    (base.err.chipOut && base.err.unsound) = false ∧ base.stp.running = false ∧ powered base = true ∧
    ({ base with stp := { base.stp with running := true } } : State).stp.running = true := by decide +kernel

/-! Power -/

/-- The small module with a power controller. -/
def withPwr (f : Power → Power) : State := { base with pwr := f base.pwr }

theorem witness_InputAndStartCommandsComplete :
    ((withPwr fun p => { p with aux := false }).pwr.aux = false) ∧
    (let s := withPwr fun p => { p with state := 0, startReq := true }
     s.pwr.aux = true ∧ s.pwr.state = 0 ∧ s.pwr.startReq = true) ∧
    base.pwr.state ≠ 0 ∧ base.pwr.aux = true ∧
    (let s := withPwr fun p => { p with bootStage := 0, rails := 4 }
     s.pwr.state = 1 ∧ s.pwr.bootStage = 0 ∧ 5 = s.pwr.rails + 1) ∧
    (let s := withPwr fun p => { p with bootStage := 0, rails := 5 }
     s.pwr.state = 1 ∧ s.pwr.bootStage = 0 ∧ s.pwr.rails = 5) ∧
    (([1, 2, 4, 5, 6, 7] : List Nat).all fun n => decide ((booting n).pwr.state = 1) && decide ((booting n).pwr.bootStage = n)) = true ∧
    ((booting 3).pwr.state = 1 ∧ (booting 3).pwr.bootStage < 8 ∧ (booting 3).pwr.bootStage ≠ 0) := by decide +kernel

theorem witness_PowerStateCommandsComplete :
    opens .owner 0xD00010 base = true ∧ base.pwr.state ≠ 0 ∧ base.pwr.goto = none ∧ mayStandby base = true ∧
    ((withPwr fun p => { p with state := 3 }).pwr.state = 3 ∧ opens .owner 0xD00010 (withPwr fun p => { p with state := 3 }) = true) ∧
    ((withPwr fun p => { p with state := 0 }).pwr.state = 0 ∧ opens .owner 0xD00010 (withPwr fun p => { p with state := 0 }) = true) ∧
    ((withPwr fun p => { p with goto := some 1 }).pwr.goto = some 1 ∧
      (let s := withPwr fun p => { p with goto := some 2, state := 3 }
       s.pwr.goto = some 2 ∧ s.pwr.state = 3)) ∧
    (let s : State := { withPwr (fun p => p) with regs := { base.regs with pwrCfg := 50 } }
     s.pwr.state = 1 ∧ wfield s.regs.pwrCfg 0 16 ≠ 0 ∧ working s = false) ∧
    (withPwr fun p => { p with state := 2 }).pwr.state = 2 ∧
    (powered base = true ∧ throttleDue true 255 0 base = true ∧
     throttleDue false 0 0 (withPwr fun p => { p with level := 1 }) = true ∧ 47 < 48) ∧
    opens .owner 0xD00040 base = true ∧ opens .owner 0xD00048 base = true ∧ base.pwr.norBusy = false ∧
    ((withPwr fun p => { p with norOp := some .erase }).pwr.norOp = some .erase ∧
     (withPwr fun p => { p with norOp := some (.program 8 [1]) }).pwr.norOp = some (.program 8 [1])) ∧
    (powered (hostDown base) = true ∧ 8 ≤ (hostDown base).pwr.bootStage) := by decide +kernel

/-! ### Well-formedness: a term for each check, which the check refuses -/

/-- Well-formed operands. -/
def refW : DataRef := { addr := 4096, len := 64, rkey := 1 }
/-- A well-formed OPEN body. -/
def openW : OpenBody := { ctx := 0, cls := 0, flags := 0, budget := 0, adapterId := 0xFFFF, seedKey := zeros 16 }
/-- A well-formed TURN body. -/
def turnW : TurnBody :=
  { cls := 0, stopCount := 0, maxTokens := 1, inputCount := 1, deadline := 0, samp := {}, stops := [], input := .ref refW }
/-- A well-formed CKP_REPLAY body. -/
def replayW : ReplayBody :=
  { cls := 0, flags := 0, adapterVersion := 0, expectLength := 0, count := 0, firstSample := 0, expectLast := 0, samp := {},
    expectTurnSeq := 0, input := .ref refW }
/-- A well-formed VEC_INSERT body. -/
def insW : VecInsertBody := { indexId := 0, cls := 0, id := 0, attr := 0, data := [] }
/-- A well-formed RING_SETUP body. -/
def ringW : RingBody := { kind := 0, log2Slots := 6, rkey := 1, addr := 4096, consumerAddr := 64 }
/-- A well-formed LOAD. -/
def reqW : Request := {}
/-- A well-formed KEY message. -/
def keyW : KeyMsg := { nonce := zeros 32, tag := zeros 16 }
/-- A well-formed lace header. -/
def laceW : LaceHdr := { mapId := zeros 8 }
/-- A well-formed location record. -/
def locW : LocRec := { handle := 5, owner := 0, epoch := 1 }
/-- A well-formed claim answer. -/
def ansW : ClaimAns := { node := 0, state := .ember, epoch := 1, count := 0, head := zeros 32, inPlace := false }
/-- A well-formed result record. -/
def recW : ResultRec := { kind := 0, status := 0, opcode := 0 }
/-- A well-formed bank access. -/
def accW : BankAccess := { bank := 0, word := 0, port := .a }

theorem test_wf_BankAccess : accW.wf = true ∧
    ([{ accW with bank := 3072 }, { accW with word := 524288 }, { accW with mask := 2 ^ 64 },
      { accW with write := true, data := [] }, { accW with data := [0] }] : List BankAccess).all (fun x => !x.wf) = true := by decide +kernel

theorem test_wf_DataRef : refW.wf = true ∧
    ([{ refW with addr := 2 ^ 64 }, { refW with len := 2 ^ 64 }, { refW with rkey := 2 ^ 32 }] : List DataRef).all (fun x => !x.wf) = true := by decide +kernel

theorem test_wf_TackHdr : hdrA.wf = true ∧
    ([{ hdrA with qp := 16384 }, { hdrA with version := 256 }, { hdrA with flags := 65536 },
      { hdrA with length := 2 ^ 32 }, { hdrA with mapEpoch := 2 ^ 64 }, { hdrA with dscp := 64 },
      { hdrA with fwd := some (0, 0) }] : List TackHdr).all (fun x => !x.wf) = true := by decide +kernel

theorem test_wf_OpenBody : openW.wf = true ∧
    ([{ openW with ctx := 4 }, { openW with cls := 4 }, { openW with flags := 4 }, { openW with budget := 2 ^ 32 },
      { openW with adapterId := 65536 }, { openW with seedKey := [] }] : List OpenBody).all (fun x => !x.wf) = true := by decide +kernel

theorem test_wf_TurnBody : turnW.wf = true ∧
    ([{ turnW with cls := 8 }, { turnW with stopCount := 256 }, { turnW with maxTokens := 65536 },
      { turnW with inputCount := 2 ^ 32 }, { turnW with deadline := 2 ^ 64 }, { turnW with samp := { topK := 65536 } },
      { turnW with stops := [0] }, { turnW with stopCount := 1, stops := [2 ^ 32] },
      { turnW with input := .ref { refW with rkey := 2 ^ 32 } }] : List TurnBody).all (fun x => !x.wf) = true := by decide +kernel

theorem test_wf_ReplayBody : replayW.wf = true ∧
    ([{ replayW with cls := 8 }, { replayW with flags := 4 }, { replayW with adapterVersion := 2 ^ 32 },
      { replayW with expectLength := 2 ^ 32 }, { replayW with count := 2 ^ 32 },
      { replayW with firstSample := 2 ^ 32 }, { replayW with expectLast := 2 ^ 32 },
      { replayW with samp := { topK := 65536 } }, { replayW with expectTurnSeq := 2 ^ 64 },
      { replayW with input := .ref { refW with rkey := 2 ^ 32 } }] : List ReplayBody).all (fun x => !x.wf) = true := by decide +kernel

theorem test_wf_VecInsertBody : insW.wf = true ∧
    ([{ insW with indexId := 65536 }, { insW with cls := 256 }] : List VecInsertBody).all (fun x => !x.wf) = true := by decide +kernel

theorem test_wf_RingBody : ringW.wf = true ∧
    ([{ ringW with kind := 256 }, { ringW with log2Slots := 256 }, { ringW with rkey := 2 ^ 32 },
      { ringW with addr := 2 ^ 64 }, { ringW with consumerAddr := 2 ^ 64 }, { ringW with producerAddr := 2 ^ 64 }] : List RingBody).all (fun x => !x.wf) = true := by decide +kernel

theorem test_wf_FrameHdr : ({} : FrameHdr).wf = true ∧
    ([{ ({} : FrameHdr) with cls := 256 }, { ({} : FrameHdr) with dest := 4096 }, { ({} : FrameHdr) with src := 4096 },
      { ({} : FrameHdr) with job := 65536 }, { ({} : FrameHdr) with hops := 256 },
      { ({} : FrameHdr) with route := 16 }, { ({} : FrameHdr) with path := 65536 }] : List FrameHdr).all (fun x => !x.wf) = true := by decide +kernel

theorem test_wf_Request : reqW.wf = true ∧
    ([{ reqW with hdr := { cls := 256 } }, { reqW with op := 256 }, { reqW with stream := 256 },
      { reqW with tag := 65536 }, { reqW with seq := 2 ^ 32 }, { reqW with addr := 2 ^ 64 },
      { reqW with ackThrough := 2 ^ 32 }, { reqW with incarnation := 2 ^ 32 }, { reqW with msgKind := 65536 },
      { reqW with mask := 2 ^ 128 }, { reqW with mask := 1 }, { reqW with op := 2, data := zeros 127 },
      { reqW with op := 3, data := [] }, { reqW with op := 3, data := zeros 4104 },
      { reqW with op := 3, data := zeros 12 }, { reqW with op := 1, data := zeros 8 }, { reqW with a := 1 },
      { reqW with b := 1 }] : List Request).all (fun x => !x.wf) = true := by decide +kernel

theorem test_wf_Response : ({} : Response).wf = true ∧
    ([{ ({} : Response) with hdr := { cls := 256 } }, { ({} : Response) with op := 256 },
      { ({} : Response) with stream := 256 }, { ({} : Response) with tag := 65536 },
      { ({} : Response) with seq := 2 ^ 32 }, { ({} : Response) with status := 256 },
      { ({} : Response) with nextSeq := 2 ^ 32 }, { ({} : Response) with data := zeros 136 },
      { ({} : Response) with data := zeros 4 }] : List Response).all (fun x => !x.wf) = true := by decide +kernel

theorem test_wf_TrainMsg : ({} : TrainMsg).wf = true ∧
    ([{ ({} : TrainMsg) with versions := [] }, { ({} : TrainMsg) with versions := [0, 0, 0, 0, 0] },
      { ({} : TrainMsg) with versions := [256] }, { ({} : TrainMsg) with laneMask := 16 },
      { ({} : TrainMsg) with node := 4096 }, { ({} : TrainMsg) with coords := [] },
      { ({} : TrainMsg) with coords := [0, 0, 0, 256] }, { ({} : TrainMsg) with link := 256 },
      { ({} : TrainMsg) with direction := 256 }, { ({} : TrainMsg) with flags := 256 },
      { ({} : TrainMsg) with kind := 256 }, { ({} : TrainMsg) with seedCheck := 2 ^ 32 },
      { ({} : TrainMsg) with dims := [] }, { ({} : TrainMsg) with dims := [256, 1, 1, 1] },
      { ({} : TrainMsg) with incarnation := 2 ^ 32 }] : List TrainMsg).all (fun x => !x.wf) = true := by decide +kernel

theorem test_wf_KeyMsg : keyW.wf = true ∧
    ([{ keyW with step := 256 }, { keyW with keySeq := 2 ^ 32 }, { keyW with nonce := [] }, { keyW with tag := [] }] : List KeyMsg).all (fun x => !x.wf) = true := by decide +kernel

theorem test_wf_LaceHdr : laceW.wf = true ∧
    ([{ laceW with job := 65536 }, { laceW with term := 2 ^ 32 }, { laceW with epoch := 2 ^ 64 },
      { laceW with sender := 4096 }, { laceW with part := 65536 }, { laceW with parts := 65536 },
      { laceW with mapId := [] }] : List LaceHdr).all (fun x => !x.wf) = true := by decide +kernel

theorem test_wf_LocRec : locW.wf = true ∧
    ([{ locW with owner := 4096 }, { locW with epoch := 2 ^ 64 }] : List LocRec).all (fun x => !x.wf) = true := by decide +kernel

theorem test_wf_Entry : entA.wf = true ∧
    ([{ entA with ctx := 4 }, { entA with cls := 4 }, { entA with turnCls := 4 }, { entA with place := 4 },
      { entA with index := 2 ^ 21 }, { entA with lane := 65536 }, { entA with adapterId := 65536 },
      { entA with adapterVersion := 2 ^ 32 }, { entA with tenant := 65536 }, { entA with length := 2 ^ 32 },
      { entA with retained := 2 ^ 32 }, { entA with budget := 2 ^ 32 }, { entA with ptRoot := 2 ^ 64 },
      { entA with stateAddr := 2 ^ 64 }, { entA with deadline := 2 ^ 64 }, { entA with ownerEpoch := 2 ^ 64 },
      { entA with mapEpoch := 2 ^ 64 }, { entA with kindleAt := 2 ^ 64 }, { entA with seedKey := [] },
      { entA with turnSeq := 2 ^ 64 }, { entA with lastUse := 2 ^ 64 }, { entA with auditHead := [] },
      { entA with auditCount := 2 ^ 64 }, { entA with forwardNode := 4096 }, { entA with created := 2 ^ 64 }] : List Entry).all (fun x => !x.wf) = true := by decide +kernel

theorem test_wf_ClaimAns : ansW.wf = true ∧
    ([{ ansW with node := 4096 }, { ansW with epoch := 2 ^ 64 }, { ansW with count := 2 ^ 64 },
      { ansW with head := [] }, { ansW with forward := 4096 }] : List ClaimAns).all (fun x => !x.wf) = true := by decide +kernel

theorem test_wf_ResultRec : recW.wf = true ∧
    ([{ recW with kind := 256 }, { recW with status := 256 }, { recW with opcode := 256 }, { recW with flags := 256 },
      { recW with wordA := 2 ^ 64 }, { recW with wordB := 2 ^ 64 }, { recW with wordC := 2 ^ 64 },
      { recW with time := 2 ^ 64 }] : List ResultRec).all (fun x => !x.wf) = true := by decide +kernel

theorem test_wf_Packets : ({} : Packets).wf = true ∧
    ([{ ({} : Packets) with dscps := List.replicate 65 0 }, { ({} : Packets) with dscps := [64] }] : List Packets).all (fun x => !x.wf) = true := by decide +kernel

theorem test_wf_IpFlow : ({} : IpFlow).wf = true ∧
    ([{ ({} : IpFlow) with cls := 256 }, { ({} : IpFlow) with flow := 2 ^ 20 }] : List IpFlow).all (fun x => !x.wf) = true := by decide +kernel

theorem test_wf_PtpHdr : ({} : PtpHdr).wf = true ∧
    ([{ ({} : PtpHdr) with sq := 65536 }, { ({} : PtpHdr) with dom := 256 }, { ({} : PtpHdr) with tr := 3 }] : List PtpHdr).all (fun x => !x.wf) = true := by decide +kernel

theorem test_wf_PtpMaster : ({ src := 0, prio := 0 } : PtpMaster).wf = true ∧
    ([{ ({ src := 0, prio := 0 } : PtpMaster) with src := 2 ^ 80 },
      { ({ src := 0, prio := 0 } : PtpMaster) with prio := 2 ^ 64 }] : List PtpMaster).all (fun x => !x.wf) = true := by decide +kernel

theorem test_wf_Port : (Port.host 16384).wf = false ∧ (Port.core 8).wf = false ∧ (Port.core 7).wf = true := by decide

theorem test_wf_Arbiter_good :
    ([.cell 0 0, .block 0, .region 0, .chip] : List Arbiter).all (fun x => x.wf) = true := by decide +kernel

theorem test_wf_Arbiter :
    ([.cell 48 0, .cell 0 74, .block 48, .region 8] : List Arbiter).all (fun x => !x.wf) = true := by decide +kernel

theorem test_wf_T1Area_good :
    ([.mirrored, .unused, .session 0, .pool 0, .weightSource 0, .adapter 0 0 0, .once 0 0, .auditLog 0, .vecTable 0] : List T1Area).all (fun x => x.wf) = true := by decide +kernel

theorem test_wf_T1Area :
    ([.session (2 ^ 21), .pool (2 ^ 21), .weightSource 4, .adapter 4 0 0, .adapter 0 65536 0, .adapter 0 0 (2 ^ 32),
      .once 4096 0, .once 0 256, .auditLog 65536, .vecTable 65536] : List T1Area).all (fun x => !x.wf) = true := by decide +kernel

theorem test_wf_Frame_good :
    ([.req reqW, .rsp {}, .train {} {}, .key {} keyW, .nodeState {} 0 0] : List Frame).all (fun x => x.wf) = true := by decide +kernel

theorem test_wf_Frame :
    ([.req { reqW with op := 256 }, .rsp { op := 256 }, .train { cls := 256 } {}, .train {} { laneMask := 16 },
      .key { cls := 256 } keyW, .key {} { keyW with step := 256 }, .nodeState { cls := 256 } 0 0, .nodeState {} 4096 0,
      .nodeState {} 0 (2 ^ 32)] : List Frame).all (fun x => !x.wf) = true := by decide +kernel

theorem test_wf_TackBody_good :
    ([.openSes openW, .turn turnW, .park 0, .kindle 0, .move 0, .confirm 0, .resolve 0, .wake, .pin, .unpin, .close,
      .stageBegin, .nop, .stageData 0 (.ref refW), .stageEnd 0, .adapterLoad refW, .adapterDrop 0 0,
      .weightsStage 0 refW, .vecCreate (.ref refW), .vecDrop 0, .vecInsert insW, .vecDelete 0 0 0 0, .vecQuery refW [],
      .regRead 0, .regWrite 0 0, .ringSetup ringW, .auditRingSetup ringW, .ckpStore 0 0 0 0 refW,
      .ckpBegin 0 0 0 0 0 0, .ckpCommit 0 0 (zeros 16224), .ckpAbort 0 0, .ckpRestore 0 0 0 0 0 refW,
      .ckpReplay replayW, .ckpCollect 0, .quote (zeros 32) refW, .auditRootRead 0 refW, .identityRead refW] : List TackBody).all (fun x => x.wf) = true := by decide +kernel

theorem test_wf_TackBody :
    ([.openSes { openW with ctx := 4 }, .turn { turnW with cls := 8 }, .park 256, .kindle (2 ^ 32), .move 4096,
      .confirm 4096, .resolve 4096, .stageData (2 ^ 32) (.ref refW), .stageData 0 (.ref { refW with len := 2 ^ 64 }),
      .stageEnd (2 ^ 32), .adapterLoad { refW with addr := 2 ^ 64 }, .adapterDrop 256 0, .adapterDrop 0 65536,
      .weightsStage 256 refW, .weightsStage 0 { refW with addr := 2 ^ 64 },
      .vecCreate (.ref { refW with len := 2 ^ 64 }), .vecDrop 65536, .vecInsert { insW with cls := 256 },
      .vecDelete 65536 0 0 0, .vecDelete 0 256 0 0, .vecDelete 0 0 (2 ^ 32) 0, .vecDelete 0 0 0 (2 ^ 24),
      .vecQuery { refW with addr := 2 ^ 64 } [], .regRead (2 ^ 24), .regWrite (2 ^ 24) 0,
      .ringSetup { ringW with kind := 256 }, .auditRingSetup { ringW with kind := 256 }, .ckpStore 65536 0 0 0 refW,
      .ckpStore 0 256 0 0 refW, .ckpStore 0 0 256 0 refW, .ckpStore 0 0 0 4096 refW,
      .ckpStore 0 0 0 0 { refW with addr := 2 ^ 64 }, .ckpBegin 65536 0 0 0 0 0, .ckpBegin 0 65536 0 0 0 0,
      .ckpBegin 0 0 65536 0 0 0, .ckpBegin 0 0 0 256 0 0, .ckpBegin 0 0 0 0 (2 ^ 64) 0, .ckpBegin 0 0 0 0 0 (2 ^ 64),
      .ckpCommit 65536 0 (zeros 16224), .ckpCommit 0 (2 ^ 64) (zeros 16224), .ckpCommit 0 0 [], .ckpAbort 65536 0,
      .ckpAbort 0 (2 ^ 64), .ckpRestore 65536 0 0 0 0 refW, .ckpRestore 0 256 0 0 0 refW, .ckpRestore 0 0 256 0 0 refW,
      .ckpRestore 0 0 0 65536 0 refW, .ckpRestore 0 0 0 0 65536 refW,
      .ckpRestore 0 0 0 0 0 { refW with addr := 2 ^ 64 }, .ckpReplay { replayW with cls := 8 }, .ckpCollect 65536,
      .quote [] refW, .quote (zeros 32) { refW with addr := 2 ^ 64 }, .auditRootRead (2 ^ 64) refW,
      .auditRootRead 0 { refW with addr := 2 ^ 64 }, .identityRead { refW with addr := 2 ^ 64 }] : List TackBody).all (fun x => !x.wf) = true := by decide +kernel

theorem test_wf_accepted_1 :
    ([.registerWrite .owner 0 0, .eventRingDrain 0 0, .arbiterGrant .chip [] [], .ownerStageBegin, .ownerStageEnd 0,
      .secImgStageData 0, .stageLockTimeout, .activate true true true 0, .sealImage, .abortStage, .imageCheckDone,
      .drainTimeout, .imagePersistComplete true, .openTack hdrA openW, .turn hdrA turnW, .park hdrA 0, .wake hdrA,
      .kindle hdrA 0, .pin hdrA, .unpin hdrA, .moveTack hdrA 0, .closeTack hdrA, .confirm hdrA 0, .resolve hdrA 0,
      .bankingComplete 0, .bankingWriteFail 0, .wakeStart, .wakeComplete 0, .wakeFailed 0, .copyToT0Complete 0,
      .kindleAtReached 0, .kindleHoldExpired 0, .pressureRule, .moveOffer 0 0 entA, .moveStorageReceived 0 {},
      .moveAck 0 0, .moveRelease 0, .moveTimeout 0, .moveQuery 0 0 0, .moveQueryAnswer 0 true, .moveQueryTimeout 0,
      .moveCancel 0, .moveReleaseTimeout 0, .suspectReport 0 0 0, .claimQuery 0 0 0, .claimAnswer 0 ansW,
      .claimCollectionEnd 0, .disputeSettle 0 0 0, .storageReclaimed 0, .moveKeepExpired 0, .sesInspectIndex .owner 0,
      .stepBoundary, .emptyBoundary, .adapterLoad hdrA refW, .adapterLoadComplete 0 0, .adapterDrop hdrA 0 0,
      .contextLoad .owner 0, .contextUnload .owner 0, .contextLoadComplete 0, .weightsInPlace 0] : List Instr).all (fun x => x.wf) = true := by decide +kernel

theorem test_wf_accepted_2 :
    ([.contextTeardownComplete 0, .stpClearMax, .ariClearCounts .owner, .runKat .owner, .katComplete [], .kvSpill 0,
      .pageSpillComplete 0 0 0, .pageBringBack 0, .longRowSpill 0, .atnClearCounts .owner, .labFlush .owner,
      .t1AllocGrant, .allocWait, .sessionSpillT1 0, .sessionSpillT1Complete 0, .objCreate .owner 0 0 0 0,
      .objMove .owner 0 0, .objPin .owner 0, .objUnpin .owner 0, .objFree .owner 0, .objTransferDone 0,
      .bankHandover .owner 0, .bankHandoverDone 0, .scrubPeriodEnd, .scrubNow .owner, .memClearCounts .owner,
      .ueT1 0 .unused, .ueT2 0 0, .blockRetire 0 0, .vecCreate hdrA (.ref refW), .vecDrop hdrA 0, .vecInsert hdrA insW,
      .vecDelete hdrA 0 0 0 0, .vecQuery hdrA refW [], .coordinatorAdmit 0, .forwardedWork 0, .vecQueryComplete 0 0,
      .batchClose 0 0 0, .tailFlush 0 0, .updateDurable 0 0, .horizonAdvance, .repairStart, .vectorPass 0,
      .vecRepairNow .owner, .vecClearCounts .owner, .hostLinkUp, .hostLinkDown, .sendMessage 0 [] {} true,
      .peerRdmaRequest 0 0, .pfcFrame 0 0, .cnp 0, .rateRecovery 0, .ackTimeout 0, .rdmaNak 0, .fetchComplete 0 0 [],
      .cmReq [] 0 {}, .cmRtu 0, .cmDreq 0, .cmDrep 0, .connectTimeout 0] : List Instr).all (fun x => x.wf) = true := by decide +kernel

theorem test_wf_accepted_3 :
    ([.qpErrorTimeout 0, .stageBegin hdrA, .stageData hdrA 0 (.ref refW), .stageEnd hdrA 0, .weightsStage hdrA 0 refW,
      .regRead hdrA 0, .regWrite hdrA 0 0, .ringSetup hdrA ringW, .nop hdrA, .ringConsumerRead 0 0 0, .egressFrame 0,
      .gateEntry 0, .ptpSync {} true 0 0, .ptpFollowUp {} 0, .ptpDelayResp {} 0,
      .ptpAnnounce {} { src := 0, prio := 0 }, .ptpDelayReq, .ptpHoldover, .hostTxEnable true, .hstClearCounts,
      .histSample, .shpClearCounts .owner, .clearHist .owner, .shpHistSel .owner 0, .wltEnable 0, .laneLock 0 0,
      .signalTimeout 0, .alignDone 0, .alignTimeout 0, .trainSend 0, .train 0 {}, .paramTimeout 0, .key 0 keyW,
      .keyConfirmTimeout 0, .rekeyStart 0, .rekeyDeadline 0, .laneLockLoss { link := 0 }, .fecSecond 0 0 0,
      .retrainTimer 0, .flit 0 (zeros 512), .flitAckTimeout 0, .forwardFrame 0 (.req reqW), .load 0 reqW,
      .store 0 reqW, .fadd 0 reqW, .swap 0 reqW, .cas 0 reqW, .fand 0 reqW, .forOp 0 reqW, .fxor 0 reqW,
      .lineUnitAccept 0, .fabricResponse {}, .respTimeout 0, .targetDead 0, .onceResultExpire 0 0 0, .nodeState 0 0 0,
      .wltClearCounts .owner, .wltRetrain .owner, .propose laceW [], .accept laceW] : List Instr).all (fun x => x.wf) = true := by decide +kernel

theorem test_wf_accepted_4 :
    ([.refuse laceW 0, .commit laceW, .heartbeatTimer 0, .heartbeat laceW, .heartbeatAck laceW, .electionTimeout 0,
      .voteRequest laceW, .vote laceW true, .candidateTimeout 0, .syncRequest laceW, .sync laceW [],
      .report laceW 0 0 0, .teardown laceW [], .location laceW [], .compose laceW [], .memberSilent 0 0,
      .recomposePropose 0, .formTimeout 0, .proposalTimeout 0, .drainWindowEnd 0, .forwardedTack 0 0 hdrA .wake,
      .forwardedRecord 0 0 recW, .catchUpTimeout 0 0, .mapReqData .owner 0, .mapReqSubmit .owner 0, .mapClearCounts,
      .syncNow, .ckpStore hdrA 0 0 0 0 refW, .ckpBegin hdrA 0 0 0 0 0 0, .claimPoll, .checkpointWriteDone true,
      .checkpointAllDone, .ckpCommit hdrA 0 0 (zeros 16224), .ckpAbort hdrA 0 0, .signWaitTimeout,
      .ckpRestore hdrA 0 0 0 0 0 refW, .restoreComplete, .ckpReplay hdrA replayW, .ckpCollect hdrA 0, .collectComplete,
      .replayHoldExpired, .ckpClearCounts .owner, .ckpCtrlAbort .owner, .releaseReplay .owner, .ownerSelect 0,
      .ownerWrite 0 0, .ownerWriteBurst 0 [], .ownerRead 0, .entdaa 0, .rstdaa, .enec, .disec, .getpid, .getbcr,
      .getdcr, .getstatus, .getmwl, .getmrl, .secKeyData 0, .enrol 0] : List Instr).all (fun x => x.wf) = true := by decide +kernel

theorem test_wf_accepted_5 :
    ([.remove 0, .setSecret 0, .clearAll 0, .keyCmdComplete true, .quote hdrA (zeros 32) refW, .quoteGo, .quoteReady,
      .secQuoteData, .identityRead hdrA refW, .auditRingSetup hdrA ringW, .auditRingPoll 0 0, .auditIntervalEnd,
      .auditRootSigned, .auditRootRead hdrA 0 refW, .secAudClearCounts, .cellFence 0 0 0, .stepWatchdog 0 0,
      .tileFence 0 0, .salvageComplete 0, .salvageTimeout 0, .coreWatchdog 0, .regionFence 0 0, .leaveService 0 true,
      .errArm, .armExpired, .errClearCounts .owner, .injectCorrectable 0, .injectUncorrectable 0, .injectCellFault 0,
      .injectTileFault 0, .injectT1Read 0 .unused, .injectT2Read 0, .injectFlitCrc 0, .injectRegionFault 0,
      .vinAuxUp 0, .vinStart, .vinOutOfRange 0, .vinStop 0, .railPowerGood 1, .railTimeout 1, .rootPllUnlock true,
      .bootStageEnd [] true, .pwrReset, .gotoStandby, .standbyQuiesced, .standbyQuiesceTimeout, .gotoOn,
      .resumeComplete, .gotoOff, .clearPeak, .idleEntry, .idleExit, .throttleChange true 1 0 0 0, .thermalTrip 0,
      .pwrNorData 0, .eraseFw, .norOpComplete true, .osfpInsert true 0, .cablePresentChange 0 true,
      .limTermSel .owner 0] : List Instr).all (fun x => x.wf) = true := by decide +kernel

theorem test_wf_accepted_6 :
    ([.limClearHist .owner, .clearPeaks .owner, .qpLinkDownTimeout, .cobblerLeaseExpiry 0, .vinAuxDown, .vinExcursion,
      .i3cVrefChange true, .roceAck 0 0] : List Instr).all (fun x => x.wf) = true := by decide +kernel

theorem test_wf_refused_1 :
    ([.registerWrite (.core 8) 0 0, .registerWrite .owner (2 ^ 24) 0, .eventRingDrain 65536 0,
      .eventRingDrain 0 (2 ^ 64), .arbiterGrant (.region 8) [] [],
      .arbiterGrant .chip [] [{ bank := 3072, word := 0, port := .a }], .ownerStageEnd (2 ^ 32),
      .activate true true true 65536, .openTack { hdrA with qp := 16384 } openW,
      .openTack hdrA { openW with ctx := 4 }, .turn { hdrA with qp := 16384 } turnW,
      .turn hdrA { turnW with cls := 8 }, .park { hdrA with qp := 16384 } 0, .park hdrA 256,
      .wake { hdrA with qp := 16384 }, .kindle { hdrA with qp := 16384 } 0, .kindle hdrA (2 ^ 32),
      .pin { hdrA with qp := 16384 }, .unpin { hdrA with qp := 16384 }, .moveTack { hdrA with qp := 16384 } 0,
      .moveTack hdrA 4096, .closeTack { hdrA with qp := 16384 }, .confirm { hdrA with qp := 16384 } 0,
      .confirm hdrA 4096, .resolve { hdrA with qp := 16384 } 0, .resolve hdrA 4096, .bankingComplete (2 ^ 21),
      .bankingWriteFail (2 ^ 21), .wakeComplete (2 ^ 21), .wakeFailed (2 ^ 21)] : List Instr).all (fun x => !x.wf) = true := by decide +kernel

theorem test_wf_refused_2 :
    ([.copyToT0Complete (2 ^ 21), .kindleAtReached (2 ^ 21), .kindleHoldExpired (2 ^ 21), .moveOffer 4096 0 entA,
      .moveOffer 0 65536 entA, .moveOffer 0 0 { entA with ctx := 4 }, .moveAck 0 (2 ^ 64), .moveQuery 4096 0 0,
      .moveQuery 0 65536 0, .suspectReport 4096 0 0, .suspectReport 0 65536 0, .claimQuery 4096 0 0,
      .claimQuery 0 65536 0, .claimAnswer 0 { ansW with node := 4096 }, .disputeSettle 0 4096 0,
      .disputeSettle 0 0 (2 ^ 64), .storageReclaimed (2 ^ 21), .moveKeepExpired (2 ^ 21), .sesInspectIndex (.core 8) 0,
      .adapterLoad { hdrA with qp := 16384 } refW, .adapterLoad hdrA { refW with addr := 2 ^ 64 },
      .adapterLoadComplete 4 0, .adapterLoadComplete 0 65536, .adapterDrop { hdrA with qp := 16384 } 0 0,
      .adapterDrop hdrA 256 0, .adapterDrop hdrA 0 65536, .contextLoad (.core 8) 0, .contextLoad .owner 4,
      .contextUnload (.core 8) 0, .contextUnload .owner 4] : List Instr).all (fun x => !x.wf) = true := by decide +kernel

theorem test_wf_refused_3 :
    ([.contextLoadComplete 4, .weightsInPlace 4, .contextTeardownComplete 4, .ariClearCounts (.core 8),
      .runKat (.core 8), .katComplete [(48, 0, 0)], .katComplete [(0, 74, 0)], .katComplete [(0, 0, 32)], .kvSpill 48,
      .pageSpillComplete (2 ^ 21) 0 0, .pageSpillComplete 0 65536 0, .pageSpillComplete 0 0 48, .pageBringBack 48,
      .longRowSpill (2 ^ 21), .atnClearCounts (.core 8), .labFlush (.core 8), .sessionSpillT1 48,
      .sessionSpillT1Complete (2 ^ 21), .objCreate (.core 8) 0 0 0 0, .objCreate .owner 8 0 0 0,
      .objCreate .owner 0 4 0 0, .objCreate .owner 0 0 16 0, .objCreate .owner 0 0 0 (2 ^ 32), .objMove (.core 8) 0 0,
      .objMove .owner (2 ^ 20) 0, .objMove .owner 0 4, .objPin (.core 8) 0, .objPin .owner (2 ^ 20),
      .objUnpin (.core 8) 0, .objUnpin .owner (2 ^ 20)] : List Instr).all (fun x => !x.wf) = true := by decide +kernel

theorem test_wf_refused_4 :
    ([.objFree (.core 8) 0, .objFree .owner (2 ^ 20), .objTransferDone (2 ^ 20), .bankHandover (.core 8) 0,
      .bankHandoverDone 3072, .scrubNow (.core 8), .memClearCounts (.core 8), .ueT1 (2 ^ 48) .unused,
      .ueT1 0 (.weightSource 4), .ueT2 32 0, .ueT2 0 (2 ^ 48), .blockRetire 32 0, .blockRetire 0 (2 ^ 48),
      .vecCreate { hdrA with qp := 16384 } (.ref refW), .vecCreate hdrA (.ref { refW with len := 2 ^ 64 }),
      .vecDrop { hdrA with qp := 16384 } 0, .vecDrop hdrA 65536, .vecInsert { hdrA with qp := 16384 } insW,
      .vecInsert hdrA { insW with cls := 256 }, .vecDelete { hdrA with qp := 16384 } 0 0 0 0,
      .vecDelete hdrA 65536 0 0 0, .vecDelete hdrA 0 256 0 0, .vecDelete hdrA 0 0 (2 ^ 32) 0,
      .vecDelete hdrA 0 0 0 (2 ^ 24), .vecQuery { hdrA with qp := 16384 } refW [],
      .vecQuery hdrA { refW with addr := 2 ^ 64 } [], .coordinatorAdmit 32, .forwardedWork 32,
      .vecQueryComplete 65536 0, .vecQueryComplete 0 (2 ^ 64)] : List Instr).all (fun x => !x.wf) = true := by decide +kernel

theorem test_wf_refused_5 :
    ([.batchClose 32 0 0, .batchClose 0 65536 0, .batchClose 0 0 65536, .tailFlush 65536 0, .tailFlush 0 65536,
      .updateDurable 65536 0, .updateDurable 0 (2 ^ 64), .vectorPass 65536, .vecRepairNow (.core 8),
      .vecClearCounts (.core 8), .sendMessage 16384 [] {} true, .sendMessage 0 [] { dscps := [64] } true,
      .peerRdmaRequest 16384 0, .peerRdmaRequest 0 256, .pfcFrame 256 0, .pfcFrame 0 65536, .cnp 16384,
      .rateRecovery 16384, .ackTimeout 16384, .rdmaNak 16384, .fetchComplete 16384 0 [], .cmReq (zeros 93) 0 {},
      .cmReq [] (2 ^ 24) {}, .cmReq [] 0 { cls := 256 }, .cmRtu 16384, .cmDreq 16384, .cmDrep 16384,
      .connectTimeout 16384, .qpErrorTimeout 16384, .stageBegin { hdrA with qp := 16384 }] : List Instr).all (fun x => !x.wf) = true := by decide +kernel

theorem test_wf_refused_6 :
    ([.stageData { hdrA with qp := 16384 } 0 (.ref refW), .stageData hdrA (2 ^ 32) (.ref refW),
      .stageData hdrA 0 (.ref { refW with len := 2 ^ 64 }), .stageEnd { hdrA with qp := 16384 } 0,
      .stageEnd hdrA (2 ^ 32), .weightsStage { hdrA with qp := 16384 } 0 refW, .weightsStage hdrA 256 refW,
      .weightsStage hdrA 0 { refW with addr := 2 ^ 64 }, .regRead { hdrA with qp := 16384 } 0, .regRead hdrA (2 ^ 24),
      .regWrite { hdrA with qp := 16384 } 0 0, .regWrite hdrA (2 ^ 24) 0, .ringSetup { hdrA with qp := 16384 } ringW,
      .ringSetup hdrA { ringW with kind := 256 }, .nop { hdrA with qp := 16384 }, .ringConsumerRead 16384 0 0,
      .ringConsumerRead 0 3 0, .ringConsumerRead 0 0 (2 ^ 64), .egressFrame 33, .gateEntry 33,
      .ptpSync { sq := 65536 } true 0 0, .ptpSync {} true (2 ^ 64) 0, .ptpSync {} true 0 (2 ^ 80),
      .ptpFollowUp { sq := 65536 } 0, .ptpFollowUp {} (2 ^ 64), .ptpDelayResp { sq := 65536 } 0,
      .ptpDelayResp {} (2 ^ 64), .ptpAnnounce { sq := 65536 } { src := 0, prio := 0 },
      .ptpAnnounce {} { src := 2 ^ 80, prio := 0 }, .shpClearCounts (.core 8)] : List Instr).all (fun x => !x.wf) = true := by decide +kernel

theorem test_wf_refused_7 :
    ([.clearHist (.core 8), .shpHistSel (.core 8) 0, .laneLock 32 0, .laneLock 0 16, .signalTimeout 32, .alignDone 32,
      .alignTimeout 32, .trainSend 32, .train 32 {}, .train 0 { laneMask := 16 }, .paramTimeout 32, .key 32 keyW,
      .key 0 { keyW with step := 256 }, .keyConfirmTimeout 32, .rekeyStart 32, .rekeyDeadline 32,
      .laneLockLoss { link := 32 }, .fecSecond 32 0 0, .fecSecond 0 (2 ^ 64) 0, .fecSecond 0 0 (2 ^ 64),
      .retrainTimer 32, .flit 32 (zeros 512), .flit 0 [], .flitAckTimeout 32, .forwardFrame 32 (.req reqW),
      .forwardFrame 0 (.nodeState {} 4096 0), .load 32 reqW, .load 0 { reqW with op := 256 }, .store 32 reqW,
      .store 0 { reqW with op := 256 }] : List Instr).all (fun x => !x.wf) = true := by decide +kernel

theorem test_wf_refused_8 :
    ([.fadd 32 reqW, .fadd 0 { reqW with op := 256 }, .swap 32 reqW, .swap 0 { reqW with op := 256 }, .cas 32 reqW,
      .cas 0 { reqW with op := 256 }, .fand 32 reqW, .fand 0 { reqW with op := 256 }, .forOp 32 reqW,
      .forOp 0 { reqW with op := 256 }, .fxor 32 reqW, .fxor 0 { reqW with op := 256 }, .lineUnitAccept 8,
      .fabricResponse { op := 256 }, .respTimeout 65536, .targetDead 65536, .onceResultExpire 4096 0 0,
      .onceResultExpire 0 256 0, .onceResultExpire 0 0 (2 ^ 32), .nodeState 32 0 0, .nodeState 0 4096 0,
      .nodeState 0 0 (2 ^ 32), .wltClearCounts (.core 8), .wltRetrain (.core 8),
      .propose { laceW with job := 65536 } [], .propose laceW (zeros 4065), .accept { laceW with job := 65536 },
      .refuse { laceW with job := 65536 } 0, .refuse laceW 256, .commit { laceW with job := 65536 }] : List Instr).all (fun x => !x.wf) = true := by decide +kernel

theorem test_wf_refused_9 :
    ([.heartbeatTimer 65536, .heartbeat { laceW with job := 65536 }, .heartbeatAck { laceW with job := 65536 },
      .electionTimeout 65536, .voteRequest { laceW with job := 65536 }, .vote { laceW with job := 65536 } true,
      .candidateTimeout 65536, .syncRequest { laceW with job := 65536 }, .sync { laceW with job := 65536 } [],
      .sync laceW (zeros 4065), .report { laceW with job := 65536 } 0 0 0, .report laceW 256 0 0,
      .report laceW 0 4096 0, .report laceW 0 0 (2 ^ 32), .teardown { laceW with job := 65536 } [],
      .teardown laceW (zeros 4065), .location { laceW with job := 65536 } [],
      .location laceW (List.replicate 128 locW), .location laceW [{ locW with owner := 4096 }],
      .compose { laceW with job := 65536 } [], .compose laceW (zeros 4065), .memberSilent 65536 0,
      .memberSilent 0 4096, .recomposePropose 65536, .formTimeout 65536, .proposalTimeout 65536, .drainWindowEnd 65536,
      .forwardedTack 4096 0 hdrA .wake, .forwardedTack 0 65536 hdrA .wake,
      .forwardedTack 0 0 { hdrA with qp := 16384 } .wake] : List Instr).all (fun x => !x.wf) = true := by decide +kernel

theorem test_wf_refused_10 :
    ([.forwardedTack 0 0 hdrA (.park 256), .forwardedRecord 4096 0 recW, .forwardedRecord 0 16384 recW,
      .forwardedRecord 0 0 { recW with kind := 256 }, .catchUpTimeout 16384 0, .mapReqData (.core 8) 0,
      .mapReqSubmit (.core 8) 0, .ckpStore { hdrA with qp := 16384 } 0 0 0 0 refW, .ckpStore hdrA 65536 0 0 0 refW,
      .ckpStore hdrA 0 256 0 0 refW, .ckpStore hdrA 0 0 256 0 refW, .ckpStore hdrA 0 0 0 4096 refW,
      .ckpStore hdrA 0 0 0 0 { refW with addr := 2 ^ 64 }, .ckpBegin { hdrA with qp := 16384 } 0 0 0 0 0 0,
      .ckpBegin hdrA 65536 0 0 0 0 0, .ckpBegin hdrA 0 65536 0 0 0 0, .ckpBegin hdrA 0 0 65536 0 0 0,
      .ckpBegin hdrA 0 0 0 256 0 0, .ckpBegin hdrA 0 0 0 0 (2 ^ 64) 0, .ckpBegin hdrA 0 0 0 0 0 (2 ^ 64),
      .ckpCommit { hdrA with qp := 16384 } 0 0 (zeros 16224), .ckpCommit hdrA 65536 0 (zeros 16224),
      .ckpCommit hdrA 0 (2 ^ 64) (zeros 16224), .ckpCommit hdrA 0 0 [], .ckpAbort { hdrA with qp := 16384 } 0 0,
      .ckpAbort hdrA 65536 0, .ckpAbort hdrA 0 (2 ^ 64), .ckpRestore { hdrA with qp := 16384 } 0 0 0 0 0 refW,
      .ckpRestore hdrA 65536 0 0 0 0 refW, .ckpRestore hdrA 0 256 0 0 0 refW] : List Instr).all (fun x => !x.wf) = true := by decide +kernel

theorem test_wf_refused_11 :
    ([.ckpRestore hdrA 0 0 256 0 0 refW, .ckpRestore hdrA 0 0 0 65536 0 refW, .ckpRestore hdrA 0 0 0 0 65536 refW,
      .ckpRestore hdrA 0 0 0 0 0 { refW with addr := 2 ^ 64 }, .ckpReplay { hdrA with qp := 16384 } replayW,
      .ckpReplay hdrA { replayW with cls := 8 }, .ckpCollect { hdrA with qp := 16384 } 0, .ckpCollect hdrA 65536,
      .ckpClearCounts (.core 8), .ckpCtrlAbort (.core 8), .releaseReplay (.core 8), .ownerSelect (2 ^ 24),
      .ownerWrite (2 ^ 24) 0, .ownerWriteBurst (2 ^ 24) [], .ownerRead (2 ^ 64), .entdaa 128, .enrol 4, .remove 4,
      .setSecret 4, .clearAll 4, .quote { hdrA with qp := 16384 } (zeros 32) refW, .quote hdrA [] refW,
      .quote hdrA (zeros 32) { refW with addr := 2 ^ 64 }, .identityRead { hdrA with qp := 16384 } refW,
      .identityRead hdrA { refW with addr := 2 ^ 64 }, .auditRingSetup { hdrA with qp := 16384 } ringW,
      .auditRingSetup hdrA { ringW with kind := 256 }, .auditRingPoll 65536 0, .auditRingPoll 0 (2 ^ 64),
      .auditRootRead { hdrA with qp := 16384 } 0 refW] : List Instr).all (fun x => !x.wf) = true := by decide +kernel

theorem test_wf_refused_12 :
    ([.auditRootRead hdrA (2 ^ 64) refW, .auditRootRead hdrA 0 { refW with addr := 2 ^ 64 }, .cellFence 48 0 0,
      .cellFence 0 74 0, .cellFence 0 0 16, .stepWatchdog 48 0, .stepWatchdog 0 74, .tileFence 48 0, .tileFence 0 16,
      .salvageComplete 48, .salvageTimeout 48, .coreWatchdog 8, .regionFence 8 0, .regionFence 0 16,
      .leaveService 16 true, .errClearCounts (.core 8), .injectCorrectable (2 ^ 32), .injectUncorrectable (2 ^ 32),
      .injectCellFault (2 ^ 32), .injectTileFault (2 ^ 32), .injectT1Read (2 ^ 32) .unused,
      .injectT1Read 0 (.weightSource 4), .injectT2Read (2 ^ 32), .injectFlitCrc (2 ^ 32), .injectRegionFault (2 ^ 32),
      .vinAuxUp 65536, .vinOutOfRange 65536, .vinStop 65536, .railPowerGood 0, .railPowerGood 6] : List Instr).all (fun x => !x.wf) = true := by decide +kernel

theorem test_wf_refused_13 :
    ([.railTimeout 0, .railTimeout 6, .bootStageEnd [(2 ^ 32, 0)] true, .bootStageEnd [(0, 32)] true,
      .throttleChange true 0 0 0 0, .throttleChange true 3 0 0 0, .throttleChange true 1 256 0 0,
      .throttleChange true 1 0 48 0, .throttleChange true 1 0 0 4096, .thermalTrip 48, .osfpInsert true 4096,
      .cablePresentChange 32 true, .limTermSel (.core 8) 0, .limClearHist (.core 8), .clearPeaks (.core 8),
      .cobblerLeaseExpiry 65536, .roceAck 16384 0, .roceAck 0 (2 ^ 64)] : List Instr).all (fun x => !x.wf) = true := by decide +kernel

/-- Nothing carries more than 65,536 bytes. -/
theorem test_wf_long :
    Payload.wf (.inline (zeros 65537)) = false ∧
    VecInsertBody.wf ({ insW with data := zeros 65537 }) = false ∧
    TackBody.wf (.vecQuery refW (zeros 65537)) = false ∧
    Instr.wf (.vecQuery hdrA refW (zeros 65537)) = false ∧
    Instr.wf (.sendMessage 0 (zeros 65537) {} true) = false := by
  simp [Payload.wf, VecInsertBody.wf, TackBody.wf, Instr.wf, zeros, -List.reduceReplicate]

/-! ### Single commands and operations, their results from the spec's worked cases -/

/-- R10, R12: the worked case of the event record: UNIT 0x01020D03, TIMESTAMP least significant byte first, code and severity in place. -/
theorem test_event_record :
    let b := eventBytes { time := 1734000000123456789, freeRun := false, severity := 0, level := 2, unit := unitCell 13 3, code := 0x0601, detail := 0 } 7 0
    b.length = 40 - 8 ∧ leAt b 0 8 = 0x181067D01FE2CD15 ∧ slice b 0 2 = [0x15, 0xCD] ∧ leAt b 8 4 = 0x00020048 ∧ leAt b 12 4 = 0x01020D03 ∧
      leAt b 16 4 = 0x0601 ∧ leAt b 20 4 = 7 := by decide +kernel

/-- R109 to R111: the worked block of MXFP4 (format code 5): A = 3.1, so S = 0x7F; 3.1, −1.26 and 0.2 take codes 0x5, 0xB and 0x0. -/
theorem test_mxfp4_block : mxEncode 5 [0x40466666, 0xBFA147AE, 0x3E4CCCCD] = (0x7F, [0x5, 0xB, 0x0]) := by decide +kernel

/-- R150: the worked score: RN(2^−6 × 0x3F7FC000) = 0.0156097412109375, and with w = 0.0029296875 the new SCORE is 0.0185394287109375. -/
theorem test_score_update :
    fmul 0x3C800000 0x3F7FC000 = 0x3C7FC000 ∧ fadd 0x3C7FC000 0x3B400000 = 0x3C97E000 := by decide +kernel

/-- R52: the worked handle: generation 1, node 17, NODE_EPOCH 0, issue number 0x3A0042. -/
theorem test_handle : handleOf 17 0 0x3A0042 = 0x40044000003A0042 := by decide +kernel

/-- The first 96 bytes of the worked authorization turn (R249, R255), its 384 inputs left out. -/
def turnBytes : Bytes :=
  [0x48, 0x02, 0, 0, 0x60, 0x06, 0, 0, 0xA1, 0xC4, 0x09, 0, 0, 0, 0, 0, 0x42, 0, 0x3A, 0, 0, 0x40, 0x04, 0x40, 0x37, 0x01, 0, 0, 0, 0, 0, 0,
   0x00, 0x01, 0x07, 0x00, 0x80, 0x01, 0, 0] ++ zeros 8 ++ [0, 0, 0, 0, 0, 0, 0x80, 0x3F] ++ zeros 8 ++ [2, 0, 0, 0] ++ zeros 28

/-- R249: the worked header: TAG, handle, MAP_EPOCH 311, LENGTH 1,632. -/
theorem test_tack_header :
    readTackHdr 12 0 turnBytes =
      { qp := 12, version := 0x48, flags := 0, length := 1632, tag := 0x9C4A1, handle := 0x40044000003A0042, mapEpoch := 311, dscp := 0 } := by
  decide +kernel

/-- R255: the worked body: class 0, one stop token of id 2, MAX_TOKENS 7, 384 inputs, greedy, TOP_P 1.0. -/
theorem test_turn_body :
    readBody 2 0 turnBytes = some (.turn
      { cls := 0, stopCount := 1, maxTokens := 7, inputCount := 384, deadline := 0, samp := { invTemp := 0, topP := 0x3F800000, topK := 0 },
        stops := [2], input := .inline [] }) := by decide +kernel

/-- A lane of the worked step in a phase, its turn with a class, an admission sequence and inputs that remain. -/
def laneW (i : Nat) (p : Phase) (c adm n : Nat) : Nat × Lane :=
  (i, { turn := { idx := i, qp := 1, tag := 0, ctx := 0, cls := c, admSeq := adm, input := List.replicate n 0 }, phase := p })

/-- The worked step of R84 with its 250 decoding lanes taken out of the lanes and of STEP_TOKENS. -/
def stepW : State :=
  { base with
    ses := { base.ses with table := [12, 77, 203, 300, 301, 302].map fun i => (i, sesIn .live) }
    stp := { base.stp with
      cfg := BitVec.ofNat 64 ((1024 - 250) + 512 * 2 ^ 11 + 64 * 2 ^ 22)
      lanes := [laneW 12 .prefill 1 90114 2000, laneW 77 .prefill 0 90131 300, laneW 203 .prefill 2 90087 100,
                laneW 300 .closing 0 1 0, laneW 301 .closing 0 2 0, laneW 302 .closing 0 3 0] } }

/-- R84: the worked step: after the decoding and closing lanes, lane 77 takes 300, lane 12 takes 471, lane 203 nothing. -/
theorem test_step_work : (buildList stepW).work = [(300, 1), (301, 1), (302, 1), (77, 300), (12, 471)] := by decide +kernel

/-- R349: of four voters three are a quorum, two are not. -/
theorem test_quorum : quorum [9, 17, 30, 42] [9, 17, 30] = true ∧ quorum [9, 17, 30, 42] [9, 42] = false := by decide

/-- R320, R325: the worked STOREs: writer i enables bytes 2i and 2i + 1 of the line, and no other byte changes. -/
theorem test_merge_line :
    mergeLine (zeros 128) (List.replicate 128 0xAB) (3 * 2 ^ (2 * 5)) = zeros 10 ++ [0xAB, 0xAB] ++ zeros 116 := by decide +kernel

/-- SHA-256 of R402: the one-block example of FIPS 180-4. -/
theorem test_sha256 :
    beNat (sha256 (ascii "abc")) = 0xBA7816BF8F01CFEA414140DE5DAE2223B00361A396177A9CB410FF61F20015AD := by decide +kernel

/-- AES-256 of R126: the example of FIPS 197. -/
theorem test_aes256 :
    beNat (aes256 ((List.range 32).map (BitVec.ofNat 8)) ((List.range 16).map fun i => BitVec.ofNat 8 (17 * i))) =
      0x8EA2B7CA516745BFEAFC49904B496089 := by decide +kernel

/-- R302, R306: AES-256-GCM of the flits: the example of SP 800-38D with a zero key and one zero block. -/
theorem test_gcm :
    beNat (gcmSeal (zeros 32) (zeros 12) [] (zeros 16)) =
      0xCEA7403D4D606B6E074EC5D3BAF39D18D0D1C8A799996BF0265B98B5D48AB919 := by decide +kernel

/-! ### Two more clauses -/

/-- An index of another tenant, selected by queue pair 1. -/
theorem witness_HostAccessNeedsItsRights_index :
    (let s : State := { withIdx { idxA with tenant := 8 } with accs := [(.host 1, { idxSel := idxA.id })] }
     (match vindex? s (accRegs s (.host 1)).idxSel with | some x => decide (x.tenant ≠ tenantOf s 1) | none => false) = true) := by
  decide +kernel

/-- A root that waits for its signature. -/
theorem witness_QuoteAndAuditCommandsComplete_root :
    (withSec fun c => { c with rootsPend := [{ rcd := zeros 8, subs := [] }] }).sec.rootsPend = [{ rcd := zeros 8, subs := [] }] := by
  decide +kernel

end Sys2Proof.Tests
end

section
/-!
PROOFS. Byte layouts (R3): what a reader of a field finds in a string of fields, and the two formats that read back as they
were written, the Welt frames (R307, R310, R320, R408) and the session table entries (R54).
-/
namespace Sys2Proof.Proofs
open Sys2Proof Sys2Proof.Machine

/-! ### Reading one field of a string -/

@[simp] theorem length_zeros (k : Nat) : (zeros k).length = k := List.length_replicate

/-- A string of its own length is not cut or filled. -/
theorem fit_of_length {b : Bytes} {k : Nat} (h : b.length = k) : fit b k = b := by
  simp [fit, h, zeros, List.take_of_length_le (Nat.le_of_eq h)]

/-- A shorter string is filled with zeros. -/
theorem fit_of_le {b : Bytes} {k : Nat} (h : b.length ≤ k) : fit b k = b ++ zeros (k - b.length) := by
  rw [fit, List.take_of_length_le h]

/-- A slice past a field begins behind it. -/
theorem slice_skip (a c : Bytes) {o : Nat} (k : Nat) (h : a.length ≤ o) : slice (a ++ c) o k = slice c (o - a.length) k := by
  simp only [slice, List.drop_append, List.drop_of_length_le h, List.nil_append]

/-- A slice of a field's own width is the field. -/
theorem slice_here {a : Bytes} (c : Bytes) {k : Nat} (h : a.length = k) : slice (a ++ c) 0 k = a := by
  subst h; simp [slice]

theorem slice_skip_le (n j : Nat) (c : Bytes) {o : Nat} (k : Nat) (h : j ≤ o) : slice (le n j ++ c) o k = slice c (o - j) k := by
  simpa [length_le] using slice_skip (le n j) c k (by simpa [length_le] using h)

theorem slice_skip_zeros (j : Nat) (c : Bytes) {o : Nat} (k : Nat) (h : j ≤ o) : slice (zeros j ++ c) o k = slice c (o - j) k := by
  simpa using slice_skip (zeros j) c k (by simpa using h)

theorem slice_skip_fit (b : Bytes) (j : Nat) (c : Bytes) {o : Nat} (k : Nat) (h : j ≤ o) :
    slice (fit b j ++ c) o k = slice c (o - j) k := by
  simpa [length_fit] using slice_skip (fit b j) c k (by simpa [length_fit] using h)

theorem leAt_skip_le (n j : Nat) (c : Bytes) {o : Nat} (k : Nat) (h : j ≤ o) : leAt (le n j ++ c) o k = leAt c (o - j) k :=
  congrArg leNat (slice_skip_le n j c k h)

theorem leAt_skip_zeros (j : Nat) (c : Bytes) {o : Nat} (k : Nat) (h : j ≤ o) : leAt (zeros j ++ c) o k = leAt c (o - j) k :=
  congrArg leNat (slice_skip_zeros j c k h)

theorem leAt_skip_fit (b : Bytes) (j : Nat) (c : Bytes) {o : Nat} (k : Nat) (h : j ≤ o) :
    leAt (fit b j ++ c) o k = leAt c (o - j) k :=
  congrArg leNat (slice_skip_fit b j c k h)

/-- A number that fits its field is read back. -/
theorem leAt_here {n k : Nat} (c : Bytes) (h : n < 256 ^ k) : leAt (le n k ++ c) 0 k = n := by
  rw [leAt, slice_here c (length_le n k), leNat_le, Nat.mod_eq_of_lt h]

theorem leAt_here_last {n k : Nat} (h : n < 256 ^ k) : leAt (le n k) 0 k = n := by
  simpa using leAt_here [] h

theorem slice_here_fit (a c : Bytes) (k : Nat) : slice (fit a k ++ c) 0 k = fit a k := slice_here c (length_fit a k)

theorem slice_here_fit_last (a : Bytes) (k : Nat) : slice (fit a k) 0 k = fit a k := by
  simpa using slice_here_fit a [] k

theorem slice_whole (a : Bytes) : slice a 0 a.length = a := by simp [slice]

/-! ### Session table entries (R54) -/

theorem stateNo_lt (x : SesState) : stateNo x < 256 := by cases x <;> decide

theorem stateOfNo_stateNo (x : SesState) : stateOfNo (stateNo x) = x := by cases x <;> rfl

/-- The seven flag bits of byte 3 are read back one by one. -/
theorem flags_read : ∀ a b c d e f g : Bool,
    let n := placeB a 0 + placeB b 1 + placeB c 2 + placeB d 3 + placeB e 4 + placeB f 5 + placeB g 6
    n < 256 ∧ bit n 0 = a ∧ bit n 1 = b ∧ bit n 2 = c ∧ bit n 3 = d ∧ bit n 4 = e ∧ bit n 5 = f ∧ bit n 6 = g := by
  decide

/-- Byte 5 holds two classes. -/
theorem classes_read {a b : Nat} (ha : a < 4) (hb : b < 4) :
    a + b * 4 < 256 ∧ (a + b * 4) % 4 = a ∧ field (a + b * 4) 2 2 = b := by
  unfold field; omega

/-- Byte 6 holds the place and TURN_ADMITTED. -/
theorem place_read : ∀ a < 4, ∀ b : Bool,
    a + placeB b 2 < 256 ∧ (a + placeB b 2) % 4 = a ∧ bit (a + placeB b 2) 2 = b := by
  decide

theorem length_entryBytes (x : Sess) : (entryBytes x).length = 256 := by
  unfold entryBytes
  simp only [List.length_append, length_le, length_zeros, length_fit, Nat.reduceAdd]

/-- Reading an entry's bytes gives the entry, RETAINED counting the rows it keeps. -/
theorem readEntry_entryBytes {x : Sess} (hw : x.e.wf = true) (hr : retained x.st.rows < 2 ^ 32) :
    readEntry (entryBytes x) = { x.e with retained := retained x.st.rows } := by
  unfold entryBytes
  generalize retained x.st.rows = n at hr ⊢
  generalize x.e = e at hw ⊢
  simp only [Entry.wf, Bool.and_eq_true, decide_eq_true_eq, beq_iff_eq] at hw
  obtain ⟨hfl, f0, f1, f2, f3, f4, f5, f6⟩ :=
    flags_read e.pinned e.kindled e.suppressLate e.expired e.moved e.restored e.reclaimed
  obtain ⟨hcl, c0, c1⟩ := classes_read (a := e.cls) (b := e.turnCls) (by omega) (by omega)
  obtain ⟨hpl, p0, p1⟩ := place_read e.place (by omega) e.turnAdmitted
  have hs := stateNo_lt e.state
  have hp := stateNo_lt e.prior
  have hh := e.handle.isLt
  simp (disch := omega) only [readEntry, List.append_assoc, leAt_skip_le, leAt_skip_zeros, leAt_skip_fit, slice_skip_le,
    slice_skip_zeros, slice_skip_fit, leAt_here, slice_here_fit, Nat.reduceSub, Nat.mod_eq_of_lt, stateOfNo_stateNo,
    f0, f1, f2, f3, f4, f5, f6, c0, c1, p0, p1, BitVec.ofNat_toNat, BitVec.setWidth_eq]
  simp (disch := omega) only [fit_of_length]

/-! ### Welt frames (R307, R310, R320, R408) -/

theorem length_hdrBytes (kind len : Nat) (h : FrameHdr) : (hdrBytes kind len h).length = 16 := by
  simp only [hdrBytes, List.length_append, length_le, length_zeros, Nat.reduceAdd]

theorem leAt_skip_hdr (kind len : Nat) (h : FrameHdr) (c : Bytes) {o : Nat} (k : Nat) (ho : 16 ≤ o) :
    leAt (hdrBytes kind len h ++ c) o k = leAt c (o - 16) k := by
  simpa only [leAt, length_hdrBytes] using congrArg leNat (slice_skip (hdrBytes kind len h) c k (by rwa [length_hdrBytes]))

theorem slice_skip_hdr (kind len : Nat) (h : FrameHdr) (c : Bytes) {o : Nat} (k : Nat) (ho : 16 ≤ o) :
    slice (hdrBytes kind len h ++ c) o k = slice c (o - 16) k := by
  simpa only [length_hdrBytes] using slice_skip (hdrBytes kind len h) c k (by rwa [length_hdrBytes])

/-- KIND is the first byte. -/
theorem kind_hdrBytes {kind : Nat} (len : Nat) (h : FrameHdr) (c : Bytes) (hk : kind < 256) :
    leAt (hdrBytes kind len h ++ c) 0 1 = kind := by
  simp only [hdrBytes, List.append_assoc]
  exact leAt_here _ hk

/-- The header is read back from the front of a frame. -/
theorem readHdr_hdrBytes (kind len : Nat) {h : FrameHdr} (c : Bytes) (hw : h.wf = true) : readHdr (hdrBytes kind len h ++ c) = h := by
  simp only [FrameHdr.wf, Bool.and_eq_true, decide_eq_true_eq] at hw
  simp (disch := omega) only [readHdr, hdrBytes, List.append_assoc, leAt_skip_le, leAt_here, Nat.reduceSub, Nat.mod_eq_of_lt]

/-- What follows the 48 bytes of a request's headers (R320). -/
def requestTail (r : Request) : Bytes :=
  if r.op = 2 then le r.mask 16 ++ fit r.data 128 else if r.op = 3 then r.data
  else if atomicOp r.op then le r.a.toNat 8 ++ le r.b.toNat 8 else []

theorem length_requestTail (r : Request) : 48 + (requestTail r).length = frameLen (.req r) := by
  simp only [requestTail, frameLen]
  by_cases h2 : r.op = 2
  · rw [if_pos h2, if_neg (by omega : ¬ r.op = 1), if_pos h2]
    simp only [List.length_append, length_le, length_fit, Nat.reduceAdd]
  by_cases h3 : r.op = 3
  · rw [if_neg h2, if_pos h3, if_neg (by omega : ¬ r.op = 1), if_neg h2, if_pos h3]
  by_cases ha : atomicOp r.op = true
  · have h1 : ¬ r.op = 1 := fun e => absurd (e ▸ ha) (by decide)
    rw [if_neg h2, if_neg h3, if_pos ha, if_neg h1, if_neg h2, if_neg h3, if_pos ha]
    simp only [List.length_append, length_le, Nat.reduceAdd]
  · rw [if_neg h2, if_neg h3, if_neg ha, if_neg h2, if_neg h3, if_neg ha]
    exact (ite_self 48).symm

/-- The operands are read back from what follows the headers: each where the operation has it, and nothing elsewhere. -/
theorem requestTail_read {r : Request} (hw : r.wf = true) :
    (if r.op = 2 then leAt (requestTail r) 0 16 else 0) = r.mask ∧
    (if r.op = 2 then slice (requestTail r) 16 128
      else if r.op = 3 then slice (requestTail r) 0 (if r.op = 3 then r.data.length else 0) else []) = r.data ∧
    (if atomicOp r.op then BitVec.ofNat 64 (leAt (requestTail r) 0 8) else 0) = r.a ∧
    (if atomicOp r.op then BitVec.ofNat 64 (leAt (requestTail r) 8 8) else 0) = r.b := by
  have ha := r.a.isLt
  have hb := r.b.isLt
  simp only [Request.wf, Bool.and_eq_true, Bool.or_eq_true, decide_eq_true_eq, beq_iff_eq] at hw
  obtain ⟨⟨⟨⟨_, hmask⟩, hm⟩, hd⟩, hab⟩ := hw
  unfold requestTail
  by_cases h2 : r.op = 2
  · have hn : atomicOp r.op = false := by rw [h2]; rfl
    rw [if_pos h2, beq_iff_eq] at hd
    obtain ⟨ra, rb⟩ := hab.resolve_left (by omega)
    simp only [if_pos h2, hn, ra, rb]
    have hs : slice (le r.mask 16 ++ fit r.data 128) 16 128 = r.data := by
      rw [slice_skip_le _ _ _ _ (Nat.le_refl _), fit_of_length hd, ← hd]; exact slice_whole _
    exact ⟨leAt_here _ (by omega), hs, rfl, rfl⟩
  · have rm := hm.resolve_left h2
    by_cases h3 : r.op = 3
    · have hn : atomicOp r.op = false := by rw [h3]; rfl
      obtain ⟨ra, rb⟩ := hab.resolve_left (by omega)
      simp only [if_neg h2, if_pos h3, hn, rm, ra, rb]
      exact ⟨trivial, slice_whole _, rfl, rfl⟩
    · rw [if_neg h2, if_neg h3] at hd
      have rd : r.data = [] := List.isEmpty_iff.mp hd
      simp only [if_neg h2, if_neg h3, rm, rd, true_and]
      by_cases hn : atomicOp r.op = true
      · simp (disch := omega) only [hn, if_true, leAt_here, leAt_skip_le, leAt_here_last, Nat.reduceSub, BitVec.ofNat_toNat,
          BitVec.setWidth_eq, true_and]
      · obtain ⟨ra, rb⟩ := hab.resolve_left (by simpa [atomicOp] using hn)
        simp only [if_neg hn, ra, rb, true_and]

/-- The header of a well-formed request is well formed. -/
theorem hdr_wf_of_request {r : Request} (hw : r.wf = true) : r.hdr.wf = true := by
  simp only [Request.wf, Bool.and_eq_true, and_assoc] at hw
  exact hw.1

/-- The header of a well-formed response is well formed. -/
theorem hdr_wf_of_response {r : Response} (hw : r.wf = true) : r.hdr.wf = true := by
  simp only [Response.wf, Bool.and_eq_true, and_assoc] at hw
  exact hw.1

/-- A request is read back. -/
theorem readFrame_request {r : Request} (hw : r.wf = true) : readFrame (frameBytes (.req r)) = some (.req r) := by
  obtain ⟨hm, hd, ha, hb⟩ := requestTail_read hw
  have hh := hdr_wf_of_request hw
  simp only [Request.wf, Bool.and_eq_true, decide_eq_true_eq, beq_iff_eq] at hw
  obtain ⟨⟨⟨⟨hf, _⟩, _⟩, hdata⟩, _⟩ := hw
  have hlen : (if r.op = 3 then r.data.length else 0) < 256 ^ 2 := by
    by_cases h3 : r.op = 3
    · simp only [h3, Nat.reduceEqDiff, if_true, if_false, Bool.and_eq_true, decide_eq_true_eq] at hdata ⊢; omega
    · rw [if_neg h3]; omega
  simp only [frameBytes]
  rw [← requestTail, fit_of_length (k := frameLen (.req r))]
  rotate_left
  · simp only [← length_requestTail, List.length_append, length_hdrBytes, length_le, length_zeros, Nat.reduceAdd]
  unfold readFrame
  simp (disch := omega) only [List.append_assoc, kind_hdrBytes, readHdr_hdrBytes _ _ _ hh, leAt_skip_hdr, slice_skip_hdr,
    leAt_skip_le, leAt_skip_zeros, slice_skip_le, slice_skip_zeros, leAt_here, leAt_here _ hlen, Nat.reduceSub, hm, hd, ha, hb]

/-- A response is read back, where the data are what its LENGTH says. -/
theorem readFrame_response {r : Response} (hw : r.wf = true) (hl : 32 + r.data.length = frameLen (.rsp r)) :
    readFrame (frameBytes (.rsp r)) = some (.rsp r) := by
  have hh := hdr_wf_of_response hw
  simp only [Response.wf, Bool.and_eq_true, decide_eq_true_eq, beq_iff_eq] at hw
  simp only [frameBytes]
  rw [fit_of_length (k := frameLen (.rsp r))]
  rotate_left
  · simp only [← hl, List.length_append, length_hdrBytes, length_le, length_zeros, Nat.reduceAdd]
  unfold readFrame
  rw [List.drop_left' (by simp only [List.length_append, length_hdrBytes, length_le, length_zeros, Nat.reduceAdd])]
  simp (disch := omega) only [List.append_assoc, kind_hdrBytes, readHdr_hdrBytes _ _ _ hh, leAt_skip_hdr, leAt_skip_le,
    leAt_skip_zeros, leAt_here, Nat.reduceSub]

/-- Reading bytes one by one is reading the run of them. -/
theorem map_leAt (b : Bytes) (o k : Nat) (h : o + k ≤ b.length) :
    (List.range k).map (fun i => leAt b (o + i) 1) = (slice b o k).map BitVec.toNat := by
  have hlen : ((List.range k).map fun i => leAt b (o + i) 1).length = ((slice b o k).map BitVec.toNat).length := by
    simp only [slice, List.length_map, List.length_range, List.length_take, List.length_drop]
    omega
  refine List.ext_getElem hlen fun i hi _ => ?_
  have hi : i < k := by simpa only [List.length_map, List.length_range] using hi
  simp only [List.getElem_map, List.getElem_range, slice, leAt, List.getElem_take, List.getElem_drop]
  rw [List.drop_eq_getElem_cons (by omega), List.take_succ_cons, List.take_zero]
  rfl

/-- Numbers of one byte, laid out in a field that holds them, are read back. -/
theorem bytes_read {l : List Nat} {k : Nat} (hk : l.length ≤ k) (hl : l.all (· < 256) = true) :
    ((fit (l.map (BitVec.ofNat 8)) k).map BitVec.toNat).take l.length = l := by
  rw [List.all_eq_true] at hl
  have hm : (l.map (BitVec.ofNat 8)).map BitVec.toNat = l := by
    rw [List.map_map]
    exact (List.map_congr_left fun x hx => Nat.mod_eq_of_lt (by simpa using hl x hx)).trans (List.map_id l)
  rw [fit_of_le (by simpa using hk), List.map_append, hm, List.take_left]

/-- The same where they fill the field. -/
theorem bytes_read_full {l : List Nat} {k : Nat} (hk : l.length = k) (hl : l.all (· < 256) = true) :
    (fit (l.map (BitVec.ofNat 8)) k).map BitVec.toNat = l := by
  have h := bytes_read (Nat.le_of_eq hk) hl
  rwa [List.take_of_length_le (by simp [length_fit, hk])] at h

/-- A string of KIND 0x10 is read as TRAIN, its lists of bytes as runs (R307). -/
theorem readFrame_of_kind_train {b : Bytes} (hk : leAt b 0 1 = 0x10) (hb : 44 ≤ b.length) :
    readFrame b = some (.train (readHdr b)
      { versions := ((slice b 20 4).map BitVec.toNat).take (leAt b 16 1), laneMask := leAt b 17 1 % 16, node := leAt b 18 2 % 4096,
        coords := (slice b 24 4).map BitVec.toNat, link := leAt b 28 1, direction := leAt b 29 1, flags := leAt b 30 1,
        kind := leAt b 31 1, seedCheck := leAt b 32 4, dims := (slice b 36 4).map BitVec.toNat, incarnation := leAt b 40 4 }) := by
  unfold readFrame
  simp only [hk, map_leAt b 20 4 (by omega), map_leAt b 24 4 (by omega), map_leAt b 36 4 (by omega)]

/-- TRAIN is read back. -/
theorem readFrame_train {h : FrameHdr} {t : TrainMsg} (hh : h.wf = true) (hw : t.wf = true) :
    readFrame (frameBytes (.train h t)) = some (.train h t) := by
  simp only [TrainMsg.wf, Bool.and_eq_true, decide_eq_true_eq, beq_iff_eq, and_assoc] at hw
  obtain ⟨_, hv, hvb, hlane, hnode, hc, hcb, hlink, hdir, hflags, hkind, hseed, hd, hdb, hinc⟩ := hw
  simp only [frameBytes, frameLen]
  rw [fit_of_le (k := 64)]
  rotate_left
  · simp only [List.length_append, length_hdrBytes, length_le, length_fit, Nat.reduceAdd, Nat.reduceLeDiff]
  rw [readFrame_of_kind_train]
  · simp (disch := omega) only [List.append_assoc, readHdr_hdrBytes _ _ _ hh, leAt_skip_hdr, slice_skip_hdr, leAt_skip_le,
      leAt_skip_fit, slice_skip_le, slice_skip_fit, leAt_here, slice_here_fit, Nat.reduceSub, Nat.mod_eq_of_lt,
      bytes_read hv hvb, bytes_read_full hc hcb, bytes_read_full hd hdb]
  · simp only [List.append_assoc]
    exact kind_hdrBytes _ _ _ (by decide)
  · simp only [List.length_append, length_hdrBytes, length_le, length_fit, length_zeros, Nat.reduceAdd, Nat.reduceSub, Nat.reduceLeDiff]

/-- KEY is read back. -/
theorem readFrame_key {h : FrameHdr} {k : KeyMsg} (hh : h.wf = true) (hw : k.wf = true) :
    readFrame (frameBytes (.key h k)) = some (.key h k) := by
  simp only [KeyMsg.wf, Bool.and_eq_true, decide_eq_true_eq, beq_iff_eq] at hw
  obtain ⟨⟨⟨hs, hq⟩, hn⟩, ht⟩ := hw
  simp only [frameBytes, frameLen]
  rw [fit_of_length (k := 80)]
  rotate_left
  · simp only [List.length_append, length_hdrBytes, length_le, length_zeros, length_fit, Nat.reduceAdd]
  unfold readFrame
  simp (disch := omega) only [List.append_assoc, kind_hdrBytes, readHdr_hdrBytes _ _ _ hh, leAt_skip_hdr, slice_skip_hdr,
    leAt_skip_le, leAt_skip_zeros, slice_skip_le, slice_skip_zeros, slice_skip_fit, leAt_here, slice_here_fit, slice_here_fit_last,
    Nat.reduceSub]
  simp only [fit_of_length hn, fit_of_length ht]

/-- NODE_STATE is read back. -/
theorem readFrame_nodeState {h : FrameHdr} {node sq : Nat} (hh : h.wf = true) (hn : node < 4096) (hs : sq < 2 ^ 32) :
    readFrame (frameBytes (.nodeState h node sq)) = some (.nodeState h node sq) := by
  simp only [frameBytes, frameLen]
  rw [fit_of_length (k := 24)]
  rotate_left
  · simp only [List.length_append, length_hdrBytes, length_le, length_zeros, Nat.reduceAdd]
  unfold readFrame
  simp (disch := omega) only [List.append_assoc, kind_hdrBytes, readHdr_hdrBytes _ _ _ hh, leAt_skip_hdr, leAt_skip_le,
    leAt_skip_zeros, leAt_here, leAt_here_last, Nat.reduceSub, Nat.mod_eq_of_lt]

/-- Settles O9: each kind of frame reads back (R310). -/
theorem framesReadBackAsWritten : Obligations.FramesReadBackAsWritten := by
  intro f hw hd
  cases f with
  | req r => exact readFrame_request hw
  | rsp r => exact readFrame_response hw (hd r rfl)
  | train h t =>
    obtain ⟨hh, ht⟩ := Bool.and_eq_true_iff.mp hw
    exact readFrame_train hh ht
  | key h k =>
    obtain ⟨hh, hk⟩ := Bool.and_eq_true_iff.mp hw
    exact readFrame_key hh hk
  | nodeState h node sq =>
    simp only [Frame.wf, Bool.and_eq_true, decide_eq_true_eq] at hw
    obtain ⟨⟨hh, hn⟩, hs⟩ := hw
    exact readFrame_nodeState hh hn hs

/-- Settles O10: the 256 bytes of R54 hold every field of the entry. -/
theorem entriesReadBackAsWritten : Obligations.EntriesReadBackAsWritten :=
  fun x hw hr => ⟨length_entryBytes x, readEntry_entryBytes hw hr⟩

end Sys2Proof.Proofs
end

section
/-!
PROOFS. Register accesses: the registers that hold what is written (R7, R9, R491), the offsets where no register is defined
(R9), and the buffer of an event ring (R12).
-/
namespace Sys2Proof.Proofs
open Sys2Proof Sys2Proof.Machine

/-! ### Registers that hold their fields -/

/-- An offset whose write stores the fields of slot `k`, and whose read gives what the slot holds. -/
structure Stores (off : Nat) (k : Slot) : Prop where
  defined   : (regRow? off).isSome = true
  noAction  : ∀ acc v s, writeAction acc off v s = none
  noSelect  : ∀ acc v s, writeSelector acc off v s = none
  get_set   : ∀ w r, k.get (k.set w r) = w
  reads     : ∀ acc (w : Word) (s : State), regValue acc off { s with regs := k.set w s.regs } = w.toNat

/-- Every RW slot stores; it has no RWS field, and 0x400058 is none of them. -/
theorem stores_of_rwSlot {off : Nat} {k : Slot} (h : rwSlot? off = some k) : Stores off k ∧ k.rws = 0 ∧ rwsSlot? off = none := by
  unfold rwSlot? at h
  split at h
  all_goals cases h
  all_goals exact ⟨⟨rfl, fun _ _ _ => rfl, fun _ _ _ => rfl, fun _ _ => rfl, fun _ _ _ => rfl⟩, rfl, rfl⟩

/-- Every RWS slot stores, and no bit of its RWS fields is one of its RW fields. -/
theorem stores_of_rwsSlot {off : Nat} {k : Slot} (h : rwsSlot? off = some k) :
    Stores off k ∧ BitVec.ofNat 64 k.rw &&& BitVec.ofNat 64 k.rws = 0#64 ∧
      BitVec.ofNat 64 (k.rw + k.rws) = BitVec.ofNat 64 k.rw ||| BitVec.ofNat 64 k.rws := by
  unfold rwsSlot? at h
  split at h
  all_goals cases h
  all_goals exact ⟨⟨rfl, fun _ _ _ => rfl, fun _ _ _ => rfl, fun _ _ => rfl, fun _ _ _ => rfl⟩, rfl, rfl⟩

/-- A write to a register with RWS fields is its slot's, a VECTOR_PCT below its use apart (R188). -/
theorem registerWrite_rwsSlot {acc : Port} {off : Nat} {k : Slot} {v : Word} {s : State} (ho : opens acc off s = true)
    (h : rwsSlot? off = some k) :
    exec (.registerWrite acc off v) s = .next (after s
      (if off = 0x400058 && !s.img.isSealed && pctBelowUse v s then registerWarn acc off 3 s else writeSlot acc off k v s)) := by
  obtain ⟨hk, _, _⟩ := stores_of_rwsSlot h
  simp only [registerWrite_open ho hk.defined, writeDefined, hk.noAction, hk.noSelect, h]

/-- A write to a register of RW fields replaces them, and leaves its reserved bits zero. -/
theorem registerWrite_rwSlot {acc : Port} {off : Nat} {k : Slot} {v : Word} {s : State} (ho : opens acc off s = true)
    (h : rwSlot? off = some k) :
    exec (.registerWrite acc off v) s = .next (after s { s with regs := k.set (v &&& BitVec.ofNat 64 k.rw) s.regs }) := by
  obtain ⟨hk, hz, hn⟩ := stores_of_rwSlot h
  simp only [registerWrite_open ho hk.defined, writeDefined, hk.noAction, hk.noSelect, hn, h]
  simp [writeSlot, Slot.value, hz]

/-- Before the seal a slot takes all its fields as written. -/
theorem writeSlot_open {acc : Port} {off : Nat} {k : Slot} {v : Word} {s : State} (hs : s.img.isSealed = false) :
    writeSlot acc off k v s =
      { s with regs := k.set ((v &&& BitVec.ofNat 64 k.rw) ||| (v &&& BitVec.ofNat 64 k.rws)) s.regs } := by
  simp only [writeSlot, Slot.value, hs, Bool.false_and, Bool.false_eq_true, if_false]

/-- Under the seal it keeps its RWS fields, and a write that would have changed one is logged. -/
theorem writeSlot_sealed {acc : Port} {off : Nat} {k : Slot} {v : Word} {s : State} (hs : s.img.isSealed = true) :
    writeSlot acc off k v s = (
      let t : State := { s with
        regs := k.set ((v &&& BitVec.ofNat 64 k.rw) ||| (k.get s.regs &&& BitVec.ofNat 64 k.rws)) s.regs }
      if k.get s.regs &&& BitVec.ofNat 64 k.rws = v &&& BitVec.ofNat 64 k.rws then t else registerWarn acc off 1 t) := by
  simp only [writeSlot, Slot.value, hs, Bool.true_and, if_true, ne_eq, decide_not, Bool.not_eq_true', decide_eq_false_iff_not,
    ite_not]

/-- Settles O11, by the two tables of registers that hold their fields. -/
theorem storageRegistersHoldTheirFields : Obligations.StorageRegistersHoldTheirFields := by
  intro acc off v s ho
  refine ⟨fun k h => ?_, fun k h => ?_⟩
  · obtain ⟨hk, _, _⟩ := stores_of_rwSlot h
    exact ⟨registerWrite_rwSlot ho h, hk.get_set .., hk.reads ..⟩
  · obtain ⟨hk, hd, hf⟩ := stores_of_rwsSlot h
    intro fields rws kept
    refine ⟨fun hs hp => ?_, fun hs he hp => ?_, fun hs => ?_⟩
    · have hn : (off = 0x400058 && !s.img.isSealed && pctBelowUse v s) = false := by
        by_cases he : off = 0x400058
        · simp [hp he]
        · simp [he]
      have hv : (v &&& BitVec.ofNat 64 k.rw) ||| (v &&& BitVec.ofNat 64 k.rws) = v &&& fields := by
        rw [← BitVec.and_or_distrib_left, ← hf]
      refine ⟨?_, hk.reads ..⟩
      rw [registerWrite_rwsSlot ho h, hn, writeSlot_open hs, hv]
      rfl
    · rw [registerWrite_rwsSlot ho h]
      simp [hs, he, hp]
    · have hkeep : kept &&& rws = k.get s.regs &&& rws := by
        simp only [kept, rws, BitVec.and_or_distrib_right, BitVec.and_assoc, hd, BitVec.and_self, BitVec.and_zero, BitVec.zero_or]
      rw [registerWrite_rwsSlot ho h, writeSlot_sealed hs, hk.get_set, hkeep, hs]
      simp [kept, rws]

/-! ### Offsets without a register -/

/-- A register warning is an event, and changes nothing but the host port and its queues. -/
theorem sbh_registerWarn (acc : Port) (off why : Nat) (s : State) : SameButHost s (registerWarn acc off why s) := by
  unfold registerWarn
  split
  · exact sbh_logTo ..
  · exact sbh_logAll ..

/-- Settles O17: both kinds of access answer by the missing row alone. -/
theorem undefinedOffsetsReadZeroAndWarn : Obligations.UndefinedOffsetsReadZeroAndWarn := by
  intro acc off v s hr
  have hw := sbh_registerWarn acc off 2 s
  refine ⟨by simp only [readRegister, hr], fun hp => ?_, by rw [hw], by rw [hw]⟩
  simp [exec, execRegisterWrite, run, writeRegister, hr, hp]

/-! ### The buffer of an event ring (R12) -/

section
variable {e : EventRec} {b : EvBuf}

/-- A buffer with room takes the record. -/
theorem hold_room (h : b.held.length < 256) : b.hold e = { b with held := b.held ++ [e] } := if_pos h

/-- A full one lets a record of severity 3 displace the oldest of lower severity. -/
theorem hold_displaces {i : Nat} (hf : ¬ b.held.length < 256) (he : e.severity = 3)
    (hi : b.held.findIdx? (·.severity < 3) = some i) :
    b.hold e = { b with held := b.held.eraseIdx i ++ [e], lost := b.lost + 1 } := by
  simp only [EvBuf.hold, if_neg hf, if_pos he, hi]

/-- Where there is none, it takes a reserve slot. -/
theorem hold_reserve (hf : ¬ b.held.length < 256) (he : e.severity = 3) (hi : b.held.findIdx? (·.severity < 3) = none)
    (hr : b.reserve.length < 4) : b.hold e = { b with reserve := b.reserve ++ [e] } := by
  simp only [EvBuf.hold, if_neg hf, if_pos he, hi, if_pos hr]

/-- Without a slot either, it is lost. -/
theorem hold_no_slot (hf : ¬ b.held.length < 256) (he : e.severity = 3) (hi : b.held.findIdx? (·.severity < 3) = none)
    (hr : ¬ b.reserve.length < 4) : b.hold e = { b with lost := b.lost + 1 } := by
  simp only [EvBuf.hold, if_neg hf, if_pos he, hi, if_neg hr]

/-- A full buffer loses a record of another severity. -/
theorem hold_lost (hf : ¬ b.held.length < 256) (he : e.severity ≠ 3) : b.hold e = { b with lost := b.lost + 1 } := by
  simp only [EvBuf.hold, if_neg hf, if_neg he]

end

/-- Leaving out a record of lower severity keeps those of severity 3. -/
theorem mem_eraseIdx_of_severity {l : List EventRec} {i : Nat} {x : EventRec} (hi : l.findIdx? (·.severity < 3) = some i)
    (hx : x ∈ l) (h3 : 3 ≤ x.severity) : x ∈ l.eraseIdx i := by
  obtain ⟨hl, hp, _⟩ := List.findIdx?_eq_some_iff_getElem.mp hi
  obtain ⟨j, hj, rfl⟩ := List.getElem_of_mem hx
  have hne : j ≠ i := by
    rintro rfl
    simp only [decide_eq_true_eq] at hp
    omega
  exact List.mem_eraseIdx_iff_getElem.mpr ⟨j, hj, hne, rfl⟩

/-- Settles O22, by what taking a record can do: room, a record displaced, a reserve slot, a loss. -/
theorem bufferedEventsKeepSeverity3 : Obligations.BufferedEventsKeepSeverity3 := by
  intro e b hh hr
  by_cases hf : b.held.length < 256
  · rw [hold_room hf]
    refine ⟨by simp only [List.length_append, List.length_singleton]; omega, hr,
      by simp only [List.length_append, List.length_singleton]; omega, fun x _ hx => ?_, fun _ _ => by simp, fun h => by omega⟩
    rcases List.mem_append.mp hx with hx | hx <;> simp [hx]
  by_cases he : e.severity = 3
  · cases hi : b.held.findIdx? (·.severity < 3) with
    | some i =>
      have hl := List.length_eraseIdx_of_lt (List.findIdx?_eq_some_iff_getElem.mp hi).1
      rw [hold_displaces hf he hi]
      simp only [List.length_append, hl, List.length_singleton]
      refine ⟨by omega, hr, by omega, fun x h3 hx => ?_, fun _ _ => by simp, fun _ h => absurd he h⟩
      rcases List.mem_append.mp hx with hx | hx
      · simp [mem_eraseIdx_of_severity hi hx h3]
      · simp [hx]
    | none =>
      by_cases hres : b.reserve.length < 4
      · rw [hold_reserve hf he hi hres]
        refine ⟨hh, by simp only [List.length_append, List.length_singleton]; omega,
          by simp only [List.length_append, List.length_singleton]; omega, fun x _ hx => ?_, fun _ _ => by simp, fun _ h => absurd he h⟩
        rcases List.mem_append.mp hx with hx | hx <;> simp [hx]
      · have hnone : ¬ ∃ x ∈ b.held, x.severity < 3 := by simpa using List.findIdx?_eq_none_iff.mp hi
        rw [hold_no_slot hf he hi hres]
        exact ⟨hh, hr, rfl, fun x _ hx => hx,
          fun _ h => absurd h (by simp only [hres, hf, hnone, or_self, not_false_iff]), fun _ h => absurd he h⟩
  · rw [hold_lost hf he]
    exact ⟨hh, hr, rfl, fun x _ hx => hx, fun h => absurd h he, fun _ _ => ⟨rfl, rfl⟩⟩

end Sys2Proof.Proofs
end

section
/-!
PROOFS. What the commands of the host port and its clocks leave as it was (R12, R243 to R248, R266, R267, R289, R292, R308): each
changes of the clock, the host port and the shapers only what it names, and the limit counts and marks.
-/
namespace Sys2Proof.Proofs
open Sys2Proof Sys2Proof.Machine

/-- `t` is `s` but for the limit counts and marks, and of the clock, the host port and the shapers those that are named. -/
def SameBut (clk hst shp : Bool) (s t : State) : Prop :=
  t = { s with clk := cond clk t.clk s.clk, hst := cond hst t.hst s.hst, shp := cond shp t.shp s.shp, lim := t.lim }

namespace SameBut
variable {c h p : Bool} {s t u : State}

theorem refl (s : State) : SameBut c h p s s := by cases c <;> cases h <;> cases p <;> rfl

theorem trans (hs : SameBut c h p s t) (ht : SameBut c h p t u) : SameBut c h p s u := by
  unfold SameBut at *
  rw [ht, hs]
  cases c <;> cases h <;> cases p <;> rfl

/-- The waiting commands and the marks of R482 are brought up to date. -/
theorem after (ht : SameBut c h p s t) : SameBut c h p s (after s t) := by
  unfold SameBut at *
  rw [ht]
  cases c <;> cases h <;> cases p <;> rfl

/-- Events and frames change the host port and the shapers. -/
theorem of_host (ht : SameButHost s t) : SameBut c true true s t := by
  unfold SameBut SameButHost at *
  rw [ht]
  cases c <;> rfl

theorem ite {b : Prop} [Decidable b] (ht : b → SameBut c h p s t) (hu : ¬ b → SameBut c h p s u) :
    SameBut c h p s (if b then t else u) := by
  split
  · next hb => exact ht hb
  · next hb => exact hu hb

theorem foldl {α : Type} {f : State → α → State} (hf : ∀ s a, SameBut c h p s (f s a)) (l : List α) (s : State) :
    SameBut c h p s (l.foldl f s) := by
  induction l generalizing s with
  | nil => exact refl s
  | cons a l ih => exact (hf s a).trans (ih _)

/-- A command that answers a next state leaves what its meaning leaves. -/
theorem run {f : State → State} (hf : SameBut c h p s (f s)) : ∀ t, Machine.run f s = .next t → SameBut c h p s t := by
  intro t ht
  cases ht
  exact hf.after

theorem runOn {b : Bool} {f : State → State} (hf : SameBut c h p s (f s)) :
    ∀ t, Machine.runOn b f s = .next t → SameBut c h p s t := by
  intro t ht
  rw [(runOn_cases ht).2]
  exact hf.after

end SameBut

/-! ### One frame per operation -/

section
variable {c h p : Bool}

theorem frame_advance (t : Nat) (s : State) : SameBut true h p s (advance t s) := by cases h <;> cases p <;> rfl

theorem frame_modClk (f : Clock → Clock) (s : State) : SameBut true h p s (modClk f s) := by cases h <;> cases p <;> rfl

theorem frame_modQp (q : Nat) (f : Qp → Qp) (s : State) : SameBut c true p s (modQp q f s) := by cases c <;> cases p <;> rfl

theorem frame_modPort (q : Nat) (f : EPort → EPort) (s : State) : SameBut c h true s (modPort q f s) := by
  cases c <;> cases h <;> rfl

theorem frame_pushCtl (o : Out) (n : Nat) (s : State) : SameBut c h true s (pushCtl o n s) := frame_modPort ..

theorem frame_onPtp (x : PtpHdr) {f : State → State} {s : State} (hf : SameBut c h p s (f s)) : SameBut c h p s (onPtp x f s) :=
  .ite (fun _ => hf) fun _ => .refl s

theorem frame_moveQp (q a b : Nat) (s : State) : SameBut c true p s (moveQp q a b s) :=
  .ite (fun _ => frame_modQp ..) fun _ => .refl s

theorem frame_delayResp (q rx : Nat) (s : State) : SameBut true h p s (delayResp q rx s) := by
  unfold delayResp
  split
  · exact .ite (fun _ => .refl s) fun _ => (frame_modClk ..).trans (.ite (fun _ => frame_modClk ..) fun _ => .refl _)
  · exact .refl s

theorem frame_hostDown (s : State) : SameBut c true p s (hostDown s) := by
  unfold hostDown
  split
  · cases c <;> cases p <;> rfl
  · exact .refl s

theorem frame_hostUp (s : State) : SameBut c true true s (hostUp s) := by
  unfold hostUp
  split
  · exact .refl s
  · cases c <;> rfl

theorem frame_pfcPause (x y : Nat) (s : State) : SameBut c true p s (pfcPause x y s) := by cases c <;> cases p <;> rfl

theorem frame_qpTimeout (q a : Nat) (s : State) : SameBut true true p s (qpTimeout q a s) :=
  .ite (fun _ => (frame_advance ..).trans (frame_moveQp ..)) fun _ => .refl s

theorem frame_syncGates (q : Nat) (s : State) : SameBut c h true s (syncGates q s) := by
  unfold syncGates
  exact (frame_modPort ..).trans (frame_modPort ..)

theorem frame_gateEntry (q : Nat) (s : State) : SameBut true h true s (gateEntry q s) := by
  unfold gateEntry
  split
  · exact (frame_advance ..).trans (frame_syncGates ..)
  · exact .refl s

theorem frame_countHist (k : Nat × Nat × Nat) (v : Nat) (s : State) : SameBut c h true s (countHist k v s) := by
  unfold countHist
  split
  · exact .refl s
  · cases c <;> cases h <;> rfl

/-- Sampling writes the histograms and their count, at the time of the sample. -/
theorem frame_histSample (s : State) : SameBut true h true s (histSample s) := by
  have hnow (n : Nat) (v : State) : SameBut true h true v { v with shp := { v.shp with lastSample := n } } := by cases h <;> rfl
  have hcount (v : State) : SameBut true h true v { v with shp := { v.shp with samples := v.shp.samples + 1 } } := by cases h <;> rfl
  unfold histSample
  refine ((frame_advance ..).trans (hnow ..)).trans (.ite (fun _ => .refl _) fun _ => ?_)
  refine ((hcount _).trans (.foldl (fun v x => .foldl (fun v q => ?_) _ _) _ _)).trans (.foldl (fun v x => ?_) _ _)
  · split
    · exact .refl v
    · exact (frame_countHist ..).trans (frame_countHist ..)
  · split
    · exact .refl v
    · exact (frame_countHist ..).trans (frame_countHist ..)

theorem frame_cmRequest (b : Bytes) (r x y : Nat) (s : State) : SameBut c true true s (cmRequest b r x y s) := by
  unfold cmRequest
  refine .ite (fun _ => .refl s) fun _ => .ite (fun _ => frame_pushCtl ..) fun _ => .ite (fun _ => frame_pushCtl ..) fun _ =>
    .ite (fun _ => ?_) fun _ => .ite (fun _ => frame_pushCtl ..) fun _ => ?_
  · exact (SameBut.of_host (sbh_logAll ..)).trans (frame_pushCtl ..)
  · exact (frame_modQp ..).trans (frame_pushCtl ..)

theorem frame_holdover (s : State) : SameBut true true true s (holdover s) :=
  .ite (fun _ => ((frame_advance ..).trans (frame_modClk ..)).trans (.of_host (sbh_logAll ..))) fun _ => .refl s

end

/-- Settles O25: each command's meaning is framed by the operations it is made of. -/
theorem hostPortFrames : Obligations.HostPortFrames := by
  intro s k1 k2 k3 k4 k5 k6 k7
  refine ⟨fun x y z v => ?_, fun x y => ?_, fun x y => ?_, ?_, fun x y => ?_, fun x => ?_, fun x => ?_, fun x => ?_, fun x y => ?_,
    fun x y => ?_, fun x => ?_, fun x => ?_, fun x => ?_, fun x => ?_, fun x => ?_, ?_, ?_, fun x y => ?_, ?_, fun x y z => ?_, ?_⟩
  · exact SameBut.run (c := true) (h := false) (p := false) (frame_onPtp _ (frame_modClk ..))
  · exact SameBut.run (c := true) (h := false) (p := false) (frame_onPtp _ (frame_delayResp ..))
  · exact SameBut.run (c := true) (h := false) (p := false) (frame_onPtp _ (frame_modClk ..))
  · exact SameBut.run (c := false) (h := true) (p := false) (frame_hostDown s)
  · exact SameBut.run (c := false) (h := true) (p := false) (frame_pfcPause x y s)
  · exact SameBut.run (c := false) (h := true) (p := false) (.ite (fun _ => frame_modQp ..) fun _ => .refl s)
  · exact SameBut.run (c := false) (h := true) (p := false) (frame_moveQp x 1 2 s)
  · exact SameBut.run (c := false) (h := true) (p := false) (frame_moveQp x 3 0 s)
  · exact SameBut.run (c := false) (h := true) (p := false) (.ite (fun _ => .refl s) fun _ => frame_modQp ..)
  · exact SameBut.run (c := false) (h := false) (p := true) (.ite (fun _ => frame_pushCtl ..) fun _ => .refl s)
  · exact SameBut.runOn (c := false) (h := false) (p := true) (.ite (fun _ => frame_modPort ..) fun _ => .refl s)
  · exact SameBut.run (c := true) (h := true) (p := false)
      (.ite (fun _ => (frame_advance ..).trans (frame_modQp ..)) fun _ => .refl s)
  · exact SameBut.run (c := true) (h := true) (p := false) (frame_qpTimeout x 1 s)
  · exact SameBut.run (c := true) (h := true) (p := false) (frame_qpTimeout x 3 s)
  · exact SameBut.runOn (c := true) (h := false) (p := true) (frame_gateEntry x s)
  · exact SameBut.run (c := true) (h := false) (p := true)
      (.ite (fun _ => .refl s) fun _ => (frame_modClk ..).trans (frame_pushCtl ..))
  · exact SameBut.run (c := true) (h := false) (p := true) (frame_histSample s)
  · simp only [exec, execEventRingDrain]
    refine SameBut.run (c := false) (h := true) (p := true) ?_
    split
    · exact .refl s
    · exact (frame_modQp ..).trans (.of_host (sbh_deliverEvents ..))
  · exact SameBut.run (c := false) (h := true) (p := true) (frame_hostUp s)
  · exact SameBut.run (c := false) (h := true) (p := true) (frame_cmRequest ..)
  · exact SameBut.run (c := true) (h := true) (p := true) (frame_holdover s)

end Sys2Proof.Proofs
end

section
/-!
PROOFS. The PTP clock, the transmitter, register writes and the owner port's transfers (R7, R9, R51, R266, R267, R270, R400,
R489): each command's own effect, by the state that its meaning leaves.
-/
namespace Sys2Proof.Proofs
open Sys2Proof Sys2Proof.Machine

/-- A command answers what its meaning leaves. -/
theorem run_eq {f : State → State} {s t : State} (h : f s = t) : run f s = .next (after s t) := by
  rw [run_next, h]

theorem runOn_eq {b : Bool} {f : State → State} {s t : State} (hb : b = true) (h : f s = t) : runOn b f s = .next (after s t) := by
  rw [runOn_next hb, h]

/-! ### The PTP clock (R266, R267) -/

/-- A PTP message of the configured domain and transport has its effect. -/
theorem onPtp_mine {x : PtpHdr} {f : State → State} {s : State} (h : ptpMine s x = true) : onPtp x f s = f s := if_pos h

/-- A Sync of two steps from the followed master is held. -/
theorem syncArrives_followed {sq rx src : Nat} {s : State} (h : followed s.clk src = true) :
    syncArrives sq true rx src s = { s with clk := { s.clk with pendSync := some (sq, rx) } } := by
  simp only [syncArrives, modClk, Bool.not_true, Bool.false_eq_true, if_false, h, if_true]

/-- The Follow_Up of the held Sync measures the offset of a clock that has been locked. -/
theorem followUp_held {sq origin rx : Nat} {s : State} (hp : s.clk.pendSync = some (sq, rx)) (h0 : s.clk.state ≠ 0)
    (hl : s.clk.everLocked = true) :
    followUp sq origin s = (
      let c := { s.clk with pendSync := none, lastT1T2 := some (origin, rx), lastSync := now s }
      let v := { s with clk := c.offsetIs (Int.ofNat rx + c.corr - Int.ofNat origin - Int.ofNat c.pathDelay) }
      if v.clk.offset.natAbs > 1000000 then ptpEvent v else v) := by
  simp only [followUp, hp, modClk, ne_eq, not_true_eq_false, if_false, h0, hl, Bool.not_true, Bool.false_and, Bool.true_and,
    Bool.false_eq_true, decide_eq_true_eq]

/-- The Delay_Resp of the outstanding request sets the mean path delay, and the offset of a clock that was unset. -/
theorem delayResp_outstanding {sq rx t1 t2 t3 : Nat} {s : State} (hp : s.clk.pendDelay = some (sq, t3))
    (ht : s.clk.lastT1T2 = some (t1, t2)) :
    let a : Int := Int.ofNat t2 - Int.ofNat t1
    let b : Int := Int.ofNat rx - Int.ofNat t3
    delayResp sq rx s =
      if s.clk.state = 0 then { s with clk := { s.clk with
        pendDelay := none, pathDelay := ((a + b) / 2).toNat, state := 1, goodSyncs := 0, offset := (a - b) / 2,
        corr := -((a - b) / 2) } }
      else { s with clk := { s.clk with pendDelay := none, pathDelay := ((a + b) / 2).toNat } } := by
  simp only [delayResp, hp, ht, modClk, ne_eq, not_true_eq_false, if_false]

/-! ### Register accesses of the owner port (R400) -/

/-- Whichever of the two tables holds it, a register before the seal takes its fields as written. -/
theorem writeDefined_slot {acc : Port} {off : Nat} {v : Word} {s : State} {k : Slot} (ha : writeAction acc off v s = none)
    (hsel : writeSelector acc off v s = none) (hk : rwsSlot? off = some k ∨ (rwsSlot? off = none ∧ rwSlot? off = some k))
    (hoff : off ≠ 0x400058) (hs : s.img.isSealed = false) :
    writeDefined acc off v s =
      { s with regs := k.set ((v &&& BitVec.ofNat 64 k.rw) ||| (v &&& BitVec.ofNat 64 k.rws)) s.regs } := by
  rw [← writeSlot_open (acc := acc) (off := off) hs]
  rcases hk with hk | ⟨hn, hk⟩
  · simp only [writeDefined, ha, hsel, hk, hoff, decide_false, Bool.false_and, Bool.false_eq_true, if_false]
  · simp only [writeDefined, ha, hsel, hn, hk]

/-- The owner port takes a transfer while it has an address. -/
theorem ownerXfer_addressed {f : State → State} {s : State} (h : addressed s = true) : ownerXfer f s = f s := if_pos h

/-- The owner reads a register of the index as it is. -/
theorem readRegister_owner {off : Nat} {s : State} (hr : (regRow? off).isSome = true) (hq : off ≠ 0xB010B8) :
    readRegister .owner off s = (BitVec.ofNat 64 (regValue .owner off s), s) := by
  obtain ⟨r, hr⟩ := Option.isSome_iff_exists.mp hr
  simp only [readRegister, hr, mayRead, Bool.not_true, Bool.false_eq_true, if_false, hq]

/-- Settles O47, command by command. -/
theorem clockAndOwnerCommandsComplete : Obligations.ClockAndOwnerCommandsComplete := by
  refine ⟨fun h rx src s hm hf => ?_, fun h rx src s hm => ?_, fun h origin rx s hm hp h0 hl => ?_,
    fun h rx t1 t2 t3 s hm hp ht => ⟨fun h0 => ?_, fun h0 => ?_⟩, fun h m s hm => ?_, fun s htr => ?_, fun s h2 => ?_,
    fun s ho => ⟨fun hi => ?_, ?_⟩, fun acc off v s k ho hr ha hsel hk hoff hs => ?_,
    fun off v vals s had => ⟨?_, ?_, ?_, fun hr hq => ?_⟩⟩
  · exact run_eq ((onPtp_mine hm).trans (syncArrives_followed hf))
  · exact run_eq (onPtp_mine hm)
  · exact run_eq ((onPtp_mine hm).trans (followUp_held hp h0 hl))
  · exact run_eq ((onPtp_mine hm).trans ((delayResp_outstanding hp ht).trans (if_neg h0)))
  · exact run_eq ((onPtp_mine hm).trans ((delayResp_outstanding hp ht).trans (if_pos h0)))
  · exact run_eq (onPtp_mine hm)
  · exact run_eq (if_neg htr)
  · exact run_eq (if_pos h2)
  · refine run_eq ((gateWrite_open ho).trans ?_)
    have hn : s.img.active.isNone = false := by rw [Option.isNone_eq_false_iff]; exact hi
    simp only [txEnable, hn, if_true, Bool.false_eq_true, if_false]
  · exact run_eq (gateWrite_open ho)
  · rw [registerWrite_open ho hr, writeDefined_slot ha hsel hk hoff hs]
  · exact run_eq (ownerXfer_addressed had)
  · exact run_eq (ownerXfer_addressed had)
  · exact run_eq (ownerXfer_addressed had)
  · refine run_eq ((ownerXfer_addressed had).trans ?_)
    simp only [ownerReads, readRegister_owner hr hq]

end Sys2Proof.Proofs
end

section
/-!
PROOFS. The traffic of the host port (R12, R245, R250 to R253, R258, R260, R261, R286, R289, R292): messages, tacks that need
nothing of a session, rings, egress, gates and samples, each by the state that its meaning leaves.
-/
namespace Sys2Proof.Proofs
open Sys2Proof Sys2Proof.Machine

/-! ### Messages and fetches -/

/-- A SEND on a READY queue pair with a receive buffer free is acknowledged, and its tacks are taken (R244, R245). -/
theorem sendArrives_ready {qp : Nat} {msg : Bytes} {dscps : List Nat} {s : State} (hst : (qpOf s qp).st = 2)
    (hl : msg.length ≤ 65536) (hp : s.hst.poolUsed < 1024) :
    sendArrives qp msg dscps false false s = (
      let v := if creditsUsed s qp ≥ creditsPerQp s then hit 8 s else s
      let g := (takeBuffer v).1
      let v := (takeBuffer v).2
      let r := takeTacks qp dscps g (msg.length / 32 + 1) 0 msg 0 (pushCtl (.ack qp (creditsPerQp v)) (roceLen v false 4) v)
      if r.1 = 0 then { r.2 with hst := { r.2.hst with poolUsed := r.2.hst.poolUsed - 1 } }
      else { r.2 with shp := { r.2.shp with groupLeft := putN g r.1 r.2.shp.groupLeft } }) := by
  have hl' : ¬ msg.length > 65536 := by omega
  have hp' : ¬ s.hst.poolUsed ≥ 1024 := by omega
  simp only [sendArrives, hst, hl', hp', Bool.false_eq_true, if_false, ne_eq, not_true_eq_false]

/-- A fetch whose bytes have come ends, and its tack goes on (R251). -/
theorem fetchComplete_found {qp : Nat} {tag : Word} {data : Bytes} {s : State} {f : Fetch}
    (hf : ((qpOf s qp).fetches.find? fun f => decide (f.left < readsOf f.ref) && decide (f.hdr.tag = tag)) = some f)
    (hd : data.length = f.ref.len) :
    fetchComplete qp tag data s = (
      let v := issueReads qp f.ref (readsOf f.ref - f.left) f.left s
      fetched f data (launchReads qp
        (readsDone qp f.ref.addr f.ref.len (modQp qp (fun q => { q with fetches := q.fetches.erase f }) v)))) := by
  simp only [fetchComplete, hf, hd, ne_eq, not_true_eq_false, if_false]

/-! ### Tacks that need no session -/

/-- A ring of legal size and alignment, an event ring on the tenant's event queue pair, is set up (R260). -/
theorem ringEff_legal {h : TackHdr} {b : RingBody} {s : State} (hk : b.kind ≤ 1) (hlo : 6 ≤ b.log2Slots) (hhi : b.log2Slots ≤ 20)
    (ha : b.addr % (if b.kind = 0 then 64 else 32) = 0) (hc : b.consumerAddr % 8 = 0)
    (he : b.kind = 1 → (tenant? s (tenantOf s h.qp)).map (·.eventQp) = some h.qp) :
    ringEff h b s = completeOp h 0x38 0 s {} (some b) := by
  have hq : (b.kind = 1 && (tenant? s (tenantOf s h.qp)).map (·.eventQp) ≠ some h.qp) = false := by
    by_cases h1 : b.kind = 1
    · simp [he h1]
    · simp [h1]
  have hk' : ¬ b.kind > 1 := by omega
  have hlo' : ¬ b.log2Slots < 6 := by omega
  have hhi' : ¬ b.log2Slots > 20 := by omega
  unfold ringEff
  dsimp only
  rw [hq]
  simp [hk', hlo', hhi', ha, hc]

/-- REG_READ of a register that the rights grant answers its value (R258). -/
theorem regReadEff_granted {h : TackHdr} {d : Bind} {off : Nat} {s : State} {r : RegRow} (hr : regRow? off = some r)
    (hg : rightsRead d.rights r = true) (hq : off ≠ 0xB010B8) :
    regReadEff h d off s = completeOp h 0x30 0 s { a := (BitVec.ofNat 64 (regValue (.host h.qp) off s)).toNat } := by
  simp only [regReadEff, hostGranted, readGranted, hr, hg, hq, Bool.not_true, Bool.false_eq_true, if_false]

/-- REG_WRITE of one that they grant takes effect, and then completes (R258). -/
theorem regWriteEff_granted {h : TackHdr} {d : Bind} {off : Nat} {v : Word} {s : State} {r : RegRow} (hr : regRow? off = some r)
    (hg : rightsWrite d.rights r = true) :
    regWriteEff h d off v s = completeOp h 0x31 0 (writeDefined (.host h.qp) off v s) := by
  simp only [regWriteEff, hostGranted, writeGranted, hr, hg, Bool.not_true, Bool.false_eq_true, if_false, Option.isNone_some]

/-! ### Rings -/

/-- The consumer count of a full result ring that is being read lets waiting records out (R261). -/
theorem consumerRead_result {qp n : Nat} {s : State} {r : Ring} (hr : (qpOf s qp).result = some r) (hg : r.reading = true)
    (hd : (r.rkey, r.consumerAddr) ∉ (qpOf s qp).readsDue) :
    consumerRead qp 0 n s = drainBatch (flushQp qp (settleTurns (releaseHeld qp r.held
      (launchReads qp (modQp qp (fun q => { q with result := some { r with cons := n, reading := false, held := [] } })
        (readsDone qp r.consumerAddr 8 s)))))) := by
  simp [consumerRead, hr, hg, hd]

/-! ### Egress, gates and samples -/

/-- The host port sends the frame that it chose, and events that waited for room follow (R286, R288). -/
theorem hostEgress_sends {s v : State} {f : EFrame} (hu : s.hst.linkUp = true) (ht : s.hst.txOn = true)
    (hf : takeFrame 0 (fun _ => true) (unpaused s) s = (some f, v)) :
    hostEgress s = (
      let w := match f.outs with
        | some o => emit o (match outQp o with
          | some q => modQp q (fun q => { q with unacked := q.unacked ++ [o], sentAt := now v }) v
          | none => v)
        | none => v
      retryEvents (match f.measure with
        | some m => tokenSent m w
        | none => w)) := by
  simp only [hostEgress, hu, ht, Bool.not_true, Bool.or_self, Bool.false_eq_true, if_false, hf] <;> rfl

/-- `t` is `s` but for the bins of the histograms. -/
def SameButBins (s t : State) : Prop := t = { s with shp := { s.shp with hist := t.shp.hist } }

theorem SameButBins.samples {s t : State} (h : SameButBins s t) : t.shp.samples = s.shp.samples := by rw [h]

theorem SameButBins.lastSample {s t : State} (h : SameButBins s t) : t.shp.lastSample = s.shp.lastSample := by rw [h]

theorem SameButBins.trans {s t u : State} (hs : SameButBins s t) (ht : SameButBins t u) : SameButBins s u := by
  unfold SameButBins at *
  rw [ht, hs]

theorem SameButBins.foldl {α : Type} {f : State → α → State} (hf : ∀ s a, SameButBins s (f s a)) (l : List α) (s : State) :
    SameButBins s (l.foldl f s) := by
  induction l generalizing s with
  | nil => rfl
  | cons a l ih => exact (hf s a).trans (ih _)

theorem sameButBins_countHist (k : Nat × Nat × Nat) (v : Nat) (s : State) : SameButBins s (countHist k v s) := by
  unfold countHist
  split <;> rfl

/-- Where sampling is enabled one sample is counted, at the next 1 µs; the rest of it is bins (R292). -/
theorem histSample_enabled {s : State} (h : bit s.regs.shpCfg.toNat 0 = true) :
    let v := advance ((s.shp.lastSample / 1000 + 1) * 1000) s
    SameButBins { v with shp := { v.shp with lastSample := now v, samples := v.shp.samples + 1 } } (histSample s) := by
  intro v
  have hb : (!bit v.regs.shpCfg.toNat 0) = false := by rw [advance_regs, h]; rfl
  unfold histSample
  dsimp only
  rw [if_neg (by rw [hb]; decide)]
  refine (SameButBins.foldl (fun w x => .foldl (fun w q => ?_) _ _) _ _).trans (.foldl (fun w x => ?_) _ _)
  all_goals
    split
    · rfl
    · exact (sameButBins_countHist ..).trans (sameButBins_countHist ..)

/-- Settles O46, command by command. -/
theorem hostTrafficCompletes : Obligations.HostTrafficCompletes := by
  refine ⟨fun qp msg dscps s hst hl hp => ?_, fun qp msg dscps ce s => ?_, fun h s t u hs => ?_,
    fun h b s t u hs hk hlo hhi ha hc he => ?_, fun h off s t d u r hs hr hg hq => ?_, fun h off v s t d u r hs hr hg => ?_,
    fun qp tag data s f hf hd => ?_, fun qp n s r hr hg hd => ?_, fun t n s qp r hr => ?_, fun s f v hu ht hf => ?_,
    fun link s hl hlo hhi => ?_, fun p s t hp hd => ?_, fun s hb => ?_⟩
  · exact run_eq (sendArrives_ready hst hl hp)
  · exact run_eq rfl
  · exact run_eq (served_tackRow hs)
  · exact run_eq ((served_tackRow hs).trans (ringEff_legal hk hlo hhi ha hc he))
  · exact run_eq ((servedB_tackRowB hs).trans (regReadEff_granted hr hg hq))
  · exact run_eq ((servedB_tackRowB hs).trans (regWriteEff_granted hr hg))
  · exact run_eq (fetchComplete_found hf hd)
  · exact run_eq (consumerRead_result hr hg hd)
  · simp only [exec, execEventRingDrain]
    refine run_eq ?_
    simp only [hr]
  · exact runOn_eq rfl (hostEgress_sends hu ht hf)
  · exact runOn_eq (decide_eq_true (by omega)) (if_neg (Nat.succ_ne_zero link))
  · refine runOn_eq (decide_eq_true hp) ?_
    simp only [gateEntry, hd]
  · have hs := histSample_enabled hb
    exact ⟨_, run_eq rfl, hs.samples, hs.lastSample⟩

end Sys2Proof.Proofs
end

section
/-!
PROOFS. What a command can answer (R13, R14, R17, R244, R305).
-/
namespace Sys2Proof.Proofs
open Sys2Proof Sys2Proof.Machine

/-- Every command has one effect, which it has where the unit that it names exists. Arm by arm this is the command's meaning: a
`runOn` whose test is that of `hasUnit`, or a `run`, which is a `runOn` that tests nothing. -/
theorem exec_eq_runOn_hasUnit (c : Instr) (s : State) : ∃ f, exec c s = runOn (hasUnit c) f s := by
  cases c <;> exact ⟨_, rfl⟩

/-- Settles O3: a command answers what `runOn` answers. -/
theorem commandsStopOnlyWithoutTheirUnit : Obligations.CommandsStopOnlyWithoutTheirUnit := by
  intro c s
  obtain ⟨f, hf⟩ := exec_eq_runOn_hasUnit c s
  exact ⟨fun h => ⟨_, hf.trans (runOn_next h)⟩, fun h => hf.trans (runOn_fault h)⟩

end Sys2Proof.Proofs
end

section
/-!
PROOFS. Arbitration, spills, allocation, scrubbing and memory errors (R17, R156 to R158, R173, R177, R181, R185, R186, R191, R431):
each command's own effect, by the state that its meaning leaves.
-/
namespace Sys2Proof.Proofs
open Sys2Proof Sys2Proof.Machine

/-! ### Arbitration (R17, R181) -/

/-- A cycle with a winner moves the pointer past it, and makes the accesses that the grant and the owner's ports allow. -/
theorem arbiterCycle_won {arb : Arbiter} {reqs : List Nat} {accs : List BankAccess} {i : Nat} {s : State}
    (h : winner s arb reqs = some i) :
    arbiterCycle arb reqs accs s = bankCycle (accs.filter fun a => accessOk a && accessGranted arb (some i) a)
      { s with mem := { s.mem with arbPtr := put arb (i + 1) s.mem.arbPtr } } := by
  simp only [arbiterCycle, arbitrate, h, modMem]

/-! ### Spills from a tile (R156, R177) -/

theorem mem_addTo (t : Nat) (l : List Nat) : t ∈ addTo t l := by
  induction l with
  | nil => simp [addTo]
  | cons m l ih =>
    unfold addTo
    split
    · next h => simp [h]
    · split
      · simp
      · exact List.mem_cons_of_mem m ih

/-- A spill is due below SPILL_LOW, and goes on to SPILL_HIGH. -/
theorem spillsNow_iff {s : State} {t : Nat} :
    spillsNow s t = true ↔ kvFree s t < spillLow s ∨ (t ∈ s.mem.spilling ∧ kvFree s t < spillHigh s) := by
  simp only [spillsNow, Bool.or_eq_true, Bool.and_eq_true, decide_eq_true_eq, List.contains_iff_mem]

/-- The tile of a spill that is due is among those that spill. -/
theorem spillsOn_due {t : Nat} {s : State} (h : spillsNow s t = true) :
    spillsOn t s = { s with mem := { s.mem with spilling := addTo t s.mem.spilling } } := by
  simp only [spillsOn, h, if_true]

/-- A spill that is due stays due: which tiles spill has no part in the free space of one. -/
theorem spillsNow_spillsOn {t : Nat} {s : State} (h : spillsNow s t = true) :
    spillsNow { s with mem := { s.mem with spilling := addTo t s.mem.spilling } } t = true :=
  spillsNow_iff.mpr ((spillsNow_iff.mp h).imp id fun hs => ⟨mem_addTo t _, hs.2⟩)

/-- KV_SPILL of a tile whose spill is due, with no whole session to leave, spills rows. -/
theorem kvSpill_due {t : Nat} {s : State} (h : spillsNow s t = true) :
    let u : State := { s with mem := { s.mem with spilling := addTo t s.mem.spilling } }
    sessionVictim u t = none → kvSpill t s = spillOn (spillRows u t).length t u := by
  intro u hv
  simp only [kvSpill, spillsOn_due h, spillsNow_spillsOn h, u, hv, Option.isNone_none, Bool.and_self, if_true]

/-- SESSION_SPILL_T1 of a tile whose spill is due moves whole sessions. -/
theorem sessionSpill_due {t : Nat} {s : State} (h : spillsNow s t = true) :
    sessionSpill t s = sessionSpillOn 17 t { s with mem := { s.mem with spilling := addTo t s.mem.spilling } } := by
  simp only [sessionSpill, spillsOn_due h, spillsNow_spillsOn h, if_true]

/-- Pages of a row that have landed in T1 lose their T0 copies (R156). -/
theorem pageSpilled_landed {idx v t : Nat} {s : State} {x : Sess} (hx : sess? s idx = some x) (hw : allocWaits s idx = false) :
    let lands (r : Row) (p : Page) : Bool := decide (r.v = v) && p.dma && pageOnTile t p
    let n := sumN (x.st.rows.map fun r => r.pages.countP (lands r))
    n ≠ 0 →
    pageSpilled idx v t s = retile idx (modPages idx lands (fun p => { p with tier := 1, dirty := [], dma := false })
      { s with atn := { s.atn with spilled := sat (s.atn.spilled + n) 32 } }) := by
  intro lands n hn
  unfold pageSpilled
  rw [hx]
  exact if_neg (by simp only [hw, Bool.or_false, decide_eq_true_eq]; exact hn)

/-- A whole session that has moved to T1 is in place 1, with nothing dirty (R178). -/
theorem sessionSpilled_moved {idx : Nat} {s : State} {x : Sess} (hx : sess? s idx = some x) (hm : x.spillT1 = true)
    (he : x.e.state = .ember) (hw : allocWaits s idx = false) :
    sessionSpilled idx s = placeSess idx (retile idx (modSess idx (fun x => { x with
      e := { x.e with place := 1 }, spillT1 := false, st := { x.st with recBacked := true, recDirty := [] } })
      (modPages idx (fun _ p => decide (p.tier = 0)) (fun p => { p with tier := 1, dirty := [], dma := false })
        (labDropSess idx s)))) := by
  unfold sessionSpilled
  rw [hx]
  exact if_neg (by simp [hm, he, hw])

/-! ### Allocation and scrubbing (R173, R186) -/

/-- The allocation at the head of the queue gets its tiles where they are free. -/
theorem grantAlloc_fits {q : AllocReq} {l : List AllocReq} {s : State} (hq : s.mem.queue = q :: l)
    (hf : tilesFit s q.idx q.tiles = true) :
    grantAlloc s = setT1 q.idx (t1Held s q.idx ++ q.tiles) { s with mem := { s.mem with queue := l } } := by
  simp only [grantAlloc, hq, hf, if_true, modMem]

/-- The first waiting allocation that no warning has named is warned of. -/
theorem allocWarn_first {q : AllocReq} {s : State} (h : s.mem.queue.find? (fun q => !q.warned) = some q) :
    allocWarn s = (
      let u := advance (q.since + wfield s.regs.memCfg 0 16 * 1000000) s
      let u := { u with mem := { u.mem with
        queue := u.mem.queue.map fun x => if x.idx = q.idx then { x with warned := true } else x } }
      logAll 1 4 (unitChip 0) 0x010B u.mem.queue.length u) := by
  simp only [allocWarn, h, modMem]

/-! ### Memory errors (R185, R191, R431) -/

/-- An uncorrectable T1 read below its package's threshold costs what its area holds. -/
theorem t1Fails_below {addr cause : Nat} {area : T1Area} {s : State} {recent : List (Nat × Nat)}
    (hr : recent = (s.err.t1Ues.filter fun x => decide (now s < x.2 + 1000000000)) ++ [(packageOf s addr, now s)])
    (hb : (recent.filter fun x => decide (x.1 = packageOf s addr)).length < max 1 (wfield s.regs.errCfg 10 8)) :
    t1Fails addr area cause s = areaLost area addr (unitT1 s addr) (logAll 2 4 (unitT1 s addr) 0x0104 addr { s with
      mem := { s.mem with t1Ue := sat (s.mem.t1Ue + 1) 24 },
      err := { s.err with t1Ues := recent } }) := by
  subst hr
  refine if_neg (Nat.not_le.mpr ?_)
  rw [logAll_regs]
  exact hb

/-- What an uncorrectable T2 read costs, by what its block holds. -/
theorem t2Fails_costs (ch block : Nat) (s : State) :
    t2Fails ch block s = (
      let u := logAll 2 4 (unitChannel ch) 0x0105 block (modChan ch (fun c => { c with readFail := sat (c.readFail + 1) 16 }) s)
      if rowsInBlock u ch block ≠ [] then loseMany (rowsInBlock u ch block) (unitChannel ch) 4 u
      else if wakesOf u ch block ≠ [] then (wakesOf u ch block).foldl (fun s i => wakeFailed i s) u
      else match objInBlock u ch block with
        | some o => loseObj o u
        | none => vecReadFail ch block u) := by
  simp only [t2Fails, Bool.not_eq_true', List.isEmpty_eq_false_iff] <;> rfl

/-- Settles O41, command by command. -/
theorem spillAndStorageCommandsComplete : Obligations.SpillAndStorageCommandsComplete := by
  refine ⟨fun arb reqs accs i s ha hw => ?_, fun t s ht hd => ⟨fun hv => ?_, ?_⟩, fun idx v t s x ht hx hw hn => ?_,
    fun t s ht => ?_, fun idx s => ?_, fun q l s hq hf => ?_, fun q s hq => ?_, fun idx s x hx hm he hw => ?_, fun s hp => ?_,
    fun addr area s recent ha hr hb => ?_, fun ch block s hc => ?_, fun ch block s hc hb => ?_⟩
  · exact runOn_eq ha (arbiterCycle_won hw)
  · exact runOn_eq (decide_eq_true ht) (kvSpill_due (spillsNow_iff.mpr hd) hv)
  · exact runOn_eq (decide_eq_true ht) (sessionSpill_due (spillsNow_iff.mpr hd))
  · exact runOn_eq (decide_eq_true ht) (pageSpilled_landed hx hw hn)
  · exact runOn_eq (decide_eq_true ht) rfl
  · exact run_eq rfl
  · exact run_eq (grantAlloc_fits hq hf)
  · exact run_eq (allocWarn_first hq)
  · exact run_eq (sessionSpilled_moved hx hm he hw)
  · exact run_eq (if_pos hp)
  · exact runOn_eq (decide_eq_true ha) (t1Fails_below hr hb)
  · exact runOn_eq (decide_eq_true hc) (t2Fails_costs ch block s)
  · exact runOn_eq (by rw [decide_eq_true hc, decide_eq_true hb]; rfl) rfl

end Sys2Proof.Proofs
end

section
/-!
PROOFS. The canonical form of the memories (R40, R44, R320, R459, R475): each operation that stores bytes writes them by an operation
that keeps the form, and whatever else a command does on its way touches no memory.
-/
namespace Sys2Proof
open Sys2Proof.Machine

/-! ### What touches no memory -/

/-- The form is of the memory, the accessors, the image controller and the power controller alone. -/
theorem MemoriesWf.congr {s t : State} (hw : MemoriesWf s) (hmem : t.mem = s.mem) (haccs : t.accs = s.accs) (himg : t.img = s.img)
    (hpwr : t.pwr = s.pwr) : MemoriesWf t := by
  unfold MemoriesWf at *
  rwa [hmem, haccs, himg, hpwr]

theorem MemoriesWf.set_wlt {s : State} (hw : MemoriesWf s) (w : Wlt) : MemoriesWf { s with wlt := w } := hw

theorem MemoriesWf.of_host {s t : State} (hw : MemoriesWf s) (h : SameButHost s t) : MemoriesWf t := by
  rw [h]
  exact hw

theorem MemoriesWf.of_fabric {s t : State} (hw : MemoriesWf s) (h : SameButFabric s t) : MemoriesWf t := by
  rw [h]
  exact hw

/-- What a command leaves has the form where its effect does. -/
theorem MemoriesWf.of_run {f : State → State} {s t : State} (hf : MemoriesWf (f s)) (h : run f s = .next t) : MemoriesWf t := by
  cases h
  exact hf

theorem MemoriesWf.of_runOn {b : Bool} {f : State → State} {s t : State} (hf : MemoriesWf (f s)) (h : runOn b f s = .next t) :
    MemoriesWf t := by
  rw [(runOn_cases h).2]
  exact hf

/-! ### What stores bytes -/

theorem MemoriesWf.store_t1 {s : State} (hw : MemoriesWf s) (a : Nat) (b : Bytes) :
    MemoriesWf { s with mem := { s.mem with t1 := writeBytes Config.ramDefault a b s.mem.t1 } } := by
  obtain ⟨ht2, hreq, ht0, ht1, himg, hnor⟩ := hw
  exact ⟨ht2, hreq, ht0, wf_writeBytes a b ht1, himg, hnor⟩

/-- The image unit is free to change as long as its buffer has the form. -/
theorem MemoriesWf.set_img {s : State} {i : ImgCtl} (hw : MemoriesWf s) (hi : Memory.wf Config.ramDefault i.buf = true) :
    MemoriesWf { s with img := i } := by
  obtain ⟨ht2, hreq, ht0, ht1, himg, hnor⟩ := hw
  exact ⟨ht2, hreq, ht0, ht1, hi, hnor⟩

/-- The power controller is free to change as long as the NOR has the form. -/
theorem MemoriesWf.set_pwr {s : State} {p : Power} (hw : MemoriesWf s) (hp : Memory.wf Config.norDefault p.nor = true) :
    MemoriesWf { s with pwr := p } := by
  obtain ⟨ht2, hreq, ht0, ht1, himg, hnor⟩ := hw
  exact ⟨ht2, hreq, ht0, ht1, himg, hp⟩

theorem MemoriesWf.buf {s : State} (hw : MemoriesWf s) : Memory.wf Config.ramDefault s.img.buf = true := by
  obtain ⟨_, _, _, _, himg, _⟩ := hw
  exact himg

theorem MemoriesWf.nor {s : State} (hw : MemoriesWf s) : Memory.wf Config.norDefault s.pwr.nor = true := by
  obtain ⟨_, _, _, _, _, hnor⟩ := hw
  exact hnor

/-! ### Fabric requests (R320, R321) -/

theorem MemoriesWf.respond {s : State} (hw : MemoriesWf s) (i : Nat) (r : Request) (st n : Nat) (d : Bytes) :
    MemoriesWf (respond i r st n d s) := hw.of_fabric (sbf_respond ..)

/-- Applying a request stores to T1 at most (R320, R325). -/
theorem MemoriesWf.applyRequest {s : State} (hw : MemoriesWf s) (r : Request) : MemoriesWf (applyRequest r s).2.2 := by
  unfold Machine.applyRequest
  split
  · exact hw
  split
  · exact hw
  split
  · exact hw
  split
  · exact hw
  · split
    · exact hw
    dsimp only
    split
    · exact hw
    split
    · exact hw.store_t1 ..
    · exact (hw.store_t1 ..).congr rfl rfl rfl rfl

/-- The request whose turn it is is refused, or applied and answered. -/
theorem MemoriesWf.takeRequest {s : State} (hw : MemoriesWf s) (i : Nat) (b : Bool) (r : Request) :
    MemoriesWf (takeRequest i b r s).2 := by
  have hset (n k : Nat) (x : HomeStream) : MemoriesWf (setHome n k x s) := hw.congr rfl rfl rfl rfl
  unfold Machine.takeRequest
  dsimp only
  split
  · exact (hset ..).respond ..
  split
  · exact (hset ..).respond ..
  · exact ((hset ..).applyRequest r).respond ..

/-- A duplicate changes no memory: it is answered from what is stored, or waits. -/
theorem sbf_answerAgain (i : Nat) (r : Request) (s : State) : SameButFabric s (answerAgain i r s) := by
  unfold answerAgain
  split
  · split
    · exact sbf_respond ..
    · split <;> rfl
  split
  · split <;> exact sbf_respond ..
  · exact sbf_respond ..

/-- A request at its home stores to T1 only when it is taken. -/
theorem MemoriesWf.homeRequest {s : State} (hw : MemoriesWf s) (i : Nat) (r : Request) (b : Bool) :
    MemoriesWf (homeRequest i r s b).2 := by
  unfold Machine.homeRequest
  split
  · exact hw.respond ..
  dsimp only
  split
  · exact hw.congr rfl rfl rfl rfl
  · have hfree (h : Bool) (f g : State → State) (hf : MemoriesWf (f s)): True := trivial
    generalize hv : freeOnce r _ = v
    have hvw : MemoriesWf v := by
      rw [← hv]
      split <;> exact hw.congr rfl rfl rfl rfl
    split
    · split
      · split <;> exact hvw.congr rfl rfl rfl rfl
      · exact hvw.takeRequest ..
    split
    · exact (hvw.set_wlt _).respond ..
    · exact (hvw.set_wlt _).of_fabric (sbf_answerAgain ..)

/-- A request that arrives on a link goes on to another node, or reaches its home. -/
theorem MemoriesWf.requestArrives {s : State} (hw : MemoriesWf s) (l op : Nat) (r : Request) :
    MemoriesWf (onFabric (requestArrives l op r) s) := by
  unfold onFabric
  split
  · unfold Machine.requestArrives
    dsimp only
    split
    · unfold forward
      split
      · exact hw
      · exact hw.of_fabric (sbf_routeFrame ..)
    · exact (hw.of_fabric (sbf_owe ..)).homeRequest ..
  · exact hw

/-! ### The image buffer (R40, R51) -/

theorem MemoriesWf.stageBusyEvent {s : State} (hw : MemoriesWf s) (who : Stager) : MemoriesWf (stageBusyEvent who s) := by
  unfold Machine.stageBusyEvent
  split
  · exact hw.of_host (sbh_logTo ..)
  · exact hw.of_host (sbh_logAll ..)

/-- Stage traffic is taken or refused; what it logs on refusal touches no memory. -/
theorem MemoriesWf.stageTraffic {s : State} (hw : MemoriesWf s) (who : Stager) (m : StageMsg) {f : State → State}
    {no : Nat → State → State} (hf : MemoriesWf (f s)) (hno : ∀ c u, MemoriesWf u → MemoriesWf (no c u)) :
    MemoriesWf (stageTraffic who m f no s) := by
  unfold Machine.stageTraffic
  split
  · exact hf
  · refine hno _ _ ?_
    split
    · exact hw.stageBusyEvent who
    · exact hw

theorem MemoriesWf.stageWrite {s : State} (hw : MemoriesWf s) (a : Nat) (b : Bytes) : MemoriesWf (stageWrite a b s) :=
  hw.set_img (wf_writeBytes a b hw.buf)

/-- A write of SEC_IMG_STAGE_DATA stores its 8 bytes, or is refused. -/
theorem MemoriesWf.writeStageData {s : State} (hw : MemoriesWf s) (v : Word) : MemoriesWf (writeStageData v s) := by
  unfold Machine.writeStageData
  split
  · exact hw.of_host (Proofs.sbh_registerWarn ..)
  · refine hw.stageTraffic _ _ ?_ fun c u hu => hu.set_img hu.buf
    have hput : MemoriesWf (Machine.stageWrite s.regs.stageAddr.toNat (le v.toNat 8) s) := hw.stageWrite ..
    dsimp only
    split
    · exact hput.set_img hput.buf
    · exact hput.congr rfl rfl rfl rfl

/-- A gate lets a write through, refuses it with a warning, or ignores it. -/
theorem MemoriesWf.gateWrite {s : State} (hw : MemoriesWf s) (acc : Port) (off : Nat) {f : State → State} (hf : MemoriesWf (f s)) :
    MemoriesWf (gateWrite acc off f s) := by
  unfold Machine.gateWrite
  split
  · split
    · exact hw
    split
    · exact hw.of_host (Proofs.sbh_registerWarn ..)
    · exact hf
  · split
    · exact hf
    · exact hw
  · split
    · exact hf
    · exact hw
  · exact hw

/-! ### The SPI NOR (R44, R459, R475) -/

theorem MemoriesWf.norWrite {s : State} (hw : MemoriesWf s) (a : Nat) (b : Bytes) : MemoriesWf (norWrite a b s) :=
  hw.set_pwr (wf_writeBytes a b hw.nor)

/-- A persist that is done writes the store, or logs that it failed. -/
theorem MemoriesWf.persistDone {s : State} (hw : MemoriesWf s) (ok : Bool) : MemoriesWf (persistDone ok s) := by
  unfold Machine.persistDone
  split
  · exact hw
  · have hclear : MemoriesWf (modImg (fun i => { i with storing := none }) s) := hw.set_img hw.buf
    dsimp only
    split
    · exact (hclear.norWrite ..).norWrite ..
    · exact hclear.of_host (sbh_logAll ..)

/-- An operation that failed has left out some bytes of an erase, or written others in place of a program's. -/
theorem MemoriesWf.norFailed {s : State} (hw : MemoriesWf s) : MemoriesWf (norFailed s) := by
  unfold Machine.norFailed
  split
  · exact hw
  · exact (hw.congr (t := { s with free := s.free + 1 }) rfl rfl rfl rfl).set_pwr (wf_filter _ hw.nor)
  · exact (hw.congr (t := { s with free := _ }) rfl rfl rfl rfl).set_pwr (wf_writeBytes _ _ hw.nor)

/-- An operation that is complete has erased the firmware's part, or written its bytes. -/
theorem MemoriesWf.norDone {s : State} (hw : MemoriesWf s) (ok : Bool) : MemoriesWf (norDone ok s) := by
  unfold Machine.norDone
  split
  · exact hw
  · next op _ =>
    split
    · exact MemoriesWf.norFailed (hw.set_pwr hw.nor)
    · refine hw.set_pwr ?_
      cases op with
      | erase => exact wf_filter _ hw.nor
      | program a b => exact wf_writeBytes _ _ hw.nor

end Sys2Proof

namespace Sys2Proof.Proofs
open Sys2Proof Sys2Proof.Machine

/-- Settles O8: each command's effect keeps the form. -/
theorem memoriesKeepTheirForm : Obligations.MemoriesKeepTheirForm := by
  intro s t hw
  have hreq (l op : Nat) (r : Request) (h : runOn (l < 32) (onFabric (requestArrives l op r)) s = .next t) : MemoriesWf t :=
    .of_runOn (hw.requestArrives l op r) h
  refine ⟨fun l r h => ?_, fun val => .of_run (hw.gateWrite _ _ (hw.writeStageData val)), fun ok => .of_run (hw.persistDone ok),
    fun ok => .of_run (hw.norDone ok)⟩
  rcases h with h | h | h | h | h | h | h | h <;> exact hreq l _ r h

end Sys2Proof.Proofs
end

section
/-!
PROOFS. What the facts of the power controller and the times of the image controller leave as it was (R40, R43, R44, R450, R451, R462,
R465, R475, R498, R499): the effect of each is an update of the units that its statement names.
-/
namespace Sys2Proof.Proofs
open Sys2Proof Sys2Proof.Machine

/-- A command whose effect is the state `u` leaves what the marks of R482 leave of `u`. -/
theorem run_leaves {f : State → State} {s u : State} {k : State → State} (hf : f s = u) (hu : after s u = k (after s u)) :
    ∀ t, run f s = .next t → t = k t := by
  subst hf
  intro t ht
  cases ht
  exact hu

theorem runOn_leaves {b : Bool} {f : State → State} {s u : State} {k : State → State} (hf : f s = u)
    (hu : after s u = k (after s u)) : ∀ t, runOn b f s = .next t → t = k t := by
  subst hf
  intro t ht
  rw [(runOn_cases ht).2]
  exact hu

/-! ### The power controller alone -/

theorem auxUp_frame (mv : Nat) (s : State) : ∃ p, auxUp mv s = { s with pwr := p } := by
  unfold auxUp
  split <;> exact ⟨_, rfl⟩

theorem railUp_frame (n : Nat) (s : State) : ∃ p, railUp n s = { s with pwr := p } := by
  unfold railUp
  split <;> exact ⟨_, rfl⟩

theorem idleOut_frame (s : State) : ∃ p, idleOut s = { s with pwr := p } := by
  unfold idleOut
  split <;> exact ⟨_, rfl⟩

theorem excursion_frame (s : State) : ∃ p, excursion s = { s with pwr := p } := by
  unfold excursion
  split <;> exact ⟨_, rfl⟩

/-! ### With the clock, or the free values -/

theorem modImg_advance_frame (f : ImgCtl → ImgCtl) (t : Nat) (s : State) :
    ∃ c i, modImg f (advance t s) = { s with clk := c, img := i } := ⟨_, _, rfl⟩

theorem drainTimeout_frame (s : State) : ∃ c i, drainTimeout s = { s with clk := c, img := i } := by
  unfold drainTimeout
  split
  · exact modImg_advance_frame ..
  · exact ⟨_, _, rfl⟩

theorem idleIn_frame (s : State) : ∃ c p, idleIn s = { s with clk := c, pwr := p } := by
  unfold idleIn
  dsimp only
  split <;> exact ⟨_, _, rfl⟩

/-- The sensors are read whether the level moves or not. -/
theorem throttleMoves_frame (up : Bool) (cause maxC hot watts : Nat) (s : State) :
    ∃ n p, throttleMoves up cause maxC hot watts s = { s with free := n, pwr := p } := by
  unfold throttleMoves
  split
  · exact ⟨_, _, rfl⟩
  dsimp only
  split <;> exact ⟨_, _, rfl⟩

theorem norFailed_frame (s : State) : ∃ n p, norFailed s = { s with free := n, pwr := p } := by
  unfold norFailed
  split <;> exact ⟨_, _, rfl⟩

theorem norDone_frame (ok : Bool) (s : State) : ∃ n p, norDone ok s = { s with free := n, pwr := p } := by
  unfold norDone
  split
  · exact ⟨_, _, rfl⟩
  split
  · obtain ⟨n, p, h⟩ := norFailed_frame (modPwr (fun p => { p with norError := true }) s)
    exact ⟨n, p, h⟩
  · exact ⟨_, _, rfl⟩

/-! ### With the host port, where an event is logged or the link changes -/

theorem hostDown_frame (s : State) : ∃ h, hostDown s = { s with hst := h } := by
  unfold hostDown
  split <;> exact ⟨_, rfl⟩

theorem hostUp_frame (s : State) : ∃ h p, hostUp s = { s with hst := h, shp := p } := by
  unfold hostUp
  split <;> exact ⟨_, _, rfl⟩

/-- The link goes down; then the plug-in is refused with an event, or the link comes up, or stays down. -/
theorem osfpChange_frame (inserted : Bool) (watts : Nat) (s : State) :
    ∃ h p r l, osfpChange inserted watts s = { s with hst := h, pwr := p, shp := r, lim := l } := by
  unfold osfpChange
  dsimp only
  obtain ⟨h, hd⟩ := hostDown_frame (modPwr (fun p => { p with osfp := inserted, osfpHeld := inserted && decide (15 < watts) }) s)
  rw [hd]
  split
  · exact ⟨_, _, _, _, sbh_logAll ..⟩
  split
  · obtain ⟨h', r, hu⟩ := hostUp_frame { s with
      pwr := { s.pwr with osfp := inserted, osfpHeld := inserted && decide (15 < watts) }, hst := h }
    exact ⟨h', _, r, _, hu⟩
  · exact ⟨_, _, _, _, rfl⟩

theorem stageTimeout_frame (s : State) :
    ∃ c h i r l, stageTimeout s = { s with clk := c, hst := h, img := i, shp := r, lim := l } := by
  unfold stageTimeout
  split
  · obtain ⟨c, i, h⟩ := modImg_advance_frame ImgCtl.emptied (s.img.lastData + 10000000000) s
    dsimp only
    rw [h]
    exact ⟨c, _, i, _, _, sbh_logAll ..⟩
  · exact ⟨_, _, _, _, _, rfl⟩

theorem persistDone_frame (ok : Bool) (s : State) :
    ∃ h i p r l, persistDone ok s = { s with hst := h, img := i, pwr := p, shp := r, lim := l } := by
  unfold persistDone
  split
  · exact ⟨_, _, _, _, _, rfl⟩
  dsimp only
  split
  · exact ⟨_, _, _, _, _, rfl⟩
  · exact ⟨_, _, _, _, _, sbh_logAll ..⟩

/-- Settles O27: each command's effect is an update of the units that it names. -/
theorem powerFrames : Obligations.PowerFrames := by
  intro s k1 k2 k3 k4 k5 k6 k7
  refine ⟨fun x => ?_, fun x => ?_, ?_, fun x y => ?_, ?_, ?_, ?_, fun x y z v w => ?_, fun x => ?_, fun x y => ?_, ?_, fun x => ?_⟩
  · obtain ⟨p, h⟩ := auxUp_frame x s
    exact run_leaves h rfl
  · obtain ⟨p, h⟩ := railUp_frame x s
    exact runOn_leaves h rfl
  · obtain ⟨p, h⟩ := idleOut_frame s
    exact run_leaves h rfl
  · exact runOn_leaves (f := cableChange x y) rfl rfl
  · obtain ⟨p, h⟩ := excursion_frame s
    exact run_leaves h rfl
  · obtain ⟨c, i, h⟩ := drainTimeout_frame s
    exact run_leaves h rfl
  · obtain ⟨c, p, h⟩ := idleIn_frame s
    exact run_leaves h rfl
  · obtain ⟨n, p, h⟩ := throttleMoves_frame x y z v w s
    exact run_leaves h rfl
  · obtain ⟨n, p, h⟩ := norDone_frame x s
    exact run_leaves h rfl
  · obtain ⟨h, p, r, l, he⟩ := osfpChange_frame x y s
    exact run_leaves he rfl
  · obtain ⟨c, h, i, r, l, he⟩ := stageTimeout_frame s
    exact run_leaves he rfl
  · obtain ⟨h, i, p, r, l, he⟩ := persistDone_frame x s
    exact run_leaves he rfl

end Sys2Proof.Proofs
end

section
/-!
PROOFS. The image controller (R40 to R45, R51, R256): stage traffic from the owner port and from queue pairs, the commands of
SEC_IMG_CMD, the checks, the drain and the persist.
-/
namespace Sys2Proof.Proofs
open Sys2Proof Sys2Proof.Machine

/-! ### Stage traffic that is taken (R40) -/

section
variable {i : ImgCtl} {who : Stager} {m : StageMsg}

/-- A stage begin is taken in EMPTY and STAGED. -/
theorem refuses_begins (h : i.st = 0 ∨ i.st = 2) : i.refuses who .begins = none := by
  unfold ImgCtl.refuses
  rcases h with h | h <;> rw [h] <;> rfl

/-- The holder of the stage lock is taken in STAGING, whatever it sends. -/
theorem refuses_holder (hst : i.st = 1) (h : i.holds who = true) : i.refuses who m = none := by
  unfold ImgCtl.refuses
  rw [hst]
  exact if_pos h

theorem holds_owner (h : i.source = 1) : i.holds (1, 0) = true := by simp [ImgCtl.holds, h]

theorem holds_qp {qp : Nat} (h : i.source = 2) (hq : i.stageQp = qp) : i.holds (2, qp) = true := by simp [ImgCtl.holds, h, hq]

end

/-- Stage traffic that nothing refuses has its effect. -/
theorem stageTraffic_taken {who : Stager} {m : StageMsg} {f : State → State} {no : Nat → State → State} {s : State}
    (h : s.img.refuses who m = none) : stageTraffic who m f no s = f s := by
  unfold stageTraffic
  rw [h]

/-! ### The staging tacks (R256) -/

/-- STAGE_BEGIN takes the stage lock for its queue pair. -/
theorem stageBeginEff_taken {h : TackHdr} {s : State} (hst : s.img.st = 0 ∨ s.img.st = 2) :
    stageBeginEff h s = completeOp h 0x10 0 (beginStage (2, h.qp) s) := by
  unfold stageBeginEff
  exact stageTraffic_taken (refuses_begins hst)

/-- STAGE_DATA of aligned inline bytes inside the buffer, from the holder of the lock, stores them. -/
theorem stageDataEff_inline {h : TackHdr} {off : Nat} {x : Bytes} {s : State} (ha : off % 8 = 0) (hn : off + x.length ≤ 2 ^ 24)
    (hst : s.img.st = 1) (hh : s.img.holds (2, h.qp) = true) :
    stageDataEff h off (.inline x) s = completeOp h 0x11 0 (stageWrite off x s) := by
  have hok : (off % 8 ≠ 0 || off + x.length > 2 ^ 24) = false := by simpa [ha] using hn
  unfold stageDataEff stageDataBytes
  dsimp only
  rw [hok]
  exact (if_neg Bool.false_ne_true).trans (stageTraffic_taken (refuses_holder hst hh))

/-- STAGE_END of the holder ends the stage at its length. -/
theorem stageEndEff_holder {h : TackHdr} {len : Nat} {s : State} (hst : s.img.st = 1) (hh : s.img.holds (2, h.qp) = true) :
    stageEndEff h len s = completeOp h 0x12 0 (endStage len s) := by
  unfold stageEndEff
  exact stageTraffic_taken (refuses_holder hst hh)

/-- WEIGHTS_STAGE of a reference that is not refused fetches the set. -/
theorem weightsStageEff_fetches {h : TackHdr} {c : Nat} {r : DataRef} {s : State} (hr : refRefused r = false) :
    weightsStageEff h c r s = startFetch h (.weightsStage c r) r 0 [] s := if_neg (by simp [hr])

/-- Settles O35: each tack past the checks of R253 meets its own. -/
theorem stagingTacksComplete : Obligations.StagingTacksComplete := by
  refine ⟨fun h s t u hs hst => ?_, fun h off x s t u hs ha hn hst hsrc hqp => ?_, fun h len s t u hs hst hsrc hqp => ?_,
    fun h c r s t u hs hr => ?_⟩
  · exact run_eq ((served_tackRow hs).trans (stageBeginEff_taken hst))
  · exact run_eq ((served_tackRow hs).trans (stageDataEff_inline ha hn hst (holds_qp hsrc hqp)))
  · exact run_eq ((served_tackRow hs).trans (stageEndEff_holder hst (holds_qp hsrc hqp)))
  · exact run_eq ((served_tackRow hs).trans (weightsStageEff_fetches hr))

/-! ### The owner port's stage (R51) -/

/-- A write of 0 to SEC_IMG_STAGE_ADDR in EMPTY is a stage begin. -/
theorem writeStageAddr_begins {s : State} (hst : s.img.st = 0) :
    writeStageAddr 0 s = beginStage (1, 0) { s with regs := { s.regs with stageAddr := 0 }, img := { s.img with addrFull := false } } := by
  have hbit : bit (0 : Word).toNat 24 = false := by decide
  have hoff : wfield 0 3 21 = 0 := by decide
  unfold writeStageAddr
  rw [hoff, hbit]
  exact (if_neg Bool.false_ne_true).trans (if_pos (by simpa [modImg] using hst))

/-- The word of a stage end of `len` bytes: offset 0, bit 24, and LENGTH above. -/
theorem stageEndWord {len : Nat} (h : len < 2 ^ 32) :
    let v := BitVec.ofNat 64 (len * 2 ^ 32 + 2 ^ 24)
    wfield v 3 21 = 0 ∧ bit v.toNat 24 = true ∧ wfield v 32 32 = len := by
  have hv : (BitVec.ofNat 64 (len * 2 ^ 32 + 2 ^ 24)).toNat = len * 2 ^ 32 + 2 ^ 24 := by
    rw [BitVec.toNat_ofNat]
    omega
  refine ⟨?_, ?_, ?_⟩
  · unfold wfield field
    rw [hv]
    omega
  · unfold bit
    rw [hv, beq_iff_eq]
    omega
  · unfold wfield field
    rw [hv]
    omega

/-- A stage end of the owner's lock leaves STAGED with its length. -/
theorem writeStageAddr_ends {s : State} {len : Nat} (hst : s.img.st = 1) (hsrc : s.img.source = 1) (hl : len < 2 ^ 32) :
    writeStageAddr (BitVec.ofNat 64 (len * 2 ^ 32 + 2 ^ 24)) s =
      { s with regs := { s.regs with stageAddr := 0 }, img := { s.img with addrFull := false, st := 2, staged := len } } := by
  obtain ⟨hoff, hbit, hlen⟩ := stageEndWord hl
  unfold writeStageAddr
  rw [hoff, hbit, hlen]
  refine (if_pos rfl).trans (stageTraffic_taken (refuses_holder ?_ (holds_owner ?_)))
  · exact hst
  · exact hsrc

/-- A write of SEC_IMG_STAGE_DATA below the last word, under the owner's lock, stores 8 bytes and moves the offset on. -/
theorem writeStageData_stores {s : State} {v : Word} (hf : s.img.addrFull = false) (hst : s.img.st = 1) (hsrc : s.img.source = 1)
    (ha : s.regs.stageAddr.toNat < 0xFFFFF8) :
    writeStageData v s = { s with
      img := { s.img with
        buf := writeBytes Config.ramDefault s.regs.stageAddr.toNat (le v.toNat 8) s.img.buf, lastData := now s },
      regs := { s.regs with stageAddr := BitVec.ofNat 64 (s.regs.stageAddr.toNat + 8) } } := by
  unfold writeStageData
  rw [hf]
  refine (if_neg Bool.false_ne_true).trans ((stageTraffic_taken (refuses_holder hst (holds_owner hsrc))).trans ?_)
  exact if_neg (Nat.not_le.mpr ha)

/-! ### Checks and persist (R41, R43, R44) -/

/-- The checks are done in CHECKING: back to STAGED with the failure, or on to SWITCHING. -/
theorem checkDone_checking {s : State} (hst : s.img.st = 3) :
    checkDone s = match checkImage s (stagedBytes s) with
      | some (code, sec, detail) =>
        let u := modImg (fun i => { i with st := 2, code := code, section_ := sec, detail := detail, sealHeld := false }) s
        raiseIbi 1 (logAll 1 6 (unitChip 0) 0x0401 (imgResult u) (backToWait u))
      | none =>
        let i := readImage (stagedBytes s)
        raiseIbi 1 { s with img := { s.img with
          st := 4, code := 1, section_ := 0x3FF, detail := 0, next := some i, passedAt := now s,
          draining := (s.img.active.map fun a => decide (a.revision ≠ i.revision)).getD false,
          drainOver := false } } := by
  unfold checkDone
  rw [if_neg (not_not_intro hst)]
  rcases checkImage s (stagedBytes s) with _ | ⟨code, sec, detail⟩
  · cases s.img.active <;> rfl
  · rfl

/-- A persist that is complete writes the image and then its header. -/
theorem persistDone_ok {s : State} {i : Image} (h : s.img.storing = some i) :
    persistDone true s = norWrite 0x1000000 (storeHeader i s.img.persistAuto)
      (norWrite 0x1001000 i.raw { s with img := { s.img with storing := none } }) := by
  unfold persistDone
  rw [h]
  exact if_pos rfl

/-- One that has failed is logged. -/
theorem persistDone_failed {s : State} {i : Image} (h : s.img.storing = some i) :
    persistDone false s = logAll 1 6 (unitChip 0) 0x0403 2 { s with img := { s.img with storing := none } } := by
  unfold persistDone
  rw [h]
  exact if_neg Bool.false_ne_true

/-- Settles O34, command by command. -/
theorem ownerImageCommandsComplete : Obligations.OwnerImageCommandsComplete := by
  refine ⟨fun s ho hst => ?_, fun s val ho hf hst hsrc ha => ?_, fun s len ho hst hsrc hl => ?_, fun s hst => ?_,
    fun s sealToo persist auto drainMs ho hst => ?_, fun s ho hi => ?_, fun s ho hst => ?_, fun s hst => ?_, fun s hst hd hn => ?_,
    fun s i hi => ⟨?_, ?_⟩⟩
  · exact run_eq ((gateWrite_open ho).trans (writeStageAddr_begins hst))
  · exact run_eq ((gateWrite_open ho).trans (writeStageData_stores hf hst hsrc ha))
  · exact run_eq ((gateWrite_open ho).trans (writeStageAddr_ends hst hsrc hl))
  · exact run_eq (if_pos hst)
  · exact run_eq ((gateWrite_open ho).trans (if_pos hst))
  · exact run_eq ((gateWrite_open ho).trans (if_pos hi))
  · exact run_eq ((gateWrite_open ho).trans (if_pos (by simpa using hst)))
  · exact run_eq (checkDone_checking hst)
  · exact run_eq (if_pos (by simp [hst, hd, hn]))
  · exact run_eq (persistDone_ok hi)
  · exact run_eq (persistDone_failed hi)

end Sys2Proof.Proofs
end

section
/-!
PROOFS. Fencing (R28, R98, R175, R431 to R438, R442): what a fence records at once, for a cell, a tile and a region, and the way on from
there; the two ends of a salvage; leaving service.
-/
namespace Sys2Proof.Proofs
open Sys2Proof Sys2Proof.Machine

/-! ### Cells (R431, R433, R98) -/

/-- What the fence of a cell records: the cell and its count, an event, and the fault of each context it meets. -/
def recordCell (t c cause : Nat) (s : State) : State :=
  (cellCtxs s t c).foldl (fun s d => modCtx d (fun x => { x with fault := x.fault.orElse fun _ => some (t, c) }) s)
    (logAll 2 2 (unitCell t c) 0x0201 cause { s with
      err := { s.err with cells := put (t, c) cause s.err.cells, cellFences := sat (s.err.cellFences + 1) 16 } })

/-- A tile that then lacks what R431 asks of it is fenced too. -/
def fenceIfLacking (t : Nat) (s : State) : State := if tileLacks s t = true then fenceTile t 8 s else s

/-- What the fence of a bank costs: its handover, captures that still had to read it, the sessions `lost` that it alone held, a bank of the
cache, its weights. -/
def dropBank (t c : Nat) (lost : List Nat) (s : State) : State :=
  let bank := 64 * t + (c - 6)
  let u := readBacking bank (loseMany lost (unitCell t c) 3 (loseCapture bank (endHandover bank s)))
  replaceWeights bank (if (bankOf u bank).home = 5 then loseCache bank u else u)

section
variable {t c cause : Nat} {s : State}

/-- The fence of a cell that is no bank is recorded. -/
theorem fenceCell_noBank (hf : cellFenced s t c = false) (hc : c < 6 ∨ 70 ≤ c) :
    fenceCell t c cause s = fenceIfLacking t (recordCell t c cause s) := by
  have hb : (6 ≤ c && c < 70) = false := by
    rw [Bool.and_eq_false_iff, decide_eq_false_iff_not, decide_eq_false_iff_not]
    omega
  unfold fenceCell
  rw [hf, hb]
  rfl

/-- The fence of a bank is recorded, and then costs what the bank held. -/
theorem fenceCell_bank (hf : cellFenced s t c = false) (hlo : 6 ≤ c) (hhi : c < 70) :
    fenceCell t c cause s = fenceIfLacking t
      (dropBank t c ((s.ses.table.filter (onlyIn s (64 * t + (c - 6)))).map (·.1)) (recordCell t c cause s)) := by
  have hb : (6 ≤ c && c < 70) = true := by
    rw [Bool.and_eq_true, decide_eq_true_eq, decide_eq_true_eq]
    exact ⟨hlo, hhi⟩
  unfold fenceCell
  simp only [hf, hb, Bool.false_eq_true, if_false, if_true]
  rfl

end

/-! ### Tiles (R435) -/

/-- What the fence of a tile records: the tile and its count, and an event; its label cache is empty. -/
def recordTile (t cause : Nat) (s : State) : State :=
  logAll 2 3 (unitTile t) 0x0202 cause { s with
    err := { s.err with tiles := addTo t s.err.tiles, tileFences := sat (s.err.tileFences + 1) 16 },
    atn := { s.atn with lab := s.atn.lab.filter fun e => e.tile ≠ t } }

section
variable {t cause : Nat} {s v : State}

/-- The fence of a tile is recorded; under an image it goes on by the tiles that its region has lost and the placements there are. -/
theorem fenceTile_new (hf : s.err.tiles.contains t = false) (hv : recordTile t cause s = v) :
    fenceTile t cause s =
      if v.img.active.isNone then v
      else if 2 ≤ (v.err.tiles.filter (· / 6 = t / 6)).length then fenceRegion (t / 6) 11 v
      else if !placeable v then leaveService 11 true v
      else (cacheBanks v t).foldl (fun s k => loseCache k s) { v with stp := { v.stp with tileHits := addTo t v.stp.tileHits } } := by
  subst hv
  unfold fenceTile
  rw [hf]
  rfl

/-- TILE_FENCE: without an image that is all; a second tile fences the region, a loss without placement leaves service, else the cache
banks of the tile are lost and the boundary moves the contexts. -/
theorem tileFence_goesOn (ht : t < 48) (hf : s.err.tiles.contains t = false) (hv : recordTile t cause s = v) :
    (v.img.active = none → exec (.tileFence t cause) s = .next (after s v)) ∧
    (v.img.active.isSome = true → 2 ≤ (v.err.tiles.filter (· / 6 = t / 6)).length →
      exec (.tileFence t cause) s = .next (after s (fenceRegion (t / 6) 11 v))) ∧
    (v.img.active.isSome = true → (v.err.tiles.filter (· / 6 = t / 6)).length < 2 → placeable v = false →
      exec (.tileFence t cause) s = .next (after s (leaveService 11 true v))) ∧
    (v.img.active.isSome = true → (v.err.tiles.filter (· / 6 = t / 6)).length < 2 → placeable v = true →
      exec (.tileFence t cause) s = .next (after s ((cacheBanks v t).foldl (fun s k => loseCache k s)
        { v with stp := { v.stp with tileHits := addTo t v.stp.tileHits } }))) := by
  have hnew := fenceTile_new hf hv
  have hon (hi : v.img.active.isSome = true) : ¬ v.img.active.isNone = true := by simpa [Option.isSome_iff_ne_none] using hi
  refine ⟨fun hi => ?_, fun hi h2 => ?_, fun hi h2 hp => ?_, fun hi h2 hp => ?_⟩
  · exact runOn_eq (decide_eq_true ht) (by rw [hnew, if_pos (Option.isNone_iff_eq_none.mpr hi)])
  · exact runOn_eq (decide_eq_true ht) (by rw [hnew, if_neg (hon hi), if_pos h2])
  · exact runOn_eq (decide_eq_true ht) (by rw [hnew, if_neg (hon hi), if_neg (Nat.not_le.mpr h2), if_pos (by simp [hp])])
  · exact runOn_eq (decide_eq_true ht) (by rw [hnew, if_neg (hon hi), if_neg (Nat.not_le.mpr h2), if_neg (by simp [hp])])

end

/-! ### Regions (R436) -/

/-- What the fence of a region costs where the module goes on: the sessions and backings that were there in `s`, the windows of jobs, the
links, a copy of the session table. -/
def dropRegion (r : Nat) (s v : State) : State :=
  let hit : State := { v with stp := { v.stp with tileHits := (sixTiles r).foldl (fun l t => addTo t l) v.stp.tileHits } }
  let lost := regionSessions r ((s.ses.table.filter (heldIn s r)).map (·.1)) (backedIn s r) hit
  regionTable r (regionLinks r ((windowJobs s r).foldl (fun s j => reportSelf j s) lost))

/-- The fence of a region is recorded; under an image the module goes on where it has a placement. -/
theorem fenceRegion_new {r cause : Nat} {s v : State} (hf : s.err.regions.contains r = false) (hv : markRegion r cause s = v) :
    fenceRegion r cause s =
      if v.img.active.isNone then v else if !placeable v then leaveService 11 true v else dropRegion r s v := by
  subst hv
  unfold fenceRegion
  rw [hf]
  rfl

/-- REGION_FENCE, and CORE_WATCHDOG, which is one of cause 9: without an image that is all; a loss without placement leaves service, else
what the region held is lost. -/
theorem regionFence_goesOn {r cause : Nat} {s v : State} (hr : r < 8) (hf : s.err.regions.contains r = false)
    (hv : markRegion r cause s = v) :
    let answers (x : State) : Prop :=
      exec (.regionFence r cause) s = .next (after s x) ∧ (cause = 9 → exec (.coreWatchdog r) s = .next (after s x))
    (v.img.active = none → answers v) ∧
    (v.img.active.isSome = true → placeable v = false → answers (leaveService 11 true v)) ∧
    (v.img.active.isSome = true → placeable v = true → answers (dropRegion r s v)) := by
  intro answers
  have hnew := fenceRegion_new hf hv
  have hon (hi : v.img.active.isSome = true) : ¬ v.img.active.isNone = true := by simpa [Option.isSome_iff_ne_none] using hi
  have hans {x : State} (h : fenceRegion r cause s = x) : answers x :=
    ⟨runOn_eq (decide_eq_true hr) h, fun h9 => runOn_eq (decide_eq_true hr) (h9 ▸ h)⟩
  refine ⟨fun hi => hans ?_, fun hi hp => hans ?_, fun hi hp => hans ?_⟩
  · rw [hnew, if_pos (Option.isNone_iff_eq_none.mpr hi)]
  · rw [hnew, if_neg (hon hi), if_pos (by simp [hp])]
  · rw [hnew, if_neg (hon hi), if_neg (by simp [hp])]

/-! ### Salvage and leaving service (R434, R435, R438, R442) -/

/-- Salvage that is under way ends: words that cannot be read show, then the pages of what is left are written and placed. -/
theorem salvageDone_due {t : Nat} {s : State} (h : s.err.salvage.any (·.1 = t) = true) :
    salvageDone t s = (
      let bad := ((s.mem.flips.filter fun f => f.bad && f.bank / 64 = t).map fun f => (f.bank, f.word)).eraseDups
      let v := bad.foldl (fun s f => (checkWord f.1 f.2 s).2) s
      let due := (v.err.salvage.filter (·.1 = t)).flatMap (·.2.2)
      let w := due.foldl (fun s i => salvageSess t i s) v
      due.foldl (fun s i => salvagePlaced t i s) { w with err := { w.err with salvage := w.err.salvage.filter (·.1 ≠ t) } }) :=
  if_pos h

/-- Salvage that is late loses the sessions that waited for it, at the time that it had. -/
theorem salvageLate_due {t : Nat} {s : State} {x : Nat × Nat × List Nat} (h : s.err.salvage.find? (·.1 = t) = some x) :
    salvageLate t s = loseMany x.2.2 (unitTile t) 3
      (advance x.2.1 { s with err := { s.err with salvage := s.err.salvage.filter (·.1 ≠ t) } }) := by
  unfold salvageLate
  rw [h]

/-- The module in service leaves it. -/
theorem leaveService_in {cause : Nat} {sound : Bool} {s : State} (h : s.err.chipOut = false) :
    leaveService cause sound s = (
      let u := logAll 3 6 (unitChip 0) 0x0206 cause s
      let v := allQpError (lastRecords { u with
        err := { u.err with chipOut := true, unsound := !sound }, pwr := { u.pwr with bootStage := 12 } })
      if sound = true then sendNotice v
      else (List.range 32).foldl (fun s l =>
        let st := (linkOf s l).st
        if st = 0 || st = 6 then s else linkDown l (some 10) (st = 5) s) v) := by
  unfold leaveService
  rw [h]
  rfl

/-! ### The commands -/

/-- Settles O56, command by command: a fence is recorded, and the way on from there follows the state it leaves. -/
theorem fencingCommandsComplete : Obligations.FencingCommandsComplete := by
  refine ⟨fun t c cause s ht hc hf => ?_, fun t cause s ht hf => ?_, fun r cause s hr hf => ?_, fun t s ht h => ?_,
    fun t s x ht h => ?_, fun cause sound s h => ?_⟩
  · have hu : (t < 48 && c < 74) = true := by rw [decide_eq_true ht, decide_eq_true hc]; rfl
    refine ⟨fun hn => ?_, fun hlo hhi => ?_, fun hrun h5 hn => ?_⟩
    · exact runOn_eq hu (fenceCell_noBank hf hn)
    · exact runOn_eq hu (fenceCell_bank hf hlo hhi)
    · subst h5
      exact runOn_eq hu ((if_pos hrun).trans (fenceCell_noBank hf hn))
  · exact tileFence_goesOn ht hf rfl
  · exact regionFence_goesOn hr hf rfl
  · exact runOn_eq (decide_eq_true ht) (salvageDone_due h)
  · exact runOn_eq (decide_eq_true ht) (salvageLate_due h)
  · exact run_eq (leaveService_in h)

end Sys2Proof.Proofs
end

section
/-!
PROOFS. Fields of registers (R7, R103, R104, R133, R448): what a masked word and a saturating count hold, and the registers of
the step engine, its arithmetic and the fences that are made of them.
-/
namespace Sys2Proof.Proofs
open Sys2Proof Sys2Proof.Machine

/-! ### Fields of the number that a masked word holds -/

theorem bit_eq_testBit (n i : Nat) : bit n i = n.testBit i := by
  rw [Nat.testBit_eq_decide_div_mod_eq]; rfl

/-- A mask keeps the bits that it has. -/
theorem bit_and_mask (v : Word) {m : Nat} (i : Nat) (hm : m < 2 ^ 64) :
    bit (v &&& BitVec.ofNat 64 m).toNat i = (bit v.toNat i && bit m i) := by
  simp only [bit_eq_testBit, BitVec.toNat_and, BitVec.toNat_ofNat, Nat.mod_eq_of_lt hm, Nat.testBit_and]

/-- A mask of low bits leaves the number below them. -/
theorem toNat_and_low (v : Word) {k : Nat} (hk : k ≤ 64) : (v &&& BitVec.ofNat 64 (2 ^ k - 1)).toNat = v.toNat % 2 ^ k := by
  have hle : 2 ^ k ≤ 2 ^ 64 := Nat.pow_le_pow_right (by omega) hk
  have hpos : 0 < 2 ^ k := Nat.two_pow_pos k
  rw [BitVec.toNat_and, BitVec.toNat_ofNat, Nat.mod_eq_of_lt (by omega), Nat.and_two_pow_sub_one_eq_mod]

/-- A field that lies among the low bits is one of the number that they make. -/
theorem field_mod_two_pow (n : Nat) {lo width k : Nat} (h : lo + width ≤ k) : field (n % 2 ^ k) lo width = field n lo width := by
  refine Nat.eq_of_testBit_eq fun i => ?_
  simp only [field, Nat.testBit_mod_two_pow, Nat.testBit_div_two_pow]
  by_cases hi : i < width
  · rw [decide_eq_true (by omega : i + lo < k), Bool.true_and]
  · rw [decide_eq_false hi, Bool.false_and, Bool.false_and]

/-- A write to STP_CTX_LANES holds its four caps (R104). -/
theorem laneCaps_stored (v : Word) (n : Nat) (hn : n < 4) :
    wfield (v &&& BitVec.ofNat 64 (2 ^ 36 - 1)) (9 * n) 9 = wfield v (9 * n) 9 := by
  rw [wfield, toNat_and_low v (by omega), field_mod_two_pow _ (by omega), wfield]

/-- The bits that the mask of STP_CTX_CFG has (R104). -/
theorem ctxCfg_mask : ∀ n, n < 4 → bit 0x7777 (4 * n) = true ∧ bit 0x7777 (4 * n + 1) = true ∧ bit 0x7777 (4 * n + 2) = true ∧
    bit 0x7777 (4 * n + 3) = false := by decide

theorem ctxFlags_reset : ∀ n, n < 4 →
    wfield (BitVec.ofNat 64 (regValue .owner 0x100030 State.reset)) (9 * n) 9 = 256 ∧
    bit (regValue .owner 0x100038 State.reset) (4 * n) = true ∧ bit (regValue .owner 0x100038 State.reset) (4 * n + 1) = false ∧
    bit (regValue .owner 0x100038 State.reset) (4 * n + 2) = true := by decide

/-- Settles O12: both registers are RW slots, whose masks are these fields. -/
theorem laneCapsAndContextFlags : Obligations.LaneCapsAndContextFlags := by
  refine ⟨ctxFlags_reset, fun acc v s ho => ⟨_, registerWrite_rwSlot ho rfl, rfl, ?_, fun n hn => ?_⟩,
    fun acc v s ho => ⟨_, registerWrite_rwSlot ho rfl, rfl, ?_, fun n hn => ?_⟩⟩
  · show (v &&& BitVec.ofNat 64 (2 ^ 36 - 1)).toNat < 2 ^ 36
    rw [toNat_and_low v (by omega)]
    exact Nat.mod_lt _ (by omega)
  · have hc := laneCaps_stored v n hn
    refine ⟨?_, congrArg (min 256) hc⟩
    show wfield (BitVec.ofNat 64 (v &&& BitVec.ofNat 64 (2 ^ 36 - 1)).toNat) _ _ = _
    rw [BitVec.ofNat_toNat, BitVec.setWidth_eq, hc]
  · show (v &&& BitVec.ofNat 64 0x7777).toNat < 2 ^ 16
    rw [BitVec.toNat_and]
    exact Nat.and_lt_two_pow _ (by decide)
  · obtain ⟨h0, h1, h2, h3⟩ := ctxCfg_mask n hn
    have hb (i : Nat) : bit (regValue acc 0x100038 { s with regs := { s.regs with ctxCfg := v &&& BitVec.ofNat 64 0x7777 } }) i = _ :=
      bit_and_mask v i (by decide : 0x7777 < 2 ^ 64)
    refine ⟨(hb _).trans ?_, (hb _).trans ?_, (hb _).trans ?_, (hb _).trans ?_⟩
    · rw [h0, Bool.and_true]
    · rw [h1, Bool.and_true]
    · rw [h2, Bool.and_true]
    · rw [h3, Bool.and_false]

/-! ### Counters -/

/-- A count in its place is the count, or the field's greatest value where it is beyond that. -/
theorem place_sat (v lo width : Nat) : place (sat v width) lo width = min v (2 ^ width - 1) * 2 ^ lo := by
  have hpos : 0 < 2 ^ width := Nat.two_pow_pos width
  rw [place, sat, Nat.mod_eq_of_lt (by omega)]

/-- A register is the sum of its fields, each in its place. -/
theorem pack_eq_sum (l : List (Nat × Nat × Nat)) : pack l = (l.map fun f => place f.1 f.2.1 f.2.2).sum := by
  rw [List.sum_eq_foldl, List.foldl_map]
  rfl

theorem pack_nil : pack [] = 0 := rfl

/-- A count adds what its field holds. -/
theorem pack_cap_cons (v lo width : Nat) (l : List (Nat × Nat × Nat)) :
    pack (cap v lo width :: l) = min v (2 ^ width - 1) * 2 ^ lo + pack l := by
  rw [← place_sat, pack_eq_sum, pack_eq_sum, List.map_cons, List.sum_cons]
  rfl

/-- Two saturating counts of 32 bits. -/
theorem two32_eq (a b : Nat) : two32 a b = min a (2 ^ 32 - 1) + min b (2 ^ 32 - 1) * 2 ^ 32 := by
  rw [two32, pack_cap_cons, pack_cap_cons, pack_nil, Nat.pow_zero, Nat.mul_one, Nat.add_zero]

/-- A write to a register that neither acts nor selects nor holds anything has no effect (R7). -/
theorem registerWrite_readOnly {acc : Port} {off : Nat} {v : Word} {s : State} (ho : opens acc off s = true)
    (hr : (regRow? off).isSome = true) (ha : writeAction acc off v s = none) (hsel : writeSelector acc off v s = none)
    (hrws : rwsSlot? off = none) (hrw : rwSlot? off = none) :
    exec (.registerWrite acc off v) s = .next (after s s) := by
  rw [registerWrite_open ho hr]
  simp only [writeDefined, ha, hsel, hrws, hrw]

/-- Settles O15: each count is a field that stops at its greatest value, and no table of writes has the offsets. -/
theorem countersReadAsStated : Obligations.CountersReadAsStated := by
  refine ⟨fun acc s => ⟨two32_eq _ _, ?_, rfl⟩, rfl, rfl, fun acc off v s hoff ho => ?_⟩
  · show pack [cap s.err.cellFences 0 16, cap s.err.tileFences 16 16, cap s.err.ctxFaults 32 16, cap s.err.sesLost 48 16] = _
    simp only [pack_cap_cons, pack_nil, Nat.pow_zero, Nat.mul_one, Nat.add_zero, Nat.add_assoc]
  · simp only [List.mem_cons, List.not_mem_nil, or_false] at hoff
    rcases hoff with rfl | rfl | rfl <;> exact registerWrite_readOnly ho rfl rfl rfl rfl rfl

end Sys2Proof.Proofs
end

section
/-!
PROOFS. Adapters and contexts, known-answer tests, clears and selectors (R92, R94, R96, R99, R132, R136, R167, R209, R242, R270, R294,
R339, R447, R484): each command's own effect, by the state that its meaning leaves.
-/
namespace Sys2Proof.Proofs
open Sys2Proof Sys2Proof.Machine

/-! ### Contexts (R96, R105) -/

/-- LOAD of an UNLOADED context begins, where its weight set is staged in T1 and fits; else it is refused with an event. -/
theorem startLoad_unloaded {c : Nat} {s : State} (h : (ctxOf s c).state = 1) :
    startLoad c s = match ctxCfg? s c, sourceOf s c with
      | some cfg, some o =>
        if o.tier = 1 && weightSetOk o.raw cfg (placementNow s) then
          let v := modCtx c (fun x => { x with state := 2, ready := false, weights := o.raw }) (returnWeights c s)
          { v with stp := { v.stp with loads := v.stp.loads ++ [c] } }
        else loadRefused c (if slice o.raw 0 8 = ascii "YWEIGHTS" then noteVersion 0x30 o.raw 8 s else s)
      | _, _ => loadRefused c s :=
  if_neg (not_not_intro h)

/-- UNLOAD discards a load. -/
theorem unloadContext_loading {c : Nat} {s : State} (h : (ctxOf s c).state = 2) : unloadContext c s = becomeUnloaded c false s := by
  simp only [unloadContext, h]

/-- UNLOAD of a RESIDENT context waits for the boundary. -/
theorem unloadContext_resident {c : Nat} {s : State} (h : (ctxOf s c).state = 3) :
    unloadContext c s = modCtx c (fun x => { x with state := 4 }) s := by
  simp only [unloadContext, h]

/-- The load at the head of the order is complete. -/
theorem loadComplete_head {c : Nat} {rest : List Nat} {s : State} (hl : s.stp.loads = c :: rest) (h : (ctxOf s c).state = 2) :
    loadComplete c s = modCtx c (fun x => { x with ready := true }) (dropLoad c s) :=
  if_pos (by simp [hl, h])

/-- A legal reference to a container has its header fetched. -/
theorem adapterLoadEff_legal {h : TackHdr} {d : Bind} {r : DataRef} {s : State} (hr : refRefused r = false) :
    adapterLoadEff h d r s = startFetch h (.adapterLoad r) { r with len := min r.len 128 } 0 [] s 0 d :=
  if_neg (by rw [hr]; exact Bool.false_ne_true)

/-- Settles O36, command by command. -/
theorem contextCommandsComplete : Obligations.ContextCommandsComplete := by
  refine ⟨fun h r s t d u hs hr => ?_, fun ctx id s => run_eq rfl, fun h ctx id s t u hs => ?_, fun acc c s hc ho h1 => ?_,
    fun acc c s hc ho h3 => ?_, fun acc c s hc ho h2 => ?_, fun c rest s hc hl h2 => ?_, fun c s hc h5 => ?_, fun c s hc h6 => ?_⟩
  · exact run_eq ((servedB_tackRowB hs).trans (adapterLoadEff_legal hr))
  · exact run_eq ((served_tackRow hs).trans rfl)
  · exact runOn_eq (decide_eq_true hc) ((gateWrite_open ho).trans (startLoad_unloaded h1))
  · exact runOn_eq (decide_eq_true hc) ((gateWrite_open ho).trans (unloadContext_resident h3))
  · exact runOn_eq (decide_eq_true hc) ((gateWrite_open ho).trans (unloadContext_loading h2))
  · exact runOn_eq (decide_eq_true hc) (loadComplete_head hl h2)
  · exact runOn_eq (decide_eq_true hc) (if_pos h5)
  · exact runOn_eq (decide_eq_true hc) (if_pos h6)

/-- RUN_KAT runs where steps are disabled and none is under way (R132). -/
theorem startKat_idle {acc : Port} {s : State} (hd : bit s.regs.stpCtrl.toNat 0 = false) (hn : s.stp.running = false) :
    startKat acc s = { s with ari := { s.ari with katRunning := true, katDone := false } } :=
  if_neg (by simp [hd, hn])

/-- Settles O37, command by command: each is a register write through an open gate, but the end of the tests. -/
theorem clearAndTestCommandsComplete : Obligations.ClearAndTestCommandsComplete := by
  refine ⟨fun s ho => ?_, fun acc s ho => ?_, fun acc s ho hd hn => ?_, fun fails s hk => ?_, fun acc s ho => ?_, fun acc s ho => ?_,
    fun acc s ho => ⟨?_, ?_⟩, fun acc s ho => ?_, fun s ho => ?_, fun acc s ho => ⟨?_, ?_⟩, fun acc val s ho => ?_, fun acc s ho => ?_,
    fun s ho => ?_, fun acc s ho => ?_, fun s ho => ?_, fun acc s ho => ?_, fun s ho => ?_, fun acc val s ho => ?_,
    fun acc s ho => ⟨?_, ?_⟩⟩
  case refine_3 => exact run_eq ((gateWrite_open ho).trans (startKat_idle hd hn))
  case refine_4 => exact run_eq (if_pos hk)
  all_goals exact run_eq (gateWrite_open ho)

end Sys2Proof.Proofs
end

section
/-!
PROOFS. Frames by units: two states that differ in some units of the state alone, and in the limit counts and marks of R481 and R482.
An operation is framed once, for every set of units that holds its own; a command's frame is then a chain of operations.
-/
namespace Sys2Proof.Proofs
open Sys2Proof Sys2Proof.Machine

/-- The units of the state that a command may change, beside the limit counts and marks. -/
structure UnitSet where
  accs : Bool := false
  clk  : Bool := false
  ses  : Bool := false
  stp  : Bool := false
  atn  : Bool := false
  mem  : Bool := false
  vec  : Bool := false
  hst  : Bool := false
  shp  : Bool := false
  wlt  : Bool := false
  out  : Bool := false
  free : Bool := false

/-- The state with those units, and the limit counts and marks, blank. -/
def UnitSet.hide (u : UnitSet) (s : State) : State :=
  { s with
    accs := cond u.accs [] s.accs, clk := cond u.clk {} s.clk, ses := cond u.ses {} s.ses, stp := cond u.stp {} s.stp,
    atn := cond u.atn {} s.atn, mem := cond u.mem {} s.mem, vec := cond u.vec {} s.vec, hst := cond u.hst {} s.hst,
    shp := cond u.shp {} s.shp, wlt := cond u.wlt {} s.wlt, out := cond u.out [] s.out, free := cond u.free 0 s.free, lim := {} }

/-- `s` with those units, and the limit counts and marks, as they are in `t`. -/
def UnitSet.take (u : UnitSet) (s t : State) : State :=
  { s with
    accs := cond u.accs t.accs s.accs, clk := cond u.clk t.clk s.clk, ses := cond u.ses t.ses s.ses, stp := cond u.stp t.stp s.stp,
    atn := cond u.atn t.atn s.atn, mem := cond u.mem t.mem s.mem, vec := cond u.vec t.vec s.vec, hst := cond u.hst t.hst s.hst,
    shp := cond u.shp t.shp s.shp, wlt := cond u.wlt t.wlt s.wlt, out := cond u.out t.out s.out, free := cond u.free t.free s.free,
    lim := t.lim }

theorem UnitSet.take_self (u : UnitSet) (s : State) : u.take s s = s := by
  simp only [UnitSet.take, Bool.cond_self]

/-- What is hidden has no part in what is kept. -/
theorem UnitSet.take_hide (u : UnitSet) (s t : State) : u.take (u.hide s) t = u.take s t := by
  have h {α : Type} (b : Bool) (x y z : α) : cond b x (cond b y z) = cond b x z := by cases b <;> rfl
  simp only [UnitSet.take, UnitSet.hide, h]

/-- `t` is `s` but for the units of `u` and the limit counts and marks. -/
def SameOutside (u : UnitSet) (s t : State) : Prop := u.hide t = u.hide s

namespace SameOutside
variable {u : UnitSet} {s t v : State}

theorem refl (s : State) : SameOutside u s s := rfl

theorem trans (hs : SameOutside u s t) (ht : SameOutside u t v) : SameOutside u s v := Eq.trans ht hs

/-- The waiting commands and the marks of R482 are brought up to date. -/
theorem after (ht : SameOutside u s t) : SameOutside u s (after s t) :=
  congrArg (fun x : State => ({ x with pending := s.pending } : State)) ht

theorem ite {b : Prop} [Decidable b] (ht : b → SameOutside u s t) (hv : ¬ b → SameOutside u s v) :
    SameOutside u s (if b then t else v) := by
  split
  · next hb => exact ht hb
  · next hb => exact hv hb

theorem foldl {α : Type} {f : State → α → State} (hf : ∀ s a, SameOutside u s (f s a)) (l : List α) (s : State) :
    SameOutside u s (l.foldl f s) := by
  induction l generalizing s with
  | nil => exact refl s
  | cons a l ih => exact (hf s a).trans (ih _)

theorem eq_take (ht : SameOutside u s t) : t = u.take s t :=
  calc t = u.take (u.hide t) t := by rw [u.take_hide, u.take_self]
    _ = u.take s t := by rw [ht, u.take_hide]

/-- A command that answers a next state leaves what its meaning leaves. -/
theorem run {f : State → State} (hf : SameOutside u s (f s)) : ∀ t, Machine.run f s = .next t → t = u.take s t := by
  intro t ht
  cases ht
  exact hf.after.eq_take

theorem runOn {b : Bool} {f : State → State} (hf : SameOutside u s (f s)) :
    ∀ t, Machine.runOn b f s = .next t → t = u.take s t := by
  intro t ht
  obtain ⟨-, rfl⟩ := runOn_cases ht
  exact hf.after.eq_take

/-- Events and frames change the host port and the shapers. -/
theorem of_host (hh : u.hst = true) (hp : u.shp = true) (ht : SameButHost s t) : SameOutside u s t := by
  unfold SameButHost at ht
  rw [ht]
  simp only [SameOutside, UnitSet.hide, hh, hp, cond_true]

/-- Frames of the fabric change the Welt's links and streams besides. -/
theorem of_fabric (hh : u.hst = true) (hp : u.shp = true) (hw : u.wlt = true) (ht : SameButFabric s t) : SameOutside u s t := by
  unfold SameButFabric at ht
  rw [ht]
  simp only [SameOutside, UnitSet.hide, hh, hp, hw, cond_true]

/-! A new value of one unit. -/

theorem accs (h : u.accs = true) (x) (s : State) : SameOutside u s { s with accs := x } := by
  simp only [SameOutside, UnitSet.hide, h, cond_true]

theorem clk (h : u.clk = true) (x) (s : State) : SameOutside u s { s with clk := x } := by
  simp only [SameOutside, UnitSet.hide, h, cond_true]

theorem ses (h : u.ses = true) (x) (s : State) : SameOutside u s { s with ses := x } := by
  simp only [SameOutside, UnitSet.hide, h, cond_true]

theorem stp (h : u.stp = true) (x) (s : State) : SameOutside u s { s with stp := x } := by
  simp only [SameOutside, UnitSet.hide, h, cond_true]

theorem atn (h : u.atn = true) (x) (s : State) : SameOutside u s { s with atn := x } := by
  simp only [SameOutside, UnitSet.hide, h, cond_true]

theorem mem (h : u.mem = true) (x) (s : State) : SameOutside u s { s with mem := x } := by
  simp only [SameOutside, UnitSet.hide, h, cond_true]

theorem vec (h : u.vec = true) (x) (s : State) : SameOutside u s { s with vec := x } := by
  simp only [SameOutside, UnitSet.hide, h, cond_true]

theorem hst (h : u.hst = true) (x) (s : State) : SameOutside u s { s with hst := x } := by
  simp only [SameOutside, UnitSet.hide, h, cond_true]

theorem wlt (h : u.wlt = true) (x) (s : State) : SameOutside u s { s with wlt := x } := by
  simp only [SameOutside, UnitSet.hide, h, cond_true]

theorem out (h : u.out = true) (x) (s : State) : SameOutside u s { s with out := x } := by
  simp only [SameOutside, UnitSet.hide, h, cond_true]

theorem free (h : u.free = true) (x) (s : State) : SameOutside u s { s with free := x } := by
  simp only [SameOutside, UnitSet.hide, h, cond_true]

theorem hit (i : Nat) (s : State) : SameOutside u s (hit i s) := rfl

end SameOutside

end Sys2Proof.Proofs
end

section
/-!
PROOFS. What the completions of loads, transfers and vector work, and the records that come back, leave as they were (R92, R96, R173, R182,
R208, R218, R224, R226, R228, R229, R354).
-/
namespace Sys2Proof.Proofs
open Sys2Proof Sys2Proof.Machine

/-! ### Operations of one unit -/

section
variable {u : UnitSet}

theorem outside_modAcc (h : u.accs = true) (acc : Port) (f : AccRegs → AccRegs) (s : State) : SameOutside u s (modAcc acc f s) :=
  .accs h _ s

theorem outside_advance (h : u.clk = true) (t : Nat) (s : State) : SameOutside u s (advance t s) := .clk h _ s

theorem outside_labDrop (h : u.atn = true) (p : LabEntry → Bool) (s : State) : SameOutside u s (labDrop p s) := .atn h _ s

theorem outside_modSess (h : u.ses = true) (i : Nat) (f : Sess → Sess) (s : State) : SameOutside u s (modSess i f s) := by
  unfold modSess
  split
  · exact .refl s
  · exact .ses h _ s

theorem outside_mapSess (h : u.ses = true) (i : Nat) (s : State) : SameOutside u s (mapSess i s) := outside_modSess h ..

theorem outside_modPages (h : u.ses = true) (i : Nat) (p : Row → Page → Bool) (f : Page → Page) (s : State) :
    SameOutside u s (modPages i p f s) :=
  outside_modSess h ..

end

/-! ### The step engine -/

section
variable {u : UnitSet} (hstp : u.stp = true)
include hstp

theorem outside_modCtx (c : Nat) (f : Ctx → Ctx) (s : State) : SameOutside u s (modCtx c f s) := .stp hstp _ s

theorem outside_loadComplete (c : Nat) (s : State) : SameOutside u s (loadComplete c s) :=
  .ite (fun _ => .trans (.stp hstp _ s) (outside_modCtx hstp ..)) fun _ => .refl s

theorem outside_weightsPlaced (c : Nat) (s : State) : SameOutside u s (weightsPlaced c s) :=
  .ite (fun _ => outside_modCtx hstp ..) fun _ => .refl s

end

/-! ### The memories -/

section
variable {u : UnitSet} (hmem : u.mem = true)
include hmem

theorem outside_setT1 (i : Nat) (ks : List Nat) (s : State) : SameOutside u s (setT1 i ks s) := .mem hmem _ s

theorem outside_modChan (c : Nat) (f : Chan → Chan) (s : State) : SameOutside u s (modChan c f s) := .mem hmem _ s

theorem outside_writeT2 (key : Bytes) (c b : Nat) (x : Bytes) (s : State) : SameOutside u s (writeT2 key c b x s) := .mem hmem _ s

theorem outside_eraseT2 (c b : Nat) (s : State) : SameOutside u s (eraseT2 c b s) := .mem hmem _ s

theorem outside_modObj (i : Nat) (f : Obj → Obj) (s : State) : SameOutside u s (modObj i f s) := .mem hmem _ s

/-- The allocation at the head of the queue leaves it and takes its tiles, or waits on. -/
theorem outside_grantAlloc (s : State) : SameOutside u s (grantAlloc s) := by
  unfold grantAlloc
  split
  · exact .refl s
  · exact .ite (fun _ => .trans (.mem hmem _ s) (outside_setT1 hmem ..)) fun _ => .refl s

theorem outside_countT2 (add : Bool) (o : Obj) (s : State) : SameOutside u s (countT2 add o s) := by
  unfold countT2
  exact .foldl (fun s _ => .ite (fun _ => .refl s) fun _ => outside_modChan hmem ..) _ s

theorem outside_writeObj (o : Obj) (s : State) : SameOutside u s (writeObj o s) := by
  unfold writeObj
  refine (SameOutside.foldl (fun s _ => ?_) _ s).trans (.foldl (fun s _ => .ite (fun _ => .refl s) fun _ => ?_) _ _)
  · exact outside_writeT2 hmem ..
  · exact outside_modChan hmem ..

theorem outside_releaseT2 (o : Obj) (s : State) : SameOutside u s (releaseT2 o s) := by
  unfold releaseT2
  refine ((SameOutside.foldl (fun s _ => ?_) _ s).trans (outside_modObj hmem ..)).trans (outside_countT2 hmem ..)
  exact outside_eraseT2 hmem ..

theorem outside_accountVec (a b : Option VIndex) (s : State) : SameOutside u s (accountVec a b s) := by
  unfold accountVec
  exact .foldl (fun s _ => .ite (fun _ => .refl s) fun _ => outside_modChan hmem ..) _ s

theorem outside_eraseTiles (l : List VTile) (s : State) : SameOutside u s (eraseTiles l s) :=
  .foldl (fun s _ => outside_eraseT2 hmem _ _ s) _ s

theorem outside_writeTile (x : VIndex) (t : VTile) (s : State) : SameOutside u s (writeTile x t s) :=
  (outside_modChan hmem ..).trans (outside_writeT2 hmem ..)

theorem outside_t1Ask (i : Nat) (need : List Nat) (s : State) : SameOutside u s (t1Ask i need s) := by
  unfold t1Ask
  extract_lets _ _ _ _ v
  have h : SameOutside u s v := (SameOutside.mem hmem _ s).trans (outside_setT1 hmem ..)
  refine h.trans (.ite (fun _ => .refl _) fun _ => .ite (fun _ => outside_setT1 hmem ..) fun _ => ?_)
  exact (SameOutside.mem hmem _ v).trans (.hit ..)

/-- An object's transfer writes or frees its blocks, and may set DONE. -/
theorem outside_objMoved (haccs : u.accs = true) (i : Nat) (s : State) : SameOutside u s (objMoved i s) := by
  unfold objMoved
  split
  · exact .refl s
  split
  · exact .refl s
  · extract_lets _ v
    have h : SameOutside u s v :=
      (SameOutside.ite (fun _ => outside_writeObj hmem ..) fun _ => outside_releaseT2 hmem ..).trans (outside_modObj hmem ..)
    exact h.trans (.ite (fun _ => outside_modAcc haccs ..) fun _ => .refl v)

/-! ### Sessions' pages -/

section
variable (hses : u.ses = true) (hatn : u.atn = true)
include hses hatn

/-- A session's storage that takes its place drops tags, asks for tiles and maps its pages anew. -/
theorem outside_retile (i : Nat) (s : State) : SameOutside u s (retile i s) := by
  unfold retile
  split
  · exact outside_t1Ask hmem ..
  refine .ite (fun _ => .refl s) fun _ => .ite (fun _ => ?_) fun _ => ?_
  · exact (outside_t1Ask hmem ..).trans (outside_mapSess hses ..)
  · dsimp only
    exact (((outside_labDrop hatn ..).trans (outside_modSess hses ..)).trans (outside_t1Ask hmem ..)).trans
      (outside_mapSess hses ..)

theorem outside_emptyBank (k : Nat) (s : State) : SameOutside u s (emptyBank k s) := by
  unfold emptyBank
  refine .foldl (fun s i => ?_) _ s
  dsimp only
  exact ((outside_modPages hses ..).trans (.atn hatn _ _)).trans (outside_retile hmem hses hatn ..)

/-- A handover empties the bank, may clear it, and may set DONE. -/
theorem outside_handoverDone (haccs : u.accs = true) (k : Nat) (s : State) : SameOutside u s (handoverDone k s) := by
  unfold handoverDone
  extract_lets
  split
  · exact .refl s
  refine .ite (fun _ => .refl s) fun _ => ?_
  extract_lets _ v
  have h : SameOutside u s v := (SameOutside.mem hmem _ s).trans (outside_emptyBank hmem hses hatn ..)
  have hc (c : Prop) [Decidable c] : SameOutside u v (if c then clearBank k v else v) := .ite (fun _ => .mem hmem _ v) fun _ => .refl v
  exact h.trans ((hc _).trans (.ite (fun _ => outside_modAcc haccs ..) fun _ => .refl _))

end
end

/-! ### The vector engines -/

section
variable {u : UnitSet} (hvec : u.vec = true)
include hvec

theorem outside_modIndex (i : Nat) (f : VIndex → VIndex) (s : State) : SameOutside u s (modIndex i f s) := .vec hvec _ s

theorem outside_takeTile (i : Nat) (w : Nat × VPart × Nat) (s : State) : SameOutside u s (takeTile i w s) := by
  unfold takeTile
  split
  · exact outside_modIndex hvec ..
  · exact .refl s

theorem outside_addWork (ws : List VWork) (s : State) : SameOutside u s (addWork ws s) := .vec hvec _ s

theorem outside_setStage (w : VWork) (x : VStage) (s : State) : SameOutside u s (setStage w x s) := .vec hvec _ s

theorem outside_issueNand (ch n : Nat) (s : State) : SameOutside u s (issueNand ch n s) := by
  induction n generalizing s with
  | zero => exact .refl s
  | succ n ih =>
    unfold issueNand
    split
    · exact .refl s
    · dsimp only
      exact .ite (fun _ => .hit ..) fun _ => ((outside_setStage hvec ..).trans (.vec hvec _ _)).trans (ih _)

theorem outside_takeWork (ch : Nat) (s : State) : SameOutside u s (takeWork ch s) := by
  unfold takeWork
  refine .ite (fun _ => .hit ..) fun _ => ?_
  split
  · exact .refl s
  · exact (outside_setStage hvec ..).trans (outside_issueNand hvec ..)

theorem outside_closeBatch (x : VIndex) (b : VBatch) (s : State) : SameOutside u s (closeBatch x b s) :=
  ((outside_modIndex hvec ..).trans (.vec hvec _ _)).trans (outside_addWork hvec ..)

section
variable (hmem : u.mem = true)
include hmem

theorem outside_setIndex (x : VIndex) (s : State) : SameOutside u s (setIndex x s) :=
  (outside_accountVec hmem ..).trans (outside_modIndex hvec ..)

/-- Programming frees tiles, takes others and writes them. -/
theorem outside_program (i : Nat) (l : List Nat) (s : State) : SameOutside u s (program i l s) := by
  unfold program
  split
  · exact .refl s
  extract_lets want kept v w
  have h : SameOutside u s w :=
    ((outside_eraseTiles hmem ..).trans (outside_modIndex hvec ..)).trans (.foldl (fun _ _ => outside_takeTile hvec ..) _ _)
  split
  · exact h
  · exact h.trans (.foldl (fun _ _ => outside_writeTile hmem ..) _ _)

theorem outside_startRepair (i : Nat) (s : State) : SameOutside u s (startRepair i s) := by
  unfold startRepair
  split
  · exact .refl s
  · exact .ite (fun _ => (outside_setIndex hvec hmem ..).trans (outside_addWork hvec ..)) fun _ => .refl s

end

section
variable (hclk : u.clk = true)
include hclk

/-- A batch that closes is handed to its engine, at the time that it had. -/
theorem outside_batchClose (ch i l : Nat) (s : State) : SameOutside u s (batchClose ch i l s) := by
  unfold batchClose
  split
  · exact .refl s
  split
  · exact .refl s
  · exact .ite (fun _ => .refl s) fun _ => (outside_advance hclk ..).trans (outside_closeBatch hvec ..)

variable (hmem : u.mem = true)
include hmem

theorem outside_hourlyRepair (s : State) : SameOutside u s (hourlyRepair s) :=
  (outside_advance hclk ..).trans (.foldl (fun _ _ => outside_startRepair hvec hmem ..) _ _)

theorem outside_tailFlush (i l : Nat) (s : State) : SameOutside u s (tailFlush i l s) := by
  unfold tailFlush
  split
  · exact .refl s
  dsimp only
  split
  · exact .refl s
  · exact (outside_advance hclk ..).trans (outside_setIndex hvec hmem ..)

theorem outside_horizonAdvance (s : State) : SameOutside u s (horizonAdvance s) := by
  unfold horizonAdvance
  refine (outside_advance hclk ..).trans (.foldl (fun _ _ => ?_) _ _)
  exact (outside_setIndex hvec hmem ..).trans (outside_program hvec hmem ..)

end
end

/-! ### Records of the host port -/

theorem sbh_countLost (q n : Nat) (s : State) : SameButHost s (countLost q n s) := by
  unfold countLost
  split <;> rfl

theorem sbh_writeRecord (q : Nat) (r : Ring) (x : ResultRec) (m : Option (Nat × Nat)) (s : State) :
    SameButHost s (writeRecord q r x m s) := by
  unfold writeRecord
  dsimp only
  split
  · exact (sbh_modPort ..).trans ((sbh_modQp ..).trans (sbh_hit ..))
  · exact (sbh_modQp ..).trans (sbh_pushFrame ..)

/-- A record due is lost, held, or written. -/
theorem sbh_postRecord (q : Nat) (x : ResultRec) (s : State) (m : Option (Nat × Nat)) : SameButHost s (postRecord q x s m) := by
  unfold postRecord
  dsimp only
  split
  · exact sbh_countLost ..
  split
  · exact sbh_countLost ..
  split
  · exact sbh_modQp ..
  split
  · exact (sbh_modQp ..).trans (sbh_readConsumer ..)
  · exact sbh_writeRecord ..

theorem sbh_installRing (q : Nat) (b : RingBody) (s : State) : SameButHost s (installRing q b s) := by
  unfold installRing
  split
  · exact sbh_modQp ..
  · exact (sbh_modQp ..).trans (sbh_deliverEvents ..)

/-- A completion at the front of the order is posted, before or after the ring that it sets up. -/
theorem sbh_flushOrder (n q : Nat) (s : State) : SameButHost s (flushOrder n q s) := by
  induction n generalizing s with
  | zero => rfl
  | succ n ih =>
    unfold flushOrder
    split
    · rfl
    dsimp only
    split
    · rfl
    · next e rest _ _ r _ =>
      refine SameButHost.trans ?_ (ih _)
      cases e.ring with
      | none => exact (sbh_modQp ..).trans (sbh_postRecord ..)
      | some b =>
        dsimp only
        split
        · exact (sbh_modQp ..).trans ((sbh_installRing ..).trans (sbh_postRecord ..))
        · exact (sbh_modQp ..).trans ((sbh_postRecord ..).trans (sbh_installRing ..))

theorem sbh_countTack (n : Nat) (s : State) : SameButHost s (countTack n s) := rfl

/-- What measures turns changes the limit unit's own histograms and counts. -/
theorem sbh_unmeasured (c : Nat) (s : State) : SameButHost s (unmeasured c s) := by
  unfold unmeasured
  split <;> rfl

theorem sbh_addTerm (i n : Nat) (s : State) : SameButHost s (addTerm i n s) := rfl

theorem sbh_setLim (l : Lim) (s : State) : SameButHost s { s with lim := l } := rfl

theorem sbh_measureTurn (t : Turn) (s : State) : SameButHost s (measureTurn t s) := by
  unfold measureTurn
  split
  · exact sbh_unmeasured ..
  split
  · exact sbh_unmeasured ..
  split
  · dsimp only
    refine SameButHost.trans ?_ (sbh_setLim ..)
    iterate 7 refine SameButHost.trans ?_ (sbh_addTerm ..)
    exact sbh_addTerm ..
  · rfl

theorem sbh_settleTurns (s : State) : SameButHost s (settleTurns s) := by
  refine sbh_foldl _ (fun s t => ?_) _ s
  dsimp only
  split
  · rfl
  · exact (sbh_setLim ..).trans (sbh_measureTurn ..)

/-! ### Records that come back -/

theorem sbf_launch (r : Request) (p : Purpose) (s : State) : SameButFabric s (launch r p s) := by
  unfold launch
  split
  · rfl
  · exact SameButFabric.trans (t := { s with wlt := _ }) rfl (sbf_routeFrame ..)

theorem sbf_issue (g i d j : Nat) (r : Request) (p : Purpose) (s : State) : SameButFabric s (issue g i d j r p s) := by
  unfold issue
  split
  · rfl
  dsimp only
  split
  · exact sbf_launch ..
  · rfl

/-- A result that landed leaves its window, and its bytes go to the host. -/
theorem outside_landResult {u : UnitSet} (hhst : u.hst = true) (hshp : u.shp = true) (hvec : u.vec = true)
    (q : Nat) (r : ResultRec) (s : State) : SameOutside u s (landResult q r s) := by
  unfold landResult
  split
  · exact .refl s
  · exact .trans (.vec hvec _ s) (.ite (fun _ => .refl _) fun _ => .of_host hhst hshp (sbh_rdmaWrite ..))

section
variable {u : UnitSet} (hhst : u.hst = true) (hshp : u.shp = true) (hwlt : u.wlt = true) (hout : u.out = true) (hfree : u.free = true)
include hhst hshp hwlt hout hfree

theorem outside_sendSession (d j : Nat) (m : SesMsg) (s : State) : SameOutside u s (sendSession d j m s) :=
  .trans (.free hfree _ s) (.trans (.out hout _ _) (.of_fabric hhst hshp hwlt (sbf_issue ..)))

/-- A record of a batch goes to its forwarder or to its ring. -/
theorem outside_postStep (x : StepRec) (s : State) : SameOutside u s (postStep x s) := by
  unfold postStep
  split
  · exact outside_sendSession hhst hshp hwlt hout hfree ..
  · refine .ite (fun _ => ?_) fun _ => ?_
    · exact .of_host hhst hshp (sbh_countLost ..)
    · exact .of_host hhst hshp (sbh_postRecord ..)

theorem outside_drainList (l : List StepRec) (s : State) : SameOutside u s (drainList l s) := by
  induction l generalizing s with
  | nil => exact .hst hhst _ s
  | cons x l ih =>
    exact .ite (fun _ => .trans (outside_postStep hhst hshp hwlt hout hfree ..) (ih _)) fun _ => .hst hhst _ s

theorem outside_drainBatch (s : State) : SameOutside u s (drainBatch s) :=
  .ite (fun _ => .refl s) fun _ =>
    .trans (outside_drainList hhst hshp hwlt hout hfree ..) (.of_host hhst hshp (sbh_settleTurns ..))

/-- A completion is the forwarder's own; a token record joins the batches. -/
theorem outside_forwardedRecord (hvec : u.vec = true) (q : Nat) (r : ResultRec) (s : State) :
    SameOutside u s (forwardedRecord q r s) := by
  have hdrain := outside_drainBatch hhst hshp hwlt hout hfree
  unfold forwardedRecord
  refine .ite (fun _ => ?_) fun _ => (SameOutside.hst hhst _ s).trans (hdrain _)
  extract_lets _ v
  have h : SameOutside u s v :=
    (SameOutside.ite (fun _ => outside_landResult hhst hshp hvec ..) fun _ => .refl s).trans (.of_host hhst hshp (sbh_countTack ..))
  refine h.trans (.ite (fun _ => ?_) fun _ => .of_host hhst hshp (sbh_postRecord ..))
  exact (SameOutside.of_host hhst hshp ((sbh_modQp ..).trans (sbh_flushOrder ..))).trans (hdrain _)

end

/-- Settles O31: each command's meaning changes no unit but those of the operations that it is made of. -/
theorem engineFrames : Obligations.EngineFrames := by
  intro s k1 k2 k3 k4 k5 k6 k7 k8
  refine ⟨?_, fun c i => ?_, fun c => ?_, fun c => ?_, fun ch => ?_, fun i => ?_, fun ch i l => ?_, ?_, fun i l => ?_, ?_,
    fun k => ?_, fun src q r => ?_⟩
  · exact SameOutside.run (u := { mem := true }) (outside_grantAlloc rfl s)
  · exact SameOutside.run (u := { stp := true }) (.stp rfl _ s)
  · exact SameOutside.runOn (u := { stp := true }) (outside_loadComplete rfl c s)
  · exact SameOutside.runOn (u := { stp := true }) (outside_weightsPlaced rfl c s)
  · exact SameOutside.runOn (u := { vec := true }) (outside_takeWork rfl ch s)
  · exact SameOutside.run (u := { accs := true, mem := true }) (outside_objMoved rfl rfl i s)
  · exact SameOutside.runOn (u := { clk := true, vec := true }) (outside_batchClose rfl rfl ch i l s)
  · exact SameOutside.run (u := { clk := true, mem := true, vec := true }) (outside_hourlyRepair rfl rfl rfl s)
  · exact SameOutside.run (u := { clk := true, mem := true, vec := true }) (outside_tailFlush rfl rfl rfl i l s)
  · exact SameOutside.run (u := { clk := true, mem := true, vec := true }) (outside_horizonAdvance rfl rfl rfl s)
  · exact SameOutside.runOn (u := { accs := true, atn := true, mem := true, ses := true }) (outside_handoverDone rfl rfl rfl rfl k s)
  · exact SameOutside.run (u := { free := true, hst := true, out := true, shp := true, vec := true, wlt := true })
      (f := fun s => if src = selfNode s then s else forwardedRecord q r s)
      (.ite (fun _ => .refl s) fun _ => outside_forwardedRecord rfl rfl rfl rfl rfl rfl q r s)

end Sys2Proof.Proofs
end

section
/-!
PROOFS. Registers whose write is a command (R136, R398, R470): the effect of a write is that of the fields that are set.
-/
namespace Sys2Proof.Proofs
open Sys2Proof Sys2Proof.Machine

/-- The fields in the low `k` bits of a written value, every other bit zero. -/
def lowFields (v : Word) (k : Nat) : Word := BitVec.ofNat 64 (wfield v 0 k)

theorem toNat_lowFields (v : Word) (k : Nat) : (lowFields v k).toNat = v.toNat % 2 ^ k := by
  have hle : v.toNat % 2 ^ k ≤ v.toNat := Nat.mod_le _ _
  rw [lowFields, wfield, field, Nat.pow_zero, Nat.div_one, BitVec.toNat_ofNat, Nat.mod_eq_of_lt (by omega)]

theorem bit_lowFields {i k : Nat} (h : i < k) (v : Word) : bit (lowFields v k).toNat i = bit v.toNat i := by
  simp only [bit_eq_testBit, toNat_lowFields, Nat.testBit_mod_two_pow, h, decide_true, Bool.true_and]

theorem onBit_lowFields {i k : Nat} (h : i < k) (v : Word) : onBit (lowFields v k) i = onBit v i := by
  funext f s
  rw [onBit, onBit, bit_lowFields h]

/-! ### What each register's write looks at -/

theorem writeAction_ariCtrl (acc : Port) (v : Word) (s : State) :
    writeAction acc 0x200018 v s = writeAction acc 0x200018 (lowFields v 2) s := by
  simp only [writeAction, onBit_lowFields (by decide : 0 < 2), onBit_lowFields (by decide : 1 < 2)]

theorem writeAction_ckpCtrl (acc : Port) (v : Word) (s : State) :
    writeAction acc 0xA00050 v s = writeAction acc 0xA00050 (lowFields v 3) s := by
  simp only [writeAction, onBit_lowFields (by decide : 0 < 3), onBit_lowFields (by decide : 1 < 3),
    onBit_lowFields (by decide : 2 < 3)]

theorem writeAction_pwrCtrl (acc : Port) (v : Word) (s : State) :
    writeAction acc 0xD00010 v s = writeAction acc 0xD00010 (lowFields v 4) s := by
  have hgoto : wfield (lowFields v 4) 0 2 = wfield v 0 2 := by
    rw [wfield, toNat_lowFields, field_mod_two_pow _ (by decide : 0 + 2 ≤ 4), wfield]
  simp only [writeAction, writePwrCtrl, onBit_lowFields (by decide : 3 < 4), bit_lowFields (by decide : 2 < 4), hgoto]

/-- A write whose low fields act as `f` is the command that does `f` through the same open gate. -/
theorem registerWrite_eq_command {acc : Port} {off k n : Nat} {v : Word} {f : State → State} {s : State}
    (hlow : writeAction acc off v s = writeAction acc off (lowFields v k) s) (ho : opens acc off s = true)
    (hr : (regRow? off).isSome = true) (hv : wfield v 0 k = n) (ha : writeAction acc off (BitVec.ofNat 64 n) s = some (f s)) :
    exec (.registerWrite acc off v) s = run (gateWrite acc off f) s := by
  rw [lowFields, hv, ha] at hlow
  rw [registerWrite_open ho hr, run_eq (gateWrite_open ho)]
  simp only [writeDefined, hlow]

/-- Settles O16: at each value of its fields, what the write does is what the command does through the same open gate. -/
theorem controlRegistersActAsTheirCommands : Obligations.ControlRegistersActAsTheirCommands := by
  refine fun acc v s => ⟨⟨rfl, rfl, rfl⟩, fun ho => ?_, fun ho => ?_, fun ho => ?_⟩
  · have hlow := writeAction_ariCtrl acc v s
    refine ⟨fun hv => ⟨?_, run_eq (gateWrite_open ho)⟩, fun hv => ?_, fun hv => ?_⟩
    · exact registerWrite_eq_command (f := ariClear) hlow ho rfl hv rfl
    · exact registerWrite_eq_command (f := startKat acc) hlow ho rfl hv rfl
    · exact (registerWrite_eq_command (f := id) hlow ho rfl hv rfl).trans (run_eq (gateWrite_open ho))
  · have hlow := writeAction_ckpCtrl acc v s
    refine ⟨fun hv => ⟨?_, run_eq (gateWrite_open ho)⟩, fun hv => ?_, fun hv => ?_, fun hv => ?_⟩
    · exact registerWrite_eq_command (f := ckpClear) hlow ho rfl hv rfl
    · exact registerWrite_eq_command (f := ckpFail 0x63) hlow ho rfl hv rfl
    · exact registerWrite_eq_command (f := releaseHold) hlow ho rfl hv rfl
    · exact (registerWrite_eq_command (f := id) hlow ho rfl hv rfl).trans (run_eq (gateWrite_open ho))
  · have hlow := writeAction_pwrCtrl .owner v s
    refine ⟨fun hv => ?_, fun hv => ?_, fun hv => ?_, fun hv => ?_, fun hv => ⟨?_, run_eq (gateWrite_open ho)⟩, fun hv => ?_⟩
    · exact registerWrite_eq_command (f := gotoStandby) hlow ho rfl hv rfl
    · exact registerWrite_eq_command (f := gotoOn) hlow ho rfl hv rfl
    · exact registerWrite_eq_command (f := gotoOff) hlow ho rfl hv rfl
    · exact registerWrite_eq_command (f := warmReset) hlow ho rfl hv rfl
    · exact registerWrite_eq_command (f := clearPeak) hlow ho rfl hv rfl
    · exact (registerWrite_eq_command (f := id) hlow ho rfl hv rfl).trans (run_eq (gateWrite_open ho))

end Sys2Proof.Proofs
end

section
/-!
PROOFS. FP32 arithmetic of the token path (R107, R113, R116): the encodings that an operation answers, the order of its operands,
and the passes of TREE_SUM.
-/
namespace Sys2Proof.Proofs
open Sys2Proof Sys2Proof.Machine

/-! ### Encodings that an operation may answer (R107) -/

/-- No subnormal, and no NaN but the canonical one. -/
def Canonical (x : F32) : Prop :=
  (field x.toNat 23 8 = 0 → field x.toNat 0 23 = 0) ∧ (field x.toNat 23 8 = 255 → field x.toNat 0 23 ≠ 0 → x = f32NaN)

theorem canonical_f32NaN : Canonical f32NaN := ⟨by decide, by decide⟩

theorem canonical_f32Inf (n : Bool) : Canonical (f32Inf n) := by
  cases n <;> exact ⟨by decide, by decide⟩

theorem canonical_f32Zero (n : Bool) : Canonical (f32Zero n) := by
  cases n <;> exact ⟨by decide, by decide⟩

/-- The fields of an encoding made of its sign, its exponent and its fraction. -/
theorem fields_of_encoding (n : Bool) {e m : Nat} (he : e < 2 ^ 8) (hm : m < 2 ^ 23) :
    field (BitVec.ofNat 32 ((if n then 2 ^ 31 else 0) + e * 2 ^ 23 + m)).toNat 23 8 = e := by
  rw [BitVec.toNat_ofNat, field]
  cases n <;> simp only [Bool.false_eq_true, if_false, if_true] <;> omega

/-- An encoding whose exponent is neither of the extremes is canonical. -/
theorem canonical_of_normal {x : F32} (h0 : field x.toNat 23 8 ≠ 0) (h255 : field x.toNat 23 8 ≠ 255) : Canonical x :=
  ⟨fun h => absurd h h0, fun h => absurd h h255⟩

/-- RN answers a zero, an infinity, or a value of exponent 1 to 254. -/
theorem canonical_rn (n : Bool) (m : Nat) (e : Int) : Canonical (rn n m e) := by
  unfold rn
  split
  · exact canonical_f32Zero n
  dsimp only
  split
  · exact canonical_f32Zero n
  split
  · exact canonical_f32Inf n
  · next hlo hhi =>
    have hex := fields_of_encoding n (e := ((roundTo 24 m e).2 + 23 + 127).toNat) (m := (roundTo 24 m e).1 % 2 ^ 23)
      (by omega) (by omega)
    exact canonical_of_normal (by rw [hex]; omega) (by rw [hex]; omega)

theorem canonical_rnInt (n e : Int) : Canonical (rnInt n e) := canonical_rn ..

/-! ### Operands as they are read -/

/-- A finite operand that is not zero has an exponent that is neither of the extremes. -/
theorem normal_of_fpOf {x : F32} {n : Bool} {m : Nat} {e : Int} (h : fpOf x = .fin n m e) (hm : m ≠ 0) :
    field x.toNat 23 8 ≠ 0 ∧ field x.toNat 23 8 ≠ 255 := by
  unfold fpOf at h
  dsimp only at h
  split at h
  · split at h <;> cases h
  split at h
  · cases h; exact absurd rfl hm
  · exact ⟨‹_›, ‹_›⟩

/-- An infinity is its sign's encoding. -/
theorem canonical_of_inf {x : F32} {n : Bool} (h : fpOf x = .inf n) : Canonical x := by
  unfold fpOf at h
  dsimp only at h
  split at h
  · next hex =>
    split at h
    · next hm => exact ⟨fun _ => hm, fun _ hne => absurd hm hne⟩
    · cases h
  split at h <;> cases h

theorem isNaN_iff {x : F32} : isNaN x = true ↔ fpOf x = .nan := beq_iff_eq

/-- An operand that is no NaN reads as a canonical one. -/
theorem canonical_fread {x : F32} (h : isNaN x = false) : Canonical (fread x) := by
  unfold fread
  cases hx : fpOf x with
  | nan => rw [isNaN_iff.mpr hx] at h; cases h
  | inf n => exact canonical_of_inf hx
  | fin n m e =>
    dsimp only
    split
    · exact canonical_f32Zero n
    · next hm => exact canonical_of_normal (normal_of_fpOf hx hm).1 (normal_of_fpOf hx hm).2

/-! ### Each operation's answer -/

theorem canonical_fadd (a b : F32) : Canonical (fadd a b) := by
  unfold fadd
  split
  · exact canonical_f32NaN
  · exact canonical_f32NaN
  · split
    · exact canonical_f32Inf _
    · exact canonical_f32NaN
  · exact canonical_f32Inf _
  · exact canonical_f32Inf _
  · split
    · exact canonical_f32Zero _
    split
    · exact canonical_rn ..
    split
    · exact canonical_rn ..
    · exact canonical_rnInt ..

theorem canonical_fmul (a b : F32) : Canonical (fmul a b) := by
  unfold fmul
  split
  · exact canonical_f32NaN
  · exact canonical_f32NaN
  · exact canonical_f32Inf _
  · split
    · exact canonical_f32NaN
    · exact canonical_f32Inf _
  · split
    · exact canonical_f32NaN
    · exact canonical_f32Inf _
  · exact canonical_rn ..

theorem canonical_fmax (a b : F32) : Canonical (fmax a b) := by
  unfold fmax
  split
  · exact canonical_f32NaN
  · next h =>
    obtain ⟨ha, hb⟩ := Bool.or_eq_false_iff.mp (Bool.eq_false_iff.mpr h)
    have hfa := canonical_fread ha
    have hfb := canonical_fread hb
    split <;> split <;> assumption

theorem canonical_fneg (a : F32) : Canonical (fneg a) := by
  unfold fneg
  split
  · exact canonical_f32NaN
  · exact canonical_f32Inf _
  · exact canonical_rn ..

theorem canonical_recip (a : F32) : Canonical (recip a) := by
  unfold recip
  split
  · exact canonical_f32NaN
  · exact canonical_f32Zero _
  · split
    · exact canonical_f32Inf _
    · exact canonical_rn ..

theorem canonical_rsqrt (a : F32) : Canonical (rsqrt a) := by
  unfold rsqrt
  split
  · exact canonical_f32NaN
  · split
    · exact canonical_f32NaN
    · exact canonical_f32Zero _
  · split
    · exact canonical_f32Inf _
    split
    · exact canonical_f32NaN
    · exact canonical_rn ..

theorem canonical_bf16 (a : F32) : Canonical (bf16 a) := by
  unfold bf16
  split
  · exact canonical_f32NaN
  · exact canonical_f32Inf _
  · split
    · exact canonical_f32Zero _
    · exact canonical_rn ..

/-! ### A NaN operand -/

section
variable {a : F32} (h : isNaN a = true)
include h

theorem fadd_nan_left (b : F32) : fadd a b = f32NaN := by
  simp only [fadd, isNaN_iff.mp h]

theorem fmul_nan_left (b : F32) : fmul a b = f32NaN := by
  simp only [fmul, isNaN_iff.mp h]

theorem fmax_nan_left (b : F32) : fmax a b = f32NaN := if_pos (by rw [h, Bool.true_or])

theorem fmax_nan_right (b : F32) : fmax b a = f32NaN := if_pos (by rw [h, Bool.or_true])

theorem recip_nan : recip a = f32NaN := by simp only [recip, isNaN_iff.mp h]

theorem rsqrt_nan : rsqrt a = f32NaN := by simp only [rsqrt, isNaN_iff.mp h]

theorem bf16_nan : bf16 a = f32NaN := by simp only [bf16, isNaN_iff.mp h]

end

/-! ### The order of the operands -/

/-- A sum does not depend on the order of its operands: each kind of operand meets each. -/
theorem fadd_comm (a b : F32) : fadd a b = fadd b a := by
  unfold fadd
  cases fpOf a with
  | nan => cases fpOf b <;> rfl
  | inf n =>
    cases fpOf b with
    | nan => rfl
    | inf k => cases n <;> cases k <;> rfl
    | fin => rfl
  | fin n m e =>
    cases fpOf b with
    | nan => rfl
    | inf => rfl
    | fin k l g =>
      dsimp only
      rw [Bool.and_comm, Int.min_comm e g, Int.add_comm (signed n m * _)]
      by_cases hm : m = 0 <;> by_cases hl : l = 0 <;> simp only [hm, hl, and_self, and_true, if_true, if_false, and_false]

theorem fmul_comm (a b : F32) : fmul a b = fmul b a := by
  unfold fmul
  cases fpOf a with
  | nan => cases fpOf b <;> rfl
  | inf n =>
    cases fpOf b with
    | nan => rfl
    | inf k => dsimp only; rw [Bool.xor_comm]
    | fin k l g => dsimp only; rw [Bool.xor_comm]
  | fin n m e =>
    cases fpOf b with
    | nan => rfl
    | inf k => dsimp only; rw [Bool.xor_comm]
    | fin k l g => dsimp only; rw [Bool.xor_comm, Nat.mul_comm, Int.add_comm]

/-- Settles O21: every answer is a fixed encoding, an operand that is read, or one of RN. -/
theorem arithmeticAnswersAreCanonical : Obligations.ArithmeticAnswersAreCanonical := by
  refine ⟨fun a b => ⟨canonical_fadd a b, canonical_fadd a (fneg b), canonical_fmul a b, canonical_fmax a b⟩,
    fun a => ⟨canonical_fneg a, canonical_recip a, canonical_rsqrt a, canonical_bf16 a⟩, fun a b h => ?_, fun n => ⟨?_, fun m => ?_⟩,
    fun a b => ⟨fadd_comm a b, fmul_comm a b⟩⟩
  · exact ⟨fadd_nan_left h b, (fadd_comm b a).trans (fadd_nan_left h b), fmul_nan_left h b, (fmul_comm b a).trans (fmul_nan_left h b),
      fmax_nan_left h b, fmax_nan_right h b, recip_nan h, rsqrt_nan h, bf16_nan h⟩
  · cases n <;> decide
  · cases n <;> cases m <;> decide

/-! ### TREE_SUM (R113) -/

section
variable {α : Type} (f : α → α → α)

theorem treePass_singleton (a : α) : treePass f [a] = [a] := by simp only [treePass]

theorem length_treePass : ∀ l : List α, (treePass f l).length = (l.length + 1) / 2
  | [] => by simp [treePass]
  | [_] => by simp [treePass_singleton]
  | _ :: _ :: l => by
    simp only [treePass, List.length_cons, length_treePass l]
    omega

/-- The bound on the passes does not matter where it covers the list: a pass leaves a shorter one. -/
theorem treeFold_bound : ∀ (n m : Nat) (l : List α), l.length ≤ n + 1 → l.length ≤ m + 1 → treeFold f n l = treeFold f m l
  | _, _, [], _, _ => by simp only [treeFold]
  | _, _, [_], _, _ => by simp only [treeFold]
  | n + 1, m + 1, a :: b :: l, hn, hm => by
    have hlen := length_treePass f (a :: b :: l)
    simp only [List.length_cons] at hn hm hlen
    exact treeFold_bound n m (treePass f (a :: b :: l)) (by omega) (by omega)

/-- A list of two values or more has the fold of its pass. -/
theorem treeFold_treePass : ∀ {l : List α}, 2 ≤ l.length →
    treeFold f l.length l = treeFold f (treePass f l).length (treePass f l)
  | a :: b :: l, _ => by
    have hlen := length_treePass f (a :: b :: l)
    simp only [List.length_cons] at hlen
    exact treeFold_bound f (l.length + 1) _ _ (by omega) (by omega)

/-- A pass combines the values 2i and 2i + 1, and keeps an odd last value. -/
theorem treePass_eq_pairs (d : α) : ∀ l : List α, treePass f l =
    (List.range (l.length / 2)).map (fun i => f (l.getD (2 * i) d) (l.getD (2 * i + 1) d)) ++
      (if l.length % 2 = 1 then [l.getD (l.length - 1) d] else [])
  | [] => by simp [treePass]
  | [_] => by simp [treePass_singleton]
  | a :: b :: l => by
    have hhalf : (l.length + 1 + 1) / 2 = l.length / 2 + 1 := by omega
    have hodd : (l.length + 1 + 1) % 2 = l.length % 2 := by omega
    rw [treePass, treePass_eq_pairs d l, List.length_cons, List.length_cons, hhalf, hodd, List.range_succ_eq_map, List.map_cons,
      List.map_map, List.cons_append]
    congr 2
    split
    · next h =>
      obtain ⟨k, hk⟩ : ∃ k, l.length = k + 1 := ⟨l.length - 1, by omega⟩
      simp only [hk, Nat.add_sub_cancel, List.getD_cons_succ]
    · rfl

end

/-- Settles O19: a pass is the list of the pairs' sums, and each pass leaves a list that the bound covers. -/
theorem treeSumPairsByIndex : Obligations.TreeSumPairsByIndex := by
  refine ⟨rfl, fun _ => rfl, fun v hv => ?_⟩
  rw [← treePass_eq_pairs fadd 0 v, treeSum, treeSum, treeFold_treePass fadd hv]

end Sys2Proof.Proofs
end

section
/-!
PROOFS. The bucket of a distance (R146): the model's multiplication and division is the spec's shift, and BUCKET below and from
NEXACT.
-/
namespace Sys2Proof.Proofs
open Sys2Proof Sys2Proof.Machine

/-- Scaling by 2^b and dividing by 2^e is the shift of R146. -/
theorem mul_two_pow_div_eq_shiftRight {b e : Nat} (hbe : b ≤ e) (d : Nat) : d * 2 ^ b / 2 ^ e = d >>> (e - b) := by
  rw [Nat.shiftRight_eq_div_pow, ← Nat.pow_sub_mul_pow 2 hbe, Nat.mul_div_mul_right _ _ (Nat.two_pow_pos b)]

/-- The shifted distance keeps its leading bit, so that f of R146 never goes below 0. -/
theorem two_pow_le_shiftRight {b e d : Nat} (hbe : b ≤ e) (hd : 2 ^ e ≤ d) : 2 ^ b ≤ d >>> (e - b) := by
  rwa [Nat.shiftRight_eq_div_pow, Nat.le_div_iff_mul_le (Nat.two_pow_pos _), Nat.mul_comm, Nat.pow_sub_mul_pow 2 hbe]

theorem bucket_of_lt_nexact {w : Wt} {d : Nat} (hd : d < w.nexact) : w.bucket d = min d (w.nbuckets - 1) := by
  simp only [Wt.bucket, if_pos hd]

theorem bucket_of_nexact_le {w : Wt} {d : Nat} (hd : w.nexact ≤ d) : w.bucket d =
    min (w.nexact + 2 ^ w.subBits * (d.log2 - w.nexact.log2) + (d * 2 ^ w.subBits / 2 ^ d.log2 - 2 ^ w.subBits)) (w.nbuckets - 1) := by
  simp only [Wt.bucket, if_neg (Nat.not_lt.mpr hd)]

/-- Settles O20: from NEXACT on, 2^SUB_BITS ≤ δ < 2^(e + 1) gives SUB_BITS ≤ e, so that the shift is defined. -/
theorem bucketOfADistance : Obligations.BucketOfADistance := by
  intro w k d hk _ _ hsub _ _
  refine ⟨bucket_of_lt_nexact, fun hd e hlo hhi => ?_⟩
  have hlog : d.log2 = e := (Nat.log2_eq_iff (by have := Nat.two_pow_pos e; omega)).mpr ⟨hlo, hhi⟩
  have hbe : w.subBits ≤ e :=
    Nat.lt_succ_iff.mp ((Nat.pow_lt_pow_iff_right Nat.one_lt_two).mp (Nat.lt_of_le_of_lt (Nat.le_trans hsub hd) hhi))
  refine ⟨hbe, two_pow_le_shiftRight hbe hlo, ?_⟩
  rw [bucket_of_nexact_le hd, hlog, mul_two_pow_div_eq_shiftRight hbe, hk, Nat.log2_two_pow]

end Sys2Proof.Proofs
end

section
/-!
PROOFS. Placement calls (R179, R207, R208) and bank handovers (R182, R202, R203): what each call that nothing refuses does, the end of a
copy, and when a handover takes effect.
-/
namespace Sys2Proof.Proofs
open Sys2Proof Sys2Proof.Machine

/-! ### Placement calls -/

section
variable {acc : Port} {tier : Nat} {s : State} {o : Obj}

/-- CREATE of a legal kind, tier and region with room makes the object under the next free number. -/
theorem createObj_room {kind region size : Nat} (hk : kind ≤ 4) (ht : tier = 1 ∨ tier = 2) (hr : region < 8 ∨ region = 0xF) :
    let o : Obj := { id := nextObjId s, kind := kind, tier := tier, region := region, size := size }
    objRoom s o tier = true →
    createObj acc kind tier region size s =
      objResult acc 1 o.id tier true (if tier = 2 then reserveT2 o (addObj o s) else addObj o s) := by
  intro o hroom
  have legal : ¬ (kind > 4 || !(tier = 1 || tier = 2) || !(region < 8 || region = 0xF)) = true := by
    simp only [Bool.or_eq_true, Bool.not_eq_true', Bool.or_eq_false_iff, decide_eq_true_eq, decide_eq_false_iff_not]
    omega
  exact (if_neg legal).trans (if_pos hroom)

/-- A call on an object that is there and not busy does what it does. -/
theorem onObj_idle {f : Obj → State → State} (ho : obj? s o.id = some o) (hb : o.busy = none) : onObj acc o.id f s = f o s := by
  unfold onObj
  rw [ho]
  exact if_neg (by simp [hb])

/-- MOVE to the other tier, with room there, begins the copy. -/
theorem moveObj_begins (ht : tier = 1 ∨ tier = 2) (hne : tier ≠ o.tier) (hpin : tier = 2 → o.pinned = false)
    (hload : sourceIn s o [2] = false) (hroom : objRoom s o tier = true) :
    let u := modObj o.id (fun o => { o with busy := some (acc, 1, tier) }) s
    moveObj acc tier o s = objResult acc 1 o.id o.tier false (if tier = 2 then reserveT2 o u else u) := by
  have legal : ¬ (!(tier = 1 || tier = 2)) = true := by
    simp only [Bool.not_eq_true', Bool.or_eq_false_iff, decide_eq_false_iff_not]
    omega
  have unpinned : ¬ (tier = 2 && o.pinned) = true := by simpa using hpin
  have unloaded : ¬ sourceIn s o [2] = true := by simp [hload]
  have room : ¬ (!objRoom s o tier) = true := by simp [hroom]
  unfold moveObj
  rw [if_neg legal, if_neg hne, if_neg unpinned, if_neg unloaded, if_neg room]

/-- FREE of an object that no load, RESIDENT context or live adapter needs takes it out. -/
theorem freeObj_unneeded (hs : sourceIn s o [2, 3] = false) (ha : adapterObj s o = false) :
    freeObj acc o s = objResult acc 1 o.id o.tier true (dropObj o s) := if_neg (by simp [hs, ha])

/-- The end of a copy: the object lies in its new tier, and DONE is set where the accessor's last call is this MOVE. -/
theorem objMoved_busy {id n : Nat} (ho : obj? s id = some o) (hb : o.busy = some (acc, n, tier)) :
    objMoved id s = (
      let u := if tier = 2 then writeObj o s else releaseT2 o s
      let u := modObj id (fun o => { o with busy := none, tier := tier }) u
      if (accRegs u acc).objId = id && (accRegs u acc).objCode = 1 && !(accRegs u acc).objDone then
        modAcc acc (fun a => { a with objTier := tier, objDone := true }) u
      else u) := by
  unfold objMoved
  rw [ho]
  dsimp only
  rw [hb]

end

/-! ### Handovers -/

/-- A handover that passes the checks of R182 is PENDING, and the pages of a KV bank start to leave it. -/
theorem handover_pending {acc : Port} {val : Word} {s : State}
    (h : handoverRefuse s (wfield val 0 12) (wfield val 12 7) (wfield val 19 7) (wfield val 26 3) = none) :
    handover acc val s = (
      let bank := wfield val 0 12
      let u := modBank bank (fun b => { b with pending := some (acc, wfield val 19 7, wfield val 26 3, wfield val 29 2) }) s
      let u := if (bankOf u bank).use = 2 then
          (pagesIn u bank).foldl (fun s idx =>
            retile idx (modPages idx (fun _ p => pageInBank bank p) (fun p => { p with dma := true }) s)) u
        else u
      bankResult acc 1 bank u) := by
  unfold handover
  dsimp only
  rw [h]

/-- A pending handover takes effect once no session with pages in the bank waits for T1. -/
theorem handoverDone_settled {bank owner use c : Nat} {s : State} {acc : Port}
    (hp : (bankOf s bank).pending = some (acc, owner, use, c)) (hw : (pagesIn s bank).any (allocWaits s) = false) :
    handoverDone bank s = (
      let u := emptyBank bank (modBank bank (fun b => { b with
        owner := owner, use := use, home := use, ctx := c, homeCtx := c, pending := none }) s)
      let u := if c ≠ (bankOf s bank).ctx || use = 0 then clearBank bank u else u
      if (accRegs u acc).bankNo = bank then modAcc acc (fun a => { a with bankDone := true }) u else u) := by
  unfold handoverDone
  dsimp only
  rw [hp]
  exact if_neg (by simp [hw])

/-- Settles O42: each call past its register's gate and its own checks has its effect. -/
theorem placementAndHandoverCommandsComplete : Obligations.PlacementAndHandoverCommandsComplete := by
  refine ⟨fun acc kind tier region size s ho hk ht hr => ?_, fun acc tier s o ho hobj hb ht hne hpin hload hroom => ?_,
    fun acc s o ho hobj hb => ⟨?_, ?_, fun hs ha => ?_⟩, fun id s o acc n tier hobj hb => ?_, fun acc val s ho hc => ?_,
    fun bank s acc owner use c hbank hp hw => ?_⟩
  · exact fun hroom => run_eq ((gateWrite_open ho).trans (createObj_room hk ht hr hroom))
  · exact run_eq ((gateWrite_open ho).trans ((onObj_idle hobj hb).trans (moveObj_begins ht hne hpin hload hroom)))
  · exact run_eq ((gateWrite_open ho).trans (onObj_idle hobj hb))
  · exact run_eq ((gateWrite_open ho).trans (onObj_idle hobj hb))
  · exact run_eq ((gateWrite_open ho).trans ((onObj_idle hobj hb).trans (freeObj_unneeded hs ha)))
  · exact run_eq (objMoved_busy hobj hb)
  · exact run_eq ((gateWrite_open ho).trans (handover_pending hc))
  · exact runOn_eq (decide_eq_true hbank) (handoverDone_settled hp hw)

end Sys2Proof.Proofs
end

section
/-!
PROOFS. Vector search (R211, R212, R218, R221 to R229, R232, R233, R242): what each tack on an index that this module serves does once
its own checks are met, and what each piece of the channel engines' work does where it is due.
-/
namespace Sys2Proof.Proofs
open Sys2Proof Sys2Proof.Machine

/-! ### The tacks -/

section
variable {h : TackHdr} {s u : State} {x : VIndex}

/-- A vector tack on an index that no other member holds, with the engines enabled, has its effect (R358, R461). -/
theorem vecRow_here {b : TackBody} {id : Nat} {eff : State → State} (ho : vecOwner s h id = none) (hv : vecServed s = true) :
    vecRow h b id eff s = eff s := by
  unfold vecRow
  rw [ho]
  exact if_pos hv

/-- The answer of such a tack that passed the checks before its own. -/
theorem vecTack_answers {b : TackBody} {id t : Nat} {eff : State → State} {v : State} (hs : served h b s = some (t, u))
    (ho : vecOwner u h id = none) (hv : vecServed u = true) (he : eff u = v) :
    run (tackRow h b fun _ => vecRow h b id eff) s = .next (after s v) :=
  run_eq ((served_tackRow hs).trans ((vecRow_here ho hv).trans he))

/-- VEC_CREATE of a legal descriptor with a free number and room makes the index (R211, R212). -/
theorem createIndex_room {b : Bytes} (hd : badDescriptor b = false) (hid : vindex? u (readDescriptor (vecTenant u h) b).id = none)
    (hn : u.vec.idxs.length < 256) (hr : vecRoom u none (readDescriptor (vecTenant u h) b) = true) :
    createIndex h b u = (
      let x := readDescriptor (vecTenant u h) b
      completeOp h 0x20 0
        (program x.id [] (accountVec none (some x) { u with vec := { u.vec with idxs := u.vec.idxs ++ [x] } })) { a := x.id }) := by
  have room : ¬ (u.vec.idxs.length ≥ 256 || !vecRoom u none (readDescriptor (vecTenant u h) b)) = true := by simp [hr, hn]
  unfold createIndex
  rw [hd, if_neg Bool.false_ne_true]
  dsimp only
  rw [hid]
  exact if_neg room

/-- VEC_DROP of an index of the tenant (R212, R233). -/
theorem dropIndex_found {id : Nat} (hx : vecIndex u h id = some x) :
    dropIndex h id u = completeOp h 0x21 0 (reapIndexes
      ((x.queries.filter (!·.active)).foldl (fun s q => endQuery x q 0x42 {} s)
        (x.waiting.foldl (fun s u => answerUpd 0x42 u s)
          (sweepWork (setIndex { x with dropped := true, waiting := [], repairing := none } u))))) := by
  unfold dropIndex
  rw [hx]

/-- VEC_INSERT of a legal vector with a free slot and room takes the next SEQ and waits (R224). -/
theorem insertVec_room {b : VecInsertBody} {slot gen : Nat} (hx : vecIndex u h b.indexId = some x) (hg : vecDegraded u x = false)
    (hl : 4 * x.dim + (if x.skKind = 1 then x.skBytes else 0) ≤ b.data.length)
    (hb : x.badVector (f32sAt b.data 0 x.dim) = false) (hf : x.nextSlot = some (slot, gen))
    (hr : vecRoom u (some x) (x.insert h b slot gen (now u)) = true) :
    insertVec h b u = (
      let y := x.insert h b slot gen (now u)
      let list := ((y.waiting.getLast?).map (·.list)).getD 0
      sendWrites y (.update y.updates) (bit b.cls 0) (y.insertChans y.updates list) (setIndex y u)) := by
  unfold insertVec
  rw [hx]
  dsimp only
  rw [hg, if_neg Bool.false_ne_true, if_neg (Nat.not_lt.mpr hl), hb, if_neg Bool.false_ne_true, hf]
  exact if_pos hr

/-- VEC_DELETE of a record that is held and not deleted takes the next SEQ into the delete log, and starts repair past half of it
(R225). -/
theorem deleteVec_held {id cls slot gen : Nat} (hx : vecIndex u h id = some x) (hg : vecDegraded u x = false)
    (hh : (x.recs.any fun r => r.slot = slot && r.gen = gen && (x.delSeq r).isNone) = true) (hl : x.dels.length < delLogMax) :
    deleteVec h id cls slot gen u = (
      let upd : VUpd := { seq := x.updates + 1, bulk := bit cls 0, since := now u, answer := some (h, 0x23, x.updates + 1, 0, 0) }
      let v := setIndex { x with
        updates := x.updates + 1, dels := x.dels ++ [(slot, gen, x.updates + 1)], waiting := x.waiting ++ [upd] } u
      if x.dels.length + 1 > delLogMax / 2 then startRepair id v else v) := by
  unfold deleteVec
  rw [hx]
  dsimp only
  rw [hg, if_neg Bool.false_ne_true, hh, if_neg (by decide), if_neg (Nat.not_le.mpr hl)]

/-- VEC_QUERY of a legal query on a sound index reaches its coordinator (R221, R228). -/
theorem queryVecs_legal {r : DataRef} {q : Bytes} (hx : vecIndex u h (leAt q 2 2) = some x) (hr : refRefused r = false)
    (hg : vecDegraded u x = false) (ha : x.badAsk q r.len = false) : queryVecs h r q u = queueQuery x h r q u := by
  unfold queryVecs
  rw [hx]
  dsimp only
  rw [hr, hg, ha]
  rfl

end

/-- Settles O43, tack by tack. -/
theorem vectorTacksComplete : Obligations.VectorTacksComplete := by
  refine ⟨fun h b s t u hs ho hv hd => ?_, fun h id s t u x hs ho hv hx => ?_,
    fun h b s t u x slot gen hs ho hv hx hg hl hb hf => ?_, fun h id cls slot gen s t u x hs ho hv hx hg hh hl => ?_,
    fun h r q s t u x hs ho hv hx hr hg ha => ?_⟩
  · exact fun hid hn hr => vecTack_answers hs ho hv (createIndex_room hd hid hn hr)
  · exact vecTack_answers hs ho hv (dropIndex_found hx)
  · exact fun hr => vecTack_answers hs ho hv (insertVec_room hx hg hl hb hf hr)
  · exact vecTack_answers hs ho hv (deleteVec_held hx hg hh hl)
  · exact vecTack_answers hs ho hv (queryVecs_legal hx hr hg ha)

/-! ### The engines' own work -/

section
variable {s : State} {ch id l n : Nat} {x : VIndex}

/-- The next waiting command takes a free coordinator context (R228). -/
theorem coordinatorAdmit_next {p : Nat × VQuery} (hc : engCoord s ch < coordMax) (hp : nextCommand? ch s = some p) :
    coordinatorAdmit ch s = admitQuery p.1 p.2.qseq s := by
  unfold coordinatorAdmit
  rw [if_neg (Nat.not_le.mpr hc), hp]

/-- The first queued item takes a free forwarded-work context (R228). -/
theorem takeWork_first {w : VWork} (hc : engFwd s ch < 768)
    (hw : ((engWork s ch).find? fun w => decide (w.stage = .queued)) = some w) :
    takeWork ch s = (
      let used := ((engWork s ch).filter (!·.own)).filterMap VWork.ctx?
      issueNand ch 256 (setStage w (.ready (leastOut used 768 256)) s)) := by
  unfold takeWork
  rw [if_neg (Nat.not_le.mpr hc), hw]

/-- A query on a sound index whose work is all done ends with what the search of its snapshot finds (R223, R232). -/
theorem queryComplete_through {q r : VQuery} {y : VIndex} (hx : vindex? s id = some x)
    (hq : (x.queries.find? fun q => q.qseq = n && q.active) = some q) (hg : vecDegraded s x = false)
    (hy : vindex? (finishWork id n (x.bound q) s) id = some y)
    (hr : (y.queries.find? fun q => q.qseq = n && q.active) = some r)
    (ht : queryThrough (finishWork id n (x.bound q) s) y r = true) :
    queryComplete id n s = (
      let f := y.search (y.queryVec r.raw) (y.querySketch r.raw) r.snap (readAsk r.raw)
      endQuery y r (foundStatus (readAsk r.raw) f) f (finishWork id n (x.bound q) s)) := by
  unfold queryComplete
  rw [hx]
  dsimp only
  rw [hq]
  dsimp only
  rw [hg, if_neg Bool.false_ne_true, hy]
  dsimp only
  rw [hr]
  exact if_pos ht

/-- The open batch of a list closes on the list's engine, BATCH_WAIT_MS after it opened (R229). -/
theorem batchClose_open {b : VBatch} (hx : vindex? s id = some x) (hb : (x.batches.find? fun b => b.list = l && !b.closed) = some b)
    (hc : x.chanOf l = ch) : batchClose ch id l s = closeBatch x b (advance (b.opened + batchWait s) s) := by
  unfold batchClose
  rw [hx]
  dsimp only
  rw [hb]
  exact if_neg (not_not_intro hc)

/-- A tail with an unprogrammed record is programmed FLUSH_US after the first of them (R224). -/
theorem tailFlush_due {t : Nat} (hx : vindex? s id = some x) :
    let tail (u : VUpd) : Bool := (x.graph || decide (u.list = l)) && u.pos.isSome && !x.programming u
    ((x.waiting.filter tail).map (·.since)).min? = some t →
    tailFlush id l s = setIndex { x with
      waiting := x.waiting.map fun u => if tail u then { u with flushed := true } else u } (advance (t + flushWait s) s) := by
  intro tail ht
  unfold tailFlush
  rw [hx]
  dsimp only
  rw [ht]

/-- An update on a sound index whose work waits for nothing is durable, and the index publishes (R218). -/
theorem updateDurable_written {y : VIndex} (hx : vindex? s id = some x) (hw : workWaits s id (.update n) = false)
    (hg : vecDegraded s x = false) :
    let v := endReads (fun w => decide (w.idx = id) && decide (w.owner = .update n)) s
    vindex? v id = some y →
    updateDurable id n s = publish id (program id [n] (setIndex { y with
      waiting := y.waiting.map fun u => if decide (u.seq = n) && y.programming u then { u with durable := true } else u } v)) := by
  intro v hy
  unfold updateDurable
  rw [hx]
  dsimp only
  rw [if_neg (by simp [hw, hg]), hy]

/-- A repair of a sound index, enabled and with no work of it waiting, sweeps or compacts, publishes and logs it (R226). -/
theorem vectorPass_due {r : Nat} (hx : vindex? s id = some x) (hr : x.repairing = some r) (he : repairOn s = true)
    (hg : vecDegraded s x = false) (hw : workWaits s id .repair = false) :
    vectorPass id s = (
      let v := endReads (fun w => decide (w.idx = id) && decide (w.owner = .repair)) s
      let v := if x.graph then v else retireRuns id x.oldLists v
      let x := (vindex? v id).getD x
      let y := if x.graph then x.sweep r else x.compact
      let v := setIndex { y with repairing := none } v
      logTo [x.tenant] 0 4 (unitChannel (x.chanOf 0)) 0x0702 id (publish id (releaseStale id
        (program id ((List.range (y.updates - x.updates)).map (· + x.updates + 1)) v)))) := by
  unfold vectorPass
  rw [hx]
  dsimp only
  rw [hr]
  exact if_neg (by simp [he, hg, hw])

end

/-- Settles O44, command by command; HORIZON_ADVANCE and REPAIR_START ask nothing of the state. -/
theorem vectorEngineWorkCompletes : Obligations.VectorEngineWorkCompletes := by
  refine ⟨fun ch s p hch hc hp => ?_, fun ch s w hch hc hw => ?_, fun id n s x q hx hq hg => ?_, fun ch id l s x b hch hx hb hc => ?_,
    fun id l s x t hx => ?_, fun id n s x hx hw hg => ?_, fun s => run_eq rfl, fun s => run_eq rfl, fun acc s ho => ?_,
    fun id s x r hx hr he hg hw => ?_⟩
  · exact runOn_eq (decide_eq_true hch) (coordinatorAdmit_next hc hp)
  · exact runOn_eq (decide_eq_true hch) (takeWork_first hc hw)
  · exact fun y r hy hr ht => run_eq (queryComplete_through hx hq hg hy hr ht)
  · exact runOn_eq (decide_eq_true hch) (batchClose_open hx hb hc)
  · exact fun ht => run_eq (tailFlush_due hx ht)
  · exact fun y hy => run_eq (updateDurable_written hx hw hg hy)
  · exact run_eq (gateWrite_open ho)
  · exact run_eq (vectorPass_due hx hr he hg hw)

end Sys2Proof.Proofs
end

section
/-!
PROOFS. Steps (R253, R266, R452, R490): what a step of a waiting command is, what passes at an idle one, and the queue that a
command leaves.
-/
namespace Sys2Proof.Proofs
open Sys2Proof Sys2Proof.Machine

/-- Settles O1: a step takes the queue's front. -/
theorem stepRunsFrontCommand : Obligations.StepRunsFrontCommand :=
  fun c rest s => step_front { s with pending := c :: rest } c rest rfl

/-- Where the module has sent itself no frame, none is delivered. -/
theorem deliverHere_of_nil {s : State} (h : s.wlt.here = []) : deliverHere s = s := by
  unfold deliverHere
  rw [h]

/-- Engines without work do not go on. -/
theorem engines_of_nil {s : State} (h : s.vec.work = []) : engines s = s := if_pos (List.isEmpty_iff.mpr h)

/-- Settles O2: the slew of a tick is what is still to be made, cut to 5 ps either way. -/
theorem idleStepIsOneTick : Obligations.IdleStepIsOneTick := by
  intro s hs
  refine ⟨max (-5) (min 5 s.clk.slewPs), by omega, by omega, by omega, by omega, step_idle s hs, fun hh hw => ?_⟩
  rw [step_idle s hs, idle, deliverHere_of_nil (s := tick s) hh, engines_of_nil (s := tick s) hw]
  rfl

/-- Settles O4: a command answers what `runOn` answers, which has the queue that it was run with. -/
theorem commandsKeepTheQueue : Obligations.CommandsKeepTheQueue := by
  intro c s t ht
  obtain ⟨f, hf⟩ := exec_eq_runOn_hasUnit c s
  exact runOn_pending (hf.symm.trans ht)

end Sys2Proof.Proofs
end

section
/-!
PROOFS. Register accesses of queue pairs (R43, R258, R486, R488): those that the rights refuse, and what is read of another
tenant's.
-/
namespace Sys2Proof.Proofs
open Sys2Proof Sys2Proof.Machine

/-! ### Accesses that the rights refuse -/

/-- A write without the rights of the index has no effect (R488). -/
theorem writeRegister_denied {qp off : Nat} {v : Word} {s : State} {r : RegRow} (hr : regRow? off = some r)
    (hm : hostMayWrite s qp r = false) : writeRegister (.host qp) off v s = s := by
  simp only [writeRegister, gateWrite, hr, hm, Option.isNone_some, Bool.false_eq_true, if_false]

/-- REG_READ without the rights at arrival answers NOT_PERMITTED (R258). -/
theorem regReadEff_denied {h : TackHdr} {d : Bind} {off : Nat} {s : State} {r : RegRow} (hr : regRow? off = some r)
    (hm : rightsRead d.rights r = false) : regReadEff h d off s = completeOp h 0x30 0x04 s := by
  simp only [regReadEff, hostGranted, hr, hm, Bool.not_false, if_true]

/-- REG_WRITE likewise. -/
theorem regWriteEff_denied {h : TackHdr} {d : Bind} {off : Nat} {v : Word} {s : State} {r : RegRow} (hr : regRow? off = some r)
    (hm : rightsWrite d.rights r = false) : regWriteEff h d off v s = completeOp h 0x31 0x04 s := by
  simp only [regWriteEff, hostGranted, hr, hm, Bool.not_false, if_true]

/-! ### What a queue pair sees of a selection (R486) -/

section
variable {qp : Nat} {s : State}

theorem foreign_host {t : Nat} (h : t ≠ tenantOf s qp) : foreign (.host qp) s t = true := decide_eq_true h.symm

theorem indexSeen_foreign {x : VIndex} (hx : vindex? s (accRegs s (.host qp)).idxSel = some x) (h : x.tenant ≠ tenantOf s qp) :
    indexSeen (.host qp) s = none := by
  simp only [indexSeen, hx, foreign_host h, Bool.or_true, if_true]

theorem jobSeen_foreign {j : Job} (hj : job? s (accRegs s (.host qp)).jobSel = some j) (h : j.map.tenant ≠ tenantOf s qp) :
    jobSeen (.host qp) s = none := by
  simp only [jobSeen, hj, foreign_host h, Bool.or_true, if_true]

/-- A meter is seen through the tenant's own queue pairs alone. -/
theorem meterSeen_unnamed
    (h : (qpCfgs s).all (fun c => !(c.meter = (accRegs s (.host qp)).meterSel && c.tenant = tenantOf s qp)) = true) :
    meterSeen (.host qp) s = none := by
  have hn : ((qpCfgs s).any fun c => c.meter = (accRegs s (.host qp)).meterSel && c.tenant = tenantOf s qp) = false := by
    rw [List.any_eq_not_all_not, h]
    rfl
  simp only [meterSeen, hn, Bool.and_false, Bool.false_eq_true, if_false]

/-! ### What the registers of a selection read then -/

theorem qpInfo_reads_zero (h : tenantOf s (accRegs s (.host qp)).qpSel ≠ tenantOf s qp) : regValue (.host qp) 0x600050 s = 0 :=
  if_pos (foreign_host h)

theorem index_reads_zero (h : indexSeen (.host qp) s = none) :
    ∀ off ∈ [0x500028, 0x500030, 0x500038], regValue (.host qp) off s = 0 := by
  simp [regValue, vecValue, h]

theorem job_reads_zero (h : jobSeen (.host qp) s = none) :
    ∀ off ∈ [0x900010, 0x900018, 0x900020], regValue (.host qp) off s = 0 := by
  simp [regValue, mapValue, h]

theorem meter_reads_zero (h : meterSeen (.host qp) s = none) :
    ∀ off ∈ [0x700018, 0x700020, 0x700028], regValue (.host qp) off s = 0 := by
  have hz : two32 0 0 = 0 := rfl
  simp [regValue, shpValue, h, hz]

/-- From SES_INSPECT_0 on, the block's registers are the words of the inspected session. -/
theorem sesValue_inspect {acc : Port} {off : Nat} (h : 0x30 ≤ off) :
    sesValue acc off s = if foreign acc s (accRegs s acc).inspectTenant then 0 else wordAt (accRegs s acc).inspect ((off - 0x30) / 8) := by
  unfold sesValue
  dsimp only
  split
  iterate 6 next => omega
  rfl

theorem inspect_reads_zero {i : Nat} (hi : i < 32) (h : (accRegs s (.host qp)).inspectTenant ≠ tenantOf s qp) :
    regValue (.host qp) (0x000030 + 8 * i) s = 0 := by
  have hb : (0x30 + 8 * i) / 2 ^ 20 = 0 := by omega
  have ho : (0x30 + 8 * i) % 2 ^ 20 = 0x30 + 8 * i := by omega
  simp only [regValue, hb, ho, sesValue_inspect (Nat.le_add_right ..), foreign_host h, if_true]

end

/-- Settles O18: the three refusals, then each register by what its selection shows. -/
theorem hostAccessNeedsItsRights : Obligations.HostAccessNeedsItsRights := by
  refine ⟨fun qp off v s r hr hm => ?_, fun h off s t d u r hs hr hm => ?_, fun h off v s t d u r hs hr hm => ?_, fun qp s => ?_⟩
  · exact run_eq (writeRegister_denied hr hm)
  · exact run_eq ((servedB_tackRowB hs).trans (regReadEff_denied hr hm))
  · exact run_eq ((servedB_tackRowB hs).trans (regWriteEff_denied hr hm))
  · exact ⟨qpInfo_reads_zero, fun _ hx ht => index_reads_zero (indexSeen_foreign hx ht),
      fun _ hj ht => job_reads_zero (jobSeen_foreign hj ht), fun ht _ hi => inspect_reads_zero hi ht,
      fun hm => meter_reads_zero (meterSeen_unnamed hm)⟩

end Sys2Proof.Proofs
end

section
/-!
PROOFS. The commands of the host link and of a queue pair's connection, congestion and retries (R243, R244, R246 to R248, R274),
each in the state that takes it.
-/
namespace Sys2Proof.Proofs
open Sys2Proof Sys2Proof.Machine

section
variable {qp : Nat} {s : State}

/-! ### The link -/

/-- A link that is down and not held comes up with its virtual times at 0 (R274, R286). -/
theorem hostUp_down (hl : s.hst.linkUp = false) (ho : s.pwr.osfpHeld = false) :
    hostUp s = (
      let v := modPort 0 (fun p => { p with v := 0, maxF := 0, queues := p.queues.map fun q => (q.1, { q.2 with fLast := 0 }) }) s
      { v with hst := { v.hst with linkUp := true } }) := by
  simp only [hostUp, hl, ho, Bool.or_self, Bool.false_eq_true, if_false]

/-- Of a link that stayed down for 1 s every queue pair goes DOWN (R248). -/
theorem linkDownOver_down (hl : s.hst.linkUp = false) :
    linkDownOver s = (
      let v := advance (s.hst.downAt + 1000000000) s
      (v.hst.qps.filter (·.2.st ≠ 0)).foldl (fun s q => leaveReady q.1 0 s) v) := by
  simp only [linkDownOver, hl, Bool.false_eq_true, if_false]

/-! ### Connections -/

theorem moveQp_from {a b : Nat} (h : (qpOf s qp).st = a) :
    moveQp qp a b s = modQp qp (fun q => { q with st := b, since := now s }) s := if_pos h

theorem qpTimeout_from {a : Nat} (h : (qpOf s qp).st = a) :
    qpTimeout qp a s = moveQp qp a 0 (advance ((qpOf s qp).since + 1000000000) s) := if_pos h

theorem disconnect_ready (h : (qpOf s qp).st = 2) : disconnect qp s = sendCm qp 5 [] (leaveReady qp 0 s) := if_pos h

/-- Private data of R246 that names a DOWN queue pair of the image and a version in use makes it CONNECTING, and answers REP. -/
theorem cmRequest_legal {p : Bytes} {remote cls flow : Nat} (htx : s.hst.txOn = true) (hlen : 12 ≤ p.length)
    (hmagic : leAt p 0 4 = 0x4B434154) (hlo : 1 ≤ leAt p 6 1) (hhi : leAt p 6 1 ≤ 4) (hqp : leAt p 4 2 ≤ 16383)
    (hcfg : (qpCfg? s (leAt p 4 2)).isSome = true)
    (hver : (((List.range (min (leAt p 6 1) 4)).map fun i => leAt p (8 + i) 1).any versionOk) = true)
    (hst : (qpOf s (leAt p 4 2)).st = 0) :
    cmRequest p remote cls flow s = (
      let qp := leAt p 4 2
      sendCm qp 1 (le 0x4B434154 4 ++ le qp 2 ++ le 0x48 1 ++ zeros 1 ++ le 65536 4 ++ le (creditsPerQp s) 2)
        (modQp qp (fun q => { q with
          st := 1, gen := q.gen + 1, version := 0x48, remote := remote, tcls := cls, flow := flow, since := now s, rate := lineRate,
          lastCnpOut := none, lastCnpIn := now s }) s)) := by
  have hdata : ¬ (p.length < 12 || leAt p 0 4 ≠ 0x4B434154 || leAt p 6 1 = 0 || leAt p 6 1 > 4 || leAt p 4 2 > 16383) = true := by
    simp only [Bool.or_eq_true, decide_eq_true_eq]
    omega
  have hnone : (qpCfg? s (leAt p 4 2)).isNone = false := Option.isNone_eq_false_iff.mpr hcfg
  unfold cmRequest
  dsimp only
  rw [if_neg (by simp [htx]), if_neg hdata, if_neg (by simp [hnone]), if_neg (by simp [hver]), if_neg (by simp [hst])]
  rfl

/-! ### Congestion and retries -/

theorem cnpReceived_ready (h : (qpOf s qp).st = 2) :
    cnpReceived qp s = modQp qp (fun q => { q with rate := max 1000000000 (q.rate / 2), lastCnpIn := now s }) s := if_pos h

/-- 55 µs after the last CNP a READY queue pair below line rate gains 1/64 of it (R244). -/
theorem rateRecovers_below (h : (qpOf s qp).st = 2) (hr : (qpOf s qp).rate < lineRate) :
    rateRecovers qp s = (
      let v := advance ((qpOf s qp).lastCnpIn + 55000) s
      modQp qp (fun q => { q with rate := min lineRate (q.rate + lineRate / 64), lastCnpIn := now v }) v) :=
  if_pos (by simp only [h, hr, decide_true, Bool.and_self])

/-- While retries are left, the requests that nothing acknowledged are sent again (R244). -/
theorem ackTimedOut_retries (h : (qpOf s qp).st = 2) (hu : (qpOf s qp).unacked.isEmpty = false)
    (hr : (qpOf s qp).retries < wfield s.regs.hstCfg 11 3) :
    ackTimedOut qp s = (qpOf s qp).unacked.foldl (fun s o => sendAgain qp o s)
      (modQp qp (fun q => { q with retries := q.retries + 1, unacked := [] }) (advance ((qpOf s qp).sentAt + ackTimeoutNs s) s)) := by
  unfold ackTimedOut
  dsimp only
  rw [if_neg (by simp [h, hu]), if_neg (by rw [advance_regs]; omega)]

theorem ackReceived_some {n : Nat} (h : (qpOf s qp).st = 2) (hn : 1 ≤ n) :
    ackReceived qp n s = modQp qp (fun q => { q with unacked := q.unacked.drop n, retries := 0 }) s :=
  if_neg (by simp [h]; omega)

/-- A READY queue pair that enters ERROR sends DREQ, and logs it (R243). -/
theorem qpError_ready (h : (qpOf s qp).st = 2) :
    qpError qp s = logTo [tenantOf s qp] 1 6 (unitChip 0x30) 0x0601 qp
      (pushCtl (.cm (qpNumber qp) [] 4) 324 (leaveReady qp 3 s)) := if_pos h

theorem peerRequest_ready {kind : Nat} (h : (qpOf s qp).st = 2) :
    peerRequest qp kind s = pushCtl (.nak qp (if kind ≤ 2 then 2 else 1)) (roceLen s false 4) s := if_pos h

end

/-- Settles O45, command by command. -/
theorem queuePairCommandsComplete : Obligations.QueuePairCommandsComplete := by
  refine ⟨fun s hl ho => ?_, fun s hl => ?_, fun s hl => ?_, fun p remote ip s htx hlen hm hlo hhi hqp hcfg hver hst => ?_,
    fun qp s h => ⟨?_, ?_⟩, fun qp s h => ⟨?_, ?_⟩, fun qp s h => ⟨?_, ?_, ?_, fun kind => ?_, fun n hn => ?_⟩,
    fun qp s h hr => ?_, fun qp s h hu hr => ?_, fun prios quanta s => ?_⟩
  · exact run_eq (hostUp_down hl ho)
  · exact run_eq (if_pos hl)
  · exact run_eq (linkDownOver_down hl)
  · exact run_eq (cmRequest_legal htx hlen hm hlo hhi hqp hcfg hver hst)
  · exact run_eq (moveQp_from h)
  · exact run_eq (qpTimeout_from h)
  · exact run_eq (moveQp_from h)
  · exact run_eq (qpTimeout_from h)
  · exact run_eq (disconnect_ready h)
  · exact run_eq (cnpReceived_ready h)
  · exact run_eq (qpError_ready h)
  · exact run_eq (peerRequest_ready h)
  · exact run_eq (ackReceived_some h hn)
  · exact run_eq (rateRecovers_below h hr)
  · exact run_eq (ackTimedOut_retries h hu hr)
  · exact run_next _ s

end Sys2Proof.Proofs
end

section
/-!
PROOFS. Frames by units, with the lace agent and the security block among them.
-/
namespace Sys2Proof.Proofs
open Sys2Proof Sys2Proof.Machine

/-- The units of `UnitSet`, the lace agent and the security block. -/
structure AgentUnits extends UnitSet where
  map : Bool := false
  sec : Bool := false

/-- The state with those units, and the limit counts and marks, blank. -/
def AgentUnits.hide (u : AgentUnits) (s : State) : State :=
  let t := u.toUnitSet.hide s
  { t with map := cond u.map {} s.map, sec := cond u.sec {} s.sec }

/-- `s` with those units, and the limit counts and marks, as they are in `t`. -/
def AgentUnits.take (u : AgentUnits) (s t : State) : State :=
  let v := u.toUnitSet.take s t
  { v with map := cond u.map t.map s.map, sec := cond u.sec t.sec s.sec }

theorem AgentUnits.take_self (u : AgentUnits) (s : State) : u.take s s = s := by
  simp only [AgentUnits.take, UnitSet.take_self, Bool.cond_self]

/-- What is hidden has no part in what is kept. -/
theorem AgentUnits.take_hide (u : AgentUnits) (s t : State) : u.take (u.hide s) t = u.take s t := by
  have h {α : Type} (b : Bool) (x y z : α) : cond b x (cond b y z) = cond b x z := by cases b <;> rfl
  simp only [AgentUnits.take, AgentUnits.hide, UnitSet.take, UnitSet.hide, h]

/-- `t` is `s` but for the units of `u` and the limit counts and marks. -/
def AgentFrame (u : AgentUnits) (s t : State) : Prop := u.hide t = u.hide s

namespace AgentFrame
variable {u : AgentUnits} {s t v : State}

theorem refl (s : State) : AgentFrame u s s := rfl

theorem trans (hs : AgentFrame u s t) (ht : AgentFrame u t v) : AgentFrame u s v := Eq.trans ht hs

/-- The waiting commands and the marks of R482 are brought up to date. -/
theorem after (ht : AgentFrame u s t) : AgentFrame u s (after s t) :=
  congrArg (fun x : State => ({ x with pending := s.pending } : State)) ht

theorem ite {b : Prop} [Decidable b] (ht : b → AgentFrame u s t) (hv : ¬ b → AgentFrame u s v) :
    AgentFrame u s (if b then t else v) := by
  split
  · next hb => exact ht hb
  · next hb => exact hv hb

theorem foldl {α : Type} {f : State → α → State} (hf : ∀ s a, AgentFrame u s (f s a)) (l : List α) (s : State) :
    AgentFrame u s (l.foldl f s) := by
  induction l generalizing s with
  | nil => exact refl s
  | cons a l ih => exact (hf s a).trans (ih _)

theorem eq_take (ht : AgentFrame u s t) : t = u.take s t :=
  calc t = u.take (u.hide t) t := by rw [u.take_hide, u.take_self]
    _ = u.take s t := by rw [ht, u.take_hide]

/-- A command that answers a next state leaves what its meaning leaves. -/
theorem run {f : State → State} (hf : AgentFrame u s (f s)) : ∀ t, Machine.run f s = .next t → t = u.take s t := by
  intro t ht
  cases ht
  exact hf.after.eq_take

/-- A frame by the units of `UnitSet` leaves the two further ones too. -/
theorem of_outside (ht : SameOutside u.toUnitSet s t) : AgentFrame u s t :=
  congrArg (fun x : State => ({ x with map := cond u.map {} x.map, sec := cond u.sec {} x.sec } : State)) ht

/-- Events and frames change the host port and the shapers. -/
theorem of_host (hh : u.hst = true) (hp : u.shp = true) (ht : SameButHost s t) : AgentFrame u s t :=
  of_outside (.of_host hh hp ht)

/-- A new value of the lace agent. -/
theorem map (h : u.map = true) (x) (s : State) : AgentFrame u s { s with map := x } := by
  simp only [AgentFrame, AgentUnits.hide, UnitSet.hide, h, cond_true]

/-- A new value of the security block. -/
theorem sec (h : u.sec = true) (x) (s : State) : AgentFrame u s { s with sec := x } := by
  simp only [AgentFrame, AgentUnits.hide, UnitSet.hide, h, cond_true]

end AgentFrame

end Sys2Proof.Proofs
end

section
/-!
PROOFS. What the messages and times of the lace's agreement, the audit's times and rings, a Follow_Up and a ring's consumer count leave as
they were (R261, R266, R267, R347 to R349, R416, R418, R419).
-/
namespace Sys2Proof.Proofs
open Sys2Proof Sys2Proof.Machine

variable {u : AgentUnits}

theorem agent_onFabric {f : State → State} {s : State} (h : AgentFrame u s (f s)) : AgentFrame u s (onFabric f s) :=
  .ite (fun _ => h) fun _ => .refl s

theorem agent_hit (i : Nat) (s : State) : AgentFrame u s (hit i s) := .of_outside (.hit i s)

theorem agent_advance (hclk : u.clk = true) (t : Nat) (s : State) : AgentFrame u s (advance t s) :=
  .of_outside (outside_advance hclk t s)

/-! ### The lace agent -/

section
variable (hmap : u.map = true)
include hmap

theorem agent_setJob (n : Nat) (j : Option Job) (s : State) : AgentFrame u s (setJob n j s) := .map hmap _ s

theorem agent_modJob (n : Nat) (f : Job → Job) (s : State) : AgentFrame u s (modJob n f s) := by
  unfold modJob
  split
  · exact .refl s
  · exact .map hmap _ s

theorem agent_grantLease (n : Nat) (s : State) : AgentFrame u s (grantLease n s) := by
  unfold grantLease
  split
  · exact .refl s
  split
  · exact agent_modJob hmap ..
  · exact .refl s

theorem agent_forgetEmpty (n : Nat) (s : State) : AgentFrame u s (forgetEmpty n s) := by
  unfold forgetEmpty
  split
  · exact .ite (fun _ => agent_setJob hmap ..) fun _ => .refl s
  · exact .refl s

/-- A part of a payload is kept with its job, or leaves with the last. -/
theorem agent_collectPart (n : Nat) (l : LaceHdr) (part : Bytes) (s : State) : AgentFrame u s (collectPart n l part s).2 := by
  unfold collectPart
  dsimp only
  split <;> exact agent_setJob hmap ..

theorem agent_heartbeatAcked (l : LaceHdr) (s : State) : AgentFrame u s (heartbeatAcked l s) := by
  unfold heartbeatAcked
  split
  · exact .refl s
  · exact .ite (fun _ => (agent_modJob hmap ..).trans (agent_grantLease hmap ..)) fun _ => .refl s

section
variable (hclk : u.clk = true)
include hclk

theorem agent_leaseOver (n : Nat) (s : State) : AgentFrame u s (leaseOver n s) := by
  unfold leaseOver
  split
  · exact .refl s
  · exact .ite (fun _ => (agent_advance hclk ..).trans (agent_modJob hmap ..)) fun _ => .refl s

theorem agent_candidateOver (n : Nat) (s : State) : AgentFrame u s (candidateOver n s) := by
  unfold candidateOver
  split
  · exact .refl s
  · exact .ite (fun _ => (agent_advance hclk ..).trans (agent_modJob hmap ..)) fun _ => .refl s

end
end

/-! ### Lace messages that go out -/

theorem sbh_noteVersion (n : Nat) (b : Bytes) (o : Nat) (s : State) : SameButHost s (noteVersion n b o s) := by
  unfold noteVersion
  split
  · rfl
  · exact sbh_logAll ..

section
variable (hhst : u.hst = true) (hshp : u.shp = true) (hwlt : u.wlt = true) (hout : u.out = true)
include hhst hshp hwlt hout

theorem agent_sendLace (d n : Nat) (h : LaceHdr) (x : Bytes) (s : State) (p : Purpose) : AgentFrame u s (sendLace d n h x s p) :=
  .of_outside ((SameOutside.out hout _ s).trans (.of_fabric hhst hshp hwlt (sbf_issue ..)))

theorem agent_laceAll (l : List Nat) (n : Nat) (h : LaceHdr) (x : Bytes) (s : State) : AgentFrame u s (laceAll l n h x s) :=
  .foldl (fun s d => agent_sendLace hhst hshp hwlt hout d n h x s _) _ s

theorem agent_laceParts (l : List Nat) (n : Nat) (h : LaceHdr) (x : Bytes) (s : State) : AgentFrame u s (laceParts l n h x s) :=
  .foldl (fun s _ => agent_laceAll hhst hshp hwlt hout l n _ _ s) _ s

theorem agent_syncAsked (l : LaceHdr) (s : State) : AgentFrame u s (syncAsked l s) := by
  unfold syncAsked
  split
  · exact .refl s
  · exact .ite (fun _ => .refl s) fun _ => agent_laceParts hhst hshp hwlt hout ..

variable (hmap : u.map = true)
include hmap

/-- A proposal is collected, and with its last part answered (R349). -/
theorem agent_proposed (l : LaceHdr) (part : Bytes) (s : State) : AgentFrame u s (proposed l part s) := by
  have hc := agent_collectPart hmap 1 l part s
  have hsend := agent_sendLace hhst hshp hwlt hout
  unfold proposed
  split
  · next v hv =>
    rw [hv] at hc
    exact hc
  · next b v hv =>
    rw [hv] at hc
    refine hc.trans ?_
    split
    · exact (AgentFrame.of_host hhst hshp (sbh_noteVersion ..)).trans (agent_forgetEmpty hmap ..)
    extract_lets own
    split
    · refine AgentFrame.trans ?_ (agent_forgetEmpty hmap ..)
      exact AgentFrame.trans (.ite (fun _ => agent_hit ..) fun _ => .refl v) (hsend ..)
    · exact (agent_modJob hmap ..).trans (hsend ..)

theorem agent_heartbeatIn (l : LaceHdr) (s : State) : AgentFrame u s (heartbeatIn l s) := by
  have hsend := agent_sendLace hhst hshp hwlt hout
  unfold heartbeatIn
  split
  · exact .refl s
  refine .ite (fun _ => .refl s) fun _ => ?_
  extract_lets v a h w
  have hw : AgentFrame u v w := .ite (fun _ => (agent_modJob hmap ..).trans (hsend ..)) fun _ => .refl v
  exact (agent_modJob hmap ..).trans (hw.trans (.ite (fun _ => hsend ..) fun _ => .refl w))

theorem agent_voteAsked (l : LaceHdr) (s : State) : AgentFrame u s (voteAsked l s) := by
  unfold voteAsked
  split
  · exact .refl s
  refine .ite (fun _ => .refl s) fun _ => ?_
  extract_lets ok v
  have hv : AgentFrame u s v := .ite (fun _ => agent_modJob hmap ..) fun _ => .refl s
  exact hv.trans (agent_sendLace hhst hshp hwlt hout ..)

theorem agent_heartbeatDue (hclk : u.clk = true) (n : Nat) (s : State) : AgentFrame u s (heartbeatDue n s) := by
  unfold heartbeatDue
  split
  · exact .refl s
  refine .ite (fun _ => .refl s) fun _ => ?_
  extract_lets v live w
  have hv : AgentFrame u s v := .ite (fun _ => .refl s) fun _ => agent_advance hclk ..
  have hw : AgentFrame u v w := agent_modJob hmap ..
  exact (hv.trans hw).trans ((agent_laceAll hhst hshp hwlt hout ..).trans (agent_grantLease hmap ..))

end

/-! ### The security block -/

/-- A signature takes 16 random bytes. -/
theorem agent_idSign (hfree : u.free = true) (m : Bytes) (s : State) : AgentFrame u s (idSign m s).2 :=
  .of_outside (.free hfree _ s)

section
variable (hsec : u.sec = true)
include hsec

theorem agent_modSec (f : Sec → Sec) (s : State) : AgentFrame u s (modSec f s) := .sec hsec _ s

theorem agent_closeInterval (e n : Nat) (free : Bool) (s : State) : AgentFrame u s (closeInterval e n free s) := by
  unfold closeInterval
  extract_lets later p c v
  have hv : AgentFrame u s v := .ite (fun _ => .sec hsec _ s) fun _ => .refl s
  exact hv.trans (.sec hsec _ v)

theorem agent_lockInterval (s : State) : AgentFrame u s (lockInterval s) :=
  (AgentFrame.sec hsec _ s).trans (agent_closeInterval hsec ..)

theorem agent_intervalEnd (hclk : u.clk = true) (s : State) : AgentFrame u s (intervalEnd s) :=
  .ite (fun _ => .refl s) fun _ => (agent_advance hclk ..).trans (agent_closeInterval hsec ..)

variable (hhst : u.hst = true) (hshp : u.shp = true)
include hhst hshp

/-- Records that wait go to the audit ring while it has room; a full one's consumer count is read (R416). -/
theorem agent_deliverAudit (t : Nat) (s : State) : AgentFrame u s (deliverAudit t s) := by
  have host {s v : State} (h : SameButHost s v) : AgentFrame u s v := .of_host hhst hshp h
  unfold deliverAudit
  split
  · exact .refl s
  extract_lets a n v r' w x full y
  have hv : AgentFrame u s v := .foldl (fun _ _ => host (sbh_rdmaWrite ..)) _ s
  have hw : AgentFrame u v w := .sec hsec _ v
  have hx : AgentFrame u w x := .ite (fun _ => .refl w) fun _ => host (sbh_rdmaWrite ..)
  have hy : AgentFrame u x y := host (sbh_modQp ..)
  exact ((hv.trans hw).trans (hx.trans hy)).trans (.ite (fun _ => host (sbh_readConsumer ..)) fun _ => .refl y)

theorem agent_auditPoll (t n : Nat) (s : State) : AgentFrame u s (auditPoll t n s) := by
  unfold auditPoll
  split
  · exact .refl s
  · exact (AgentFrame.of_host hhst hshp (sbh_modQp ..)).trans (agent_deliverAudit hsec hhst hshp ..)

/-- A signed root takes random bytes, is kept, and is told to every event ring (R419). -/
theorem agent_rootSigned (hfree : u.free = true) (s : State) : AgentFrame u s (rootSigned s) := by
  unfold rootSigned
  split
  · exact .refl s
  · next p rest _ =>
    refine (agent_idSign hfree p.rcd s).trans ?_
    exact (agent_modSec hsec ..).trans ((AgentFrame.of_host hhst hshp (sbh_logTo ..)).trans (agent_modSec hsec ..))

/-- A Follow_Up measures the clock; the first lock starts the gates and an audit interval (R266, R291). -/
theorem agent_followUp (hclk : u.clk = true) (q t : Nat) (s : State) : AgentFrame u s (followUp q t s) := by
  have hset (f : Clock → Clock) (v : State) : AgentFrame u v (modClk f v) := .of_outside (.clk hclk _ v)
  have hgates (v : State) : AgentFrame u v (startGates v) := .of_host hhst hshp rfl
  unfold followUp
  split
  · exact .refl s
  refine .ite (fun _ => .refl s) fun _ => ?_
  extract_lets v before w x
  have hx : AgentFrame u w x := .ite (fun _ => (hgates w).trans (agent_lockInterval hsec _)) fun _ => .refl w
  have hfin : AgentFrame u v (if before && x.clk.offset.natAbs > 1000000 then ptpEvent x else x) :=
    ((hset ..).trans hx).trans (.ite (fun _ => .of_host hhst hshp (sbh_logAll ..)) fun _ => .refl x)
  exact (hset ..).trans (.ite (fun _ => .refl v) fun _ => hfin)

end

/-! ### A ring's consumer count (R12, R261, R416) -/

theorem sbh_issueReads (q : Nat) (r : DataRef) (i n : Nat) (s : State) : SameButHost s (issueReads q r i n s) :=
  sbh_foldl _ (fun _ _ => sbh_rdmaRead ..) _ s

theorem sbh_launchList (q room : Nat) (l : List Fetch) (s : State) : SameButHost s (launchList q room l s).2 := by
  induction l generalizing room s with
  | nil => rfl
  | cons f l ih =>
    simp only [launchList]
    exact (sbh_issueReads ..).trans (ih ..)

theorem sbh_launchReads (q : Nat) (s : State) : SameButHost s (launchReads q s) := by
  unfold launchReads
  extract_lets p k v
  have hv : SameButHost s v := (sbh_modQp ..).trans (sbh_foldl _ (fun _ _ => sbh_rdmaRead ..) _ _)
  exact hv.trans ((sbh_launchList ..).trans (sbh_modQp ..))

theorem sbh_readsDone (q a n : Nat) (s : State) : SameButHost s (readsDone q a n s) := rfl

/-- The ring's new value, and the reads that waited for the count. -/
theorem sbh_ringRead (q a n : Nat) (f : Qp → Qp) (s : State) :
    SameButHost s (launchReads q (modQp q f (readsDone q a n s))) :=
  (sbh_readsDone ..).trans ((sbh_modQp ..).trans (sbh_launchReads ..))

theorem sbh_releaseHeld (q : Nat) (l : List (ResultRec × Option (Nat × Nat))) (s : State) : SameButHost s (releaseHeld q l s) := by
  induction l generalizing s with
  | nil => rfl
  | cons x l ih =>
    unfold releaseHeld
    split
    · rfl
    · refine SameButHost.trans ?_ (ih _)
      split
      · exact sbh_modQp ..
      · exact sbh_writeRecord ..

/-- Each kind of ring is read by its own way out. -/
theorem agent_consumerRead (hhst : u.hst = true) (hshp : u.shp = true) (hsec : u.sec = true) (hwlt : u.wlt = true)
    (hout : u.out = true) (hfree : u.free = true) (q k n : Nat) (s : State) : AgentFrame u s (consumerRead q k n s) := by
  have host {s v : State} (h : SameButHost s v) : AgentFrame u s v := .of_host hhst hshp h
  unfold consumerRead
  extract_lets seen qp ring read
  clear_value ring
  split
  · exact .refl s
  refine .ite (fun _ => .refl s) fun _ => ?_
  extract_lets v
  split
  · refine AgentFrame.trans (host ?_) (.of_outside (outside_drainBatch hhst hshp hwlt hout hfree _))
    exact (sbh_ringRead ..).trans ((sbh_releaseHeld ..).trans ((sbh_settleTurns ..).trans (sbh_flushOrder ..)))
  · exact host ((sbh_ringRead ..).trans (sbh_deliverEvents ..))
  · exact (host (sbh_ringRead ..)).trans (agent_deliverAudit hsec hhst hshp ..)

end Sys2Proof.Proofs

namespace Sys2Proof.Proofs
open Sys2Proof Sys2Proof.Machine

/-- Settles O32: each command's meaning changes no unit but those of the operations that it is made of. -/
theorem agreementFrames : Obligations.AgreementFrames := by
  intro s k1 k2 k3 k4 k5 k6 k7 k8 k9 k10
  refine ⟨fun l => ?_, fun j => ?_, fun j => ?_, ?_, fun t n => ?_, fun h t => ?_, ?_, fun l => ?_, fun l x => ?_, fun l => ?_,
    fun l => ?_, fun j => ?_, fun q k n => ?_⟩
  · exact AgentFrame.run (u := { map := true }) (agent_onFabric (agent_heartbeatAcked rfl l s))
  · exact AgentFrame.run (u := { clk := true, map := true }) (agent_candidateOver rfl rfl j s)
  · exact AgentFrame.run (u := { clk := true, map := true }) (agent_leaseOver rfl rfl j s)
  · exact AgentFrame.run (u := { clk := true, sec := true }) (agent_intervalEnd rfl rfl s)
  · exact AgentFrame.run (u := { hst := true, sec := true, shp := true }) (agent_auditPoll rfl rfl rfl t n s)
  · exact AgentFrame.run (u := { clk := true, hst := true, sec := true, shp := true })
      (f := onPtp h (followUp h.sq t)) (.ite (fun _ => agent_followUp rfl rfl rfl rfl _ t s) fun _ => .refl s)
  · exact AgentFrame.run (u := { free := true, hst := true, sec := true, shp := true }) (agent_rootSigned rfl rfl rfl rfl s)
  · exact AgentFrame.run (u := { hst := true, out := true, shp := true, wlt := true })
      (agent_onFabric (agent_syncAsked rfl rfl rfl rfl l s))
  · exact AgentFrame.run (u := { hst := true, map := true, out := true, shp := true, wlt := true })
      (agent_onFabric (agent_proposed rfl rfl rfl rfl rfl l x s))
  · exact AgentFrame.run (u := { hst := true, map := true, out := true, shp := true, wlt := true })
      (agent_onFabric (agent_heartbeatIn rfl rfl rfl rfl rfl l s))
  · exact AgentFrame.run (u := { hst := true, map := true, out := true, shp := true, wlt := true })
      (agent_onFabric (agent_voteAsked rfl rfl rfl rfl rfl l s))
  · exact AgentFrame.run (u := { clk := true, hst := true, map := true, out := true, shp := true, wlt := true })
      (agent_heartbeatDue rfl rfl rfl rfl rfl rfl j s)
  · exact AgentFrame.run (u := { free := true, hst := true, out := true, sec := true, shp := true, wlt := true })
      (agent_consumerRead rfl rfl rfl rfl rfl rfl q k n s)

end Sys2Proof.Proofs
end

section
/-!
PROOFS. What the times and changes of a Welt link leave as they were (R308, R309, R315, R321, R323, R408): a link that trains, keys or goes
down changes links, egress ports and events, and only those.
-/
namespace Sys2Proof.Proofs
open Sys2Proof Sys2Proof.Machine

/-! ### Operations on a link -/

theorem sbf_enterLink (l st : Nat) (s : State) : SameButFabric s (enterLink l st s) := sbf_modLink ..

theorem sbh_dropHeld (l : Nat) (s : State) : SameButHost s (dropHeld l s) := rfl

/-- A link that leaves its state gives its frames back to routing (R317). -/
theorem sbf_leaveLink (l st : Nat) (s : State) : SameButFabric s (leaveLink l st s) := by
  unfold leaveLink
  extract_lets k p sent waiting all v w
  have hv : SameButFabric s v := (sbh_dropHeld ..).fabric.trans (sbf_modLink ..)
  have hw : SameButFabric v w := (sbh_modPort ..).fabric
  exact (hv.trans hw).trans (sbf_foldl _ (fun _ _ => sbf_routeFrame ..) _ w)

/-- A link that goes DOWN records its reason, and may log an event (R308). -/
theorem sbf_linkDown (l : Nat) (reason : Option Nat) (ev : Bool) (s : State) : SameButFabric s (linkDown l reason ev s) := by
  unfold linkDown
  extract_lets v w
  have hw : SameButFabric s w := (sbf_leaveLink ..).trans (sbf_modLink ..)
  refine hw.trans ?_
  split
  · exact (sbh_logAll ..).fabric
  · rfl

theorem sbf_bringUp (l : Nat) (s : State) : SameButFabric s (bringUp l s) := by
  unfold bringUp
  exact (sbf_modLink ..).trans (sbh_modPort ..).fabric

theorem sbf_deriveKey (l : Nat) (s : State) : SameButFabric s (deriveKey l s) := by
  unfold deriveKey
  extract_lets k
  split
  · split
    · rfl
    · exact (sbf_modLink ..).trans (sbh_sendControl ..).fabric
  · rfl

theorem sbf_keyDone (l : Nat) (s : State) : SameButFabric s (keyDone l s) := by
  unfold keyDone
  extract_lets k
  split
  · rfl
  split
  · split
    · exact (sbf_modLink ..).trans (sbf_bringUp ..)
    · exact sbf_modLink ..
  · rfl

theorem sbf_lanesLocked (l mask : Nat) (s : State) : SameButFabric s (lanesLocked l mask s) := by
  unfold lanesLocked
  split
  · rfl
  split
  · exact (sbf_modLink ..).trans (sbf_enterLink ..)
  split
  · exact ((sbf_modLink ..).trans (sbf_enterLink ..)).trans (sbh_logAll ..).fabric
  · rfl

theorem sbf_fecSecond (l c n : Nat) (s : State) : SameButFabric s (fecSecond l c n s) := by
  unfold fecSecond
  extract_lets v
  refine (sbf_modLink ..).trans (?_ : SameButFabric v _)
  split
  · exact sbf_linkDown ..
  · rfl

/-! ### Frames that pass through, and requests sent again -/

theorem sbf_forward (l : Nat) (f : Frame) (s : State) : SameButFabric s (forward l f s) := by
  unfold forward
  split
  · rfl
  · exact sbf_routeFrame ..

/-- Requests are sent again as frames, and counted (R323). -/
theorem sbf_resend (os : List Outst) (s : State) : SameButFabric s (resend os s) := by
  unfold resend
  split
  · rfl
  · refine sbf_foldl _ (fun v o => ?_) os s
    exact SameButFabric.trans (t := { v with wlt := _ }) rfl (sbf_routeFrame ..)

theorem outside_onFabric {u : UnitSet} {f : State → State} {s : State} (h : SameOutside u s (f s)) : SameOutside u s (onFabric f s) :=
  .ite (fun _ => h) fun _ => .refl s

theorem outside_modPort {u : UnitSet} (hshp : u.shp = true) (p : Nat) (f : EPort → EPort) (s : State) :
    SameOutside u s (modPort p f s) := by
  simp only [SameOutside, UnitSet.hide, modPort, hshp, cond_true]

/-! ### With the clock, or with random bytes -/

section
variable {u : UnitSet} (hwlt : u.wlt = true)
include hwlt

theorem outside_modLink (l : Nat) (f : Link → Link) (s : State) : SameOutside u s (modLink l f s) := .wlt hwlt _ s

theorem outside_retrain (hclk : u.clk = true) (l : Nat) (s : State) : SameOutside u s (retrain l s) :=
  .ite (fun _ => (outside_advance hclk ..).trans (outside_modLink hwlt ..)) fun _ => .refl s

theorem outside_onceExpired (hclk : u.clk = true) (n k q : Nat) (s : State) : SameOutside u s (onceExpired n k q s) := by
  unfold onceExpired
  extract_lets same
  split
  · exact .refl s
  · exact (outside_advance hclk ..).trans (.wlt hwlt _ _)

variable (hshp : u.shp = true)
include hshp

/-- A NONCE is 32 random bytes, and leaves as a control frame (R408). -/
theorem outside_beginKey (hfree : u.free = true) (l : Nat) (s : State) : SameOutside u s (beginKey l s) := by
  unfold beginKey
  refine .ite (fun _ => .refl s) fun _ => ?_
  have hfresh : SameOutside u s (freshBytes 32 s).2 := .free hfree _ s
  exact hfresh.trans ((outside_modLink hwlt ..).trans (outside_modPort hshp ..))

variable (hhst : u.hst = true)
include hhst

theorem outside_linkDown (l : Nat) (reason : Option Nat) (ev : Bool) (s : State) : SameOutside u s (linkDown l reason ev s) :=
  .of_fabric hhst hshp hwlt (sbf_linkDown ..)

theorem outside_linkTimeout (hclk : u.clk = true) (l st ns : Nat) (reason : Option Nat) (ev : Bool) (s : State) :
    SameOutside u s (linkTimeout l st ns reason ev s) :=
  .ite (fun _ => (outside_advance hclk ..).trans (outside_linkDown hwlt hshp hhst ..)) fun _ => .refl s

theorem outside_confirmTimeout (hclk : u.clk = true) (l : Nat) (s : State) : SameOutside u s (confirmTimeout l s) :=
  .ite (fun _ => (outside_advance hclk ..).trans (outside_linkDown hwlt hshp hhst ..)) fun _ => .refl s

theorem outside_respTimedOut (hclk : u.clk = true) (tag : Nat) (s : State) : SameOutside u s (respTimedOut tag s) := by
  unfold respTimedOut
  split
  · exact .refl s
  · exact (outside_advance hclk ..).trans (.ite (fun _ => .of_fabric hhst hshp hwlt (sbf_resend ..)) fun _ => .refl _)

variable (hfree : u.free = true)
include hfree

/-- A TRAIN takes the link DOWN, to KEY or UP (R308, R309). -/
theorem outside_trainArrives (l : Nat) (m : TrainMsg) (s : State) : SameOutside u s (trainArrives l m s) := by
  have hdown := outside_linkDown hwlt hshp hhst
  have hkey := outside_beginKey hwlt hshp hfree
  unfold trainArrives
  refine .ite (fun _ => .refl s) fun _ => ?_
  split
  · exact hdown ..
  · refine (outside_modLink hwlt ..).trans (.ite (fun _ => .ite (fun _ => hdown ..) fun _ => ?_) fun _ => ?_)
    · exact (outside_modLink hwlt ..).trans (hkey ..)
    · exact .of_fabric hhst hshp hwlt (sbf_bringUp ..)

/-- A KEY frame is a NONCE, a CONFIRM, or nothing (R408). -/
theorem outside_keyArrives (l : Nat) (m : KeyMsg) (s : State) : SameOutside u s (keyArrives l m s) := by
  have fabric {s t : State} (h : SameButFabric s t) : SameOutside u s t := .of_fabric hhst hshp hwlt h
  unfold keyArrives
  extract_lets k
  refine .ite (fun _ => .refl s) fun _ => ?_
  split
  · exact (outside_beginKey hwlt hshp hfree ..).trans (fabric ((sbf_modLink ..).trans (sbf_deriveKey ..)))
  · split
    · exact .refl s
    · exact .ite (fun _ => fabric ((sbf_modLink ..).trans (sbf_keyDone ..))) fun _ => fabric (sbf_linkDown ..)
  · exact .refl s

end

/-- Settles O28: each command's meaning changes no unit but those of the operations that it is made of. -/
theorem linkFrames : Obligations.LinkFrames := by
  intro s k1 k2 k3 k4 k5 k6
  refine ⟨fun l => ?_, fun l => ?_, fun n k q => ?_, fun l => ?_, fun l m => ?_, fun l => ?_, fun x => ?_, fun l c n => ?_,
    fun l f => ?_, fun l => ?_, fun l => ?_, fun l => ?_, fun l => ?_, fun tag => ?_, fun l m => ?_, fun l m => ?_⟩
  · exact SameOutside.runOn (u := { wlt := true }) (.ite (fun _ => outside_modLink rfl ..) fun _ => .refl s)
  · exact SameOutside.runOn (u := { clk := true, wlt := true }) (outside_retrain rfl rfl l s)
  · exact SameOutside.run (u := { clk := true, wlt := true }) (outside_onceExpired rfl rfl n k q s)
  · exact SameOutside.runOn (u := { free := true, shp := true, wlt := true })
      (.ite (fun _ => outside_beginKey rfl rfl rfl l s) fun _ => .refl s)
  · exact SameOutside.runOn (u := { hst := true, shp := true, wlt := true }) (.of_fabric rfl rfl rfl (sbf_lanesLocked l m s))
  · exact SameOutside.runOn (u := { hst := true, shp := true, wlt := true })
      (.ite (fun _ => outside_linkDown rfl rfl rfl ..) fun _ => .refl s)
  · exact SameOutside.runOn (u := { hst := true, shp := true, wlt := true })
      (.ite (fun _ => outside_linkDown rfl rfl rfl ..) fun _ => .refl s)
  · exact SameOutside.runOn (u := { hst := true, shp := true, wlt := true }) (.of_fabric rfl rfl rfl (sbf_fecSecond l c n s))
  · exact SameOutside.runOn (u := { hst := true, shp := true, wlt := true })
      (outside_onFabric (.of_fabric rfl rfl rfl (sbf_forward l f s)))
  · exact SameOutside.runOn (u := { clk := true, hst := true, shp := true, wlt := true }) (outside_linkTimeout rfl rfl rfl rfl ..)
  · exact SameOutside.runOn (u := { clk := true, hst := true, shp := true, wlt := true }) (outside_linkTimeout rfl rfl rfl rfl ..)
  · exact SameOutside.runOn (u := { clk := true, hst := true, shp := true, wlt := true }) (outside_linkTimeout rfl rfl rfl rfl ..)
  · exact SameOutside.runOn (u := { clk := true, hst := true, shp := true, wlt := true }) (outside_confirmTimeout rfl rfl rfl rfl l s)
  · exact SameOutside.run (u := { clk := true, hst := true, shp := true, wlt := true }) (outside_respTimedOut rfl rfl rfl rfl tag s)
  · exact SameOutside.runOn (u := { free := true, hst := true, shp := true, wlt := true }) (outside_trainArrives rfl rfl rfl rfl l m s)
  · exact SameOutside.runOn (u := { free := true, hst := true, shp := true, wlt := true }) (outside_keyArrives rfl rfl rfl rfl l m s)

end Sys2Proof.Proofs
end

section
/-!
PROOFS. What a request at its home leaves as it was (R320, R321, R325): T1 is written and a result stored only where the request is
applied, and a request that is not next in its stream, or of an older incarnation, is not.
-/
namespace Sys2Proof.Proofs
open Sys2Proof Sys2Proof.Machine

/-! ### The stream at its home (R321) -/

/-- The state in which a request of a newer incarnation has begun its stream anew, and the results that it acknowledges are freed. -/
def entered (r : Request) (s : State) : State :=
  freeOnce r (if r.incarnation > (homeStream s r.hdr.src r.stream).incarnation then
    let v := setHome r.hdr.src r.stream { incarnation := r.incarnation, next := 0 } s
    { v with wlt := { v.wlt with once := v.wlt.once.filter fun y => y.node ≠ r.hdr.src || y.stream ≠ r.stream } }
  else s)

/-- The SEQ that the home takes next from a request's stream. -/
def nextSeq (s : State) (r : Request) : Nat :=
  ((homeStream s r.hdr.src r.stream).next + ((waitingOf s r).map (·.2.2.seq)).eraseDups.length) % 2 ^ 32

section
variable {l : Nat} {r : Request} {s : State} {no : Bool}

theorem homeRequest_chipOut (hc : s.err.chipOut = true) : homeRequest l r s no = (false, respond l r 3 0 [] s) := if_pos hc

theorem homeRequest_stale (hc : s.err.chipOut = false) (hi : r.incarnation < (homeStream s r.hdr.src r.stream).incarnation) :
    homeRequest l r s no = (false, { s with wlt := { s.wlt with stale := sat (s.wlt.stale + 1) 32 } }) :=
  (if_neg (Bool.eq_false_iff.mp hc)).trans (if_pos hi)

/-- A request that is not stale waits, is taken, is a gap or a duplicate. -/
theorem homeRequest_entered (hc : s.err.chipOut = false) (hi : (homeStream s r.hdr.src r.stream).incarnation ≤ r.incarnation) :
    homeRequest l r s no = (
      let w := entered r s
      if r.seq = nextSeq w r then
        if mustWait w r then (false, bufferRequest l r (if atomicOp r.op then hit 2 w else w)) else takeRequest l no r w
      else if seqBefore (nextSeq w r) r.seq then
        (false, respond l r 6 (nextSeq w r) [] { w with wlt := { w.wlt with gaps := sat (w.wlt.gaps + 1) 32 } })
      else (false, answerDuplicate l r w)) :=
  (if_neg (Bool.eq_false_iff.mp hc)).trans (if_neg (Nat.not_lt.mpr hi))

/-- A request of the stream's own incarnation leaves the stream as it is. -/
theorem entered_same (hi : r.incarnation = (homeStream s r.hdr.src r.stream).incarnation) : entered r s = freeOnce r s := by
  rw [entered, if_neg (Nat.not_lt.mpr (Nat.le_of_eq hi))]

end

/-! ### Whatever it asks -/

/-- Applying a request stores to T1, and keeps a result, at most (R320). -/
theorem applyRequest_writes (r : Request) (s : State) :
    ∃ m w, (applyRequest r s).2.2 = { s with mem := { s.mem with t1 := m }, wlt := { s.wlt with once := w } } := by
  unfold applyRequest
  split
  · exact ⟨_, _, rfl⟩
  split
  · exact ⟨_, _, rfl⟩
  split
  · exact ⟨_, _, rfl⟩
  split
  · exact ⟨_, _, rfl⟩
  split
  · exact ⟨_, _, rfl⟩
  extract_lets d line old new v res
  split
  · exact ⟨_, _, rfl⟩
  split <;> exact ⟨_, _, rfl⟩

section
variable {u : UnitSet} (hwlt : u.wlt = true)
include hwlt

theorem outside_setHome (n k : Nat) (x : HomeStream) (s : State) : SameOutside u s (setHome n k x s) := .wlt hwlt _ s

theorem outside_freeOnce (r : Request) (s : State) : SameOutside u s (freeOnce r s) := .wlt hwlt _ s

theorem outside_entered (r : Request) (s : State) : SameOutside u s (entered r s) := by
  unfold entered
  refine SameOutside.trans (.ite (fun _ => ?_) fun _ => .refl s) (outside_freeOnce hwlt ..)
  exact (outside_setHome hwlt ..).trans (.wlt hwlt _ _)

theorem outside_bufferRequest (l : Nat) (r : Request) (s : State) : SameOutside u s (bufferRequest l r s) := .wlt hwlt _ s

theorem outside_applyRequest (hmem : u.mem = true) (r : Request) (s : State) : SameOutside u s (applyRequest r s).2.2 := by
  obtain ⟨m, w, h⟩ := applyRequest_writes r s
  rw [h]
  exact .trans (t := { s with mem := { s.mem with t1 := m } }) (.mem hmem _ s) (.wlt hwlt _ _)

variable (hhst : u.hst = true) (hshp : u.shp = true)
include hhst hshp

theorem outside_respond (l : Nat) (r : Request) (st n : Nat) (d : Bytes) (s : State) : SameOutside u s (respond l r st n d s) :=
  .of_fabric hhst hshp hwlt (sbf_respond ..)

variable (hmem : u.mem = true)
include hmem

/-- The request whose turn it is is answered, refused or applied. -/
theorem outside_takeRequest (l : Nat) (no : Bool) (r : Request) (s : State) : SameOutside u s (takeRequest l no r s).2 := by
  have hanswer := outside_respond hwlt hhst hshp
  unfold takeRequest
  extract_lets x v
  have hv : SameOutside u s v := outside_setHome hwlt ..
  refine hv.trans ?_
  split
  · exact hanswer ..
  split
  · exact hanswer ..
  · exact (outside_applyRequest hwlt hmem ..).trans (hanswer ..)

/-- A request at its home is refused, left unapplied, answered again, kept waiting, or taken (R321). -/
theorem outside_homeRequest (l : Nat) (r : Request) (s : State) (no : Bool) : SameOutside u s (homeRequest l r s no).2 := by
  have hanswer := outside_respond hwlt hhst hshp
  cases hc : s.err.chipOut with
  | true =>
    rw [homeRequest_chipOut hc]
    exact hanswer ..
  | false =>
    rcases Nat.lt_or_ge r.incarnation (homeStream s r.hdr.src r.stream).incarnation with hi | hi
    · rw [homeRequest_stale hc hi]
      exact .wlt hwlt _ s
    · rw [homeRequest_entered hc hi]
      generalize hw : entered r s = w
      refine SameOutside.trans (hw ▸ outside_entered hwlt r s) ?_
      dsimp only
      split
      · split
        · exact .trans (.ite (fun _ => .hit 2 w) fun _ => .refl w) (outside_bufferRequest hwlt ..)
        · exact outside_takeRequest hwlt hhst hshp hmem ..
      split
      · exact .trans (.wlt hwlt _ w) (hanswer ..)
      · exact .trans (.wlt hwlt _ w) (.of_fabric hhst hshp hwlt (sbf_answerAgain ..))

/-- A request that arrives goes on to its node, or reaches its home. -/
theorem outside_requestArrives (l op : Nat) (r : Request) (s : State) : SameOutside u s (onFabric (requestArrives l op r) s) := by
  refine outside_onFabric ?_
  unfold requestArrives
  refine .ite (fun _ => ?_) fun _ => ?_
  · exact .of_fabric hhst hshp hwlt (sbf_forward ..)
  · exact (SameOutside.of_fabric hhst hshp hwlt (sbf_owe ..)).trans (outside_homeRequest hwlt hhst hshp hmem ..)

end

/-- Settles O29: the eight operations arrive alike, and a request changes the same units whatever it asks. -/
theorem fabricRequestFrames : Obligations.FabricRequestFrames := by
  intro s k1
  have h (op l : Nat) (r : Request) : k1 (runOn (l < 32) (onFabric (requestArrives l op r)) s) :=
    SameOutside.runOn (u := { hst := true, mem := true, shp := true, wlt := true }) (outside_requestArrives rfl rfl rfl rfl l op r s)
  exact ⟨h 0x01, h 0x02, h 0x10, h 0x11, h 0x12, h 0x13, h 0x14, h 0x15⟩

/-! ### Not next in its stream, or of an older incarnation -/

/-- No byte of memory changes, no stream of the home, and no result is stored. -/
def NothingApplied (s t : State) : Prop :=
  t.mem = s.mem ∧ t.wlt.homes = s.wlt.homes ∧ ∀ y ∈ t.wlt.once, y ∈ s.wlt.once

namespace NothingApplied
variable {s t v : State}

theorem refl (s : State) : NothingApplied s s := ⟨rfl, rfl, fun _ h => h⟩

theorem trans (hs : NothingApplied s t) (ht : NothingApplied t v) : NothingApplied s v := by
  obtain ⟨hm, hh, ho⟩ := hs
  obtain ⟨km, kh, ko⟩ := ht
  exact ⟨km.trans hm, kh.trans hh, fun y hy => ho y (ko y hy)⟩

theorem of_host (h : SameButHost s t) : NothingApplied s t := by
  rw [h]
  exact refl s

end NothingApplied

theorem nothingApplied_modLink (l : Nat) (f : Link → Link) (s : State) : NothingApplied s (modLink l f s) := .refl s

theorem nothingApplied_oweHeld (h : Option (Nat × Nat × Nat)) (s : State) : NothingApplied s (oweHeld h s) := by
  unfold oweHeld
  split <;> exact .refl s

theorem nothingApplied_countDiscard (l : Option Nat) (s : State) : NothingApplied s (countDiscard l s) := by
  unfold countDiscard
  split
  · split <;> exact .refl s
  · exact .refl s

theorem nothingApplied_discardFrame (o : Origin) (s : State) : NothingApplied s (discardFrame o s) :=
  (nothingApplied_oweHeld ..).trans (nothingApplied_countDiscard ..)

theorem nothingApplied_deliver (f : Frame) (s : State) : NothingApplied s (deliver f s) := .refl s

/-- A frame that is routed waits in a queue, here, or is discarded; an answer may take its place (R313, R314). -/
theorem nothingApplied_routeFrame (o : Origin) (front : Bool) (f : Frame) (s : State) : NothingApplied s (routeFrame o front f s) := by
  have hput (l q : Nat) (e : EFrame) (s : State) :
      NothingApplied s (if front then modPort l (·.pushFront q e) s else pushFrame l q e s) := by
    split
    · exact .of_host (sbh_modPort ..)
    · exact .of_host (sbh_pushFrame ..)
  unfold routeFrame
  extract_lets put
  split
  · exact (nothingApplied_discardFrame ..).trans (.of_host (sbh_logAll ..))
  split
  · exact (nothingApplied_oweHeld ..).trans (nothingApplied_deliver ..)
  · refine NothingApplied.trans ?_ (hput ..)
    split <;> exact .refl s
  · split
    · refine (nothingApplied_oweHeld o.held s).trans ?_
      dsimp only
      split
      · exact hput ..
      · exact nothingApplied_deliver ..
      · exact nothingApplied_countDiscard ..
    · exact nothingApplied_discardFrame ..

theorem nothingApplied_respond (l : Nat) (r : Request) (st n : Nat) (d : Bytes) (s : State) :
    NothingApplied s (respond l r st n d s) := nothingApplied_routeFrame ..

theorem nothingApplied_freeOnce (r : Request) (s : State) : NothingApplied s (freeOnce r s) :=
  ⟨rfl, rfl, fun _ h => (List.mem_filter.mp h).1⟩

/-- A duplicate is counted and answered from what is stored, or waits. -/
theorem nothingApplied_answerDuplicate (l : Nat) (r : Request) (s : State) : NothingApplied s (answerDuplicate l r s) := by
  unfold answerDuplicate answerAgain
  split
  · split
    · exact nothingApplied_respond ..
    · split <;> exact .refl s
  split
  · split <;> exact nothingApplied_respond ..
  · exact nothingApplied_respond ..

/-- A request of the stream's incarnation that is not next is a gap or a duplicate. -/
theorem nothingApplied_homeRequest {l : Nat} {r : Request} {s : State} {no : Bool}
    (h : r.incarnation < (homeStream s r.hdr.src r.stream).incarnation ∨
      (r.incarnation = (homeStream s r.hdr.src r.stream).incarnation ∧ r.seq ≠ nextSeq s r)) :
    NothingApplied s (homeRequest l r s no).2 := by
  cases hc : s.err.chipOut with
  | true =>
    rw [homeRequest_chipOut hc]
    exact nothingApplied_respond ..
  | false =>
    rcases h with hi | ⟨hi, hseq⟩
    · rw [homeRequest_stale hc hi]
      exact .refl s
    · have hnext : r.seq ≠ nextSeq (freeOnce r s) r := hseq
      rw [homeRequest_entered hc (Nat.le_of_eq hi.symm), entered_same hi]
      refine (nothingApplied_freeOnce r s).trans ?_
      generalize freeOnce r s = w at hnext ⊢
      dsimp only
      rw [if_neg hnext]
      split
      · exact NothingApplied.trans (t := { w with wlt := { w.wlt with gaps := sat (w.wlt.gaps + 1) 32 } }) (.refl w)
          (nothingApplied_respond ..)
      · exact nothingApplied_answerDuplicate ..

/-- What a request's buffer owes is kept with its link. -/
theorem owe_links (l : Nat) (f : Frame) (s : State) : ∃ ls, owe l f s = { s with wlt := { s.wlt with links := ls } } := by
  unfold owe
  split <;> exact ⟨_, rfl⟩

/-- Settles O24: what arrives is a gap, a duplicate or stale, and none of these is applied. -/
theorem duplicatesAreNotAppliedAgain : Obligations.DuplicatesAreNotAppliedAgain := by
  intro l r s x waiting keeps _ hd h
  have key (op : Nat) : keeps (runOn (l < 32) (onFabric (requestArrives l op r)) s) := by
    intro t ht
    obtain ⟨-, rfl⟩ := runOn_cases ht
    show NothingApplied s (onFabric (requestArrives l op r) s)
    unfold onFabric
    split
    · obtain ⟨ls, ho⟩ := owe_links l (.req { r with op := op }) s
      unfold requestArrives
      dsimp only
      rw [if_neg (not_not_intro hd), ho]
      exact nothingApplied_homeRequest (s := { s with wlt := { s.wlt with links := ls } }) h
    · exact .refl s
  exact ⟨key 0x01, key 0x02, key 0x10, key 0x11, key 0x12, key 0x13, key 0x14, key 0x15⟩

end Sys2Proof.Proofs
end

section
/-!
PROOFS. Requests that their home applies, responses, flits and the times of the fabric (R304, R305, R312, R315, R320 to R323, R325, R327,
R328): each command's own effect by the state that its meaning leaves, and the bytes that a LOAD, a STORE and an atomic leave in memory.
-/
namespace Sys2Proof.Proofs
open Sys2Proof Sys2Proof.Machine

/-! ### A request that is applied on arrival (R320, R321) -/

/-- What an atomic that reaches `t` leaves: the new value in T1, the old one kept and answered. -/
def atomicDone (l : Nat) (r : Request) (t : Nat) (new : Word → Word) (s : State) : State :=
  let v := homeState l r s
  let old := BitVec.ofNat 64 (leNat (readBytes Config.ramDefault t 8 v.mem.t1))
  let w := { v with mem := { v.mem with t1 := writeBytes Config.ramDefault t (le (new old).toNat 8) v.mem.t1 } }
  let res : OnceRes := { node := r.hdr.src, stream := r.stream, seq := r.seq, val := old, at_ := now v }
  respond l r 0 0 (le old.toNat 8 ++ zeros 8) { w with wlt := { w.wlt with once := w.wlt.once ++ [res] } }

section
variable {l op t : Nat} {r : Request} {s : State}

/-- An image is active where a request is applied. -/
theorem imageOn_of_appliesAt (ha : appliesAt l r t s) : imageOn s = true := by
  obtain ⟨-, -, -, -, -, -, -, -, -, -, himage⟩ := ha
  exact himage

/-- A request that reaches `t` is applied in the state of its home, and answered. -/
theorem arrives_applies (ha : appliesAt l { r with op := op } t s) :
    onFabric (requestArrives l op r) s = (
      let x := applyRequest { r with op := op } (homeState l { r with op := op } s)
      respond l { r with op := op } x.1 0 x.2.1 x.2.2) :=
  (onFabric_on (imageOn_of_appliesAt ha)).trans (requestArrives_applies ha)

theorem load_arrives (ha : appliesAt l { r with op := 0x01 } t s) :
    onFabric (requestArrives l 0x01 r) s = (
      let v := homeState l { r with op := 0x01 } s
      respond l { r with op := 0x01 } 0 0 (readBytes Config.ramDefault t 128 v.mem.t1) v) := by
  rw [arrives_applies ha, applyRequest_at ha (by simp) rfl]
  rfl

theorem store_arrives (ha : appliesAt l { r with op := 0x02 } t s) :
    onFabric (requestArrives l 0x02 r) s = (
      let v := homeState l { r with op := 0x02 } s
      let line := mergeLine (readBytes Config.ramDefault t 128 v.mem.t1) r.data r.mask
      respond l { r with op := 0x02 } 0 0 [] { v with mem := { v.mem with t1 := writeBytes Config.ramDefault t line v.mem.t1 } }) := by
  rw [arrives_applies ha, applyRequest_at ha (by simp) rfl]
  rfl

theorem atomic_arrives (hop : atomicOp op = true) (ha : appliesAt l { r with op := op } t s) :
    onFabric (requestArrives l op r) s = atomicDone l { r with op := op } t (fun old => atomicNew op old r.a r.b) s := by
  have hlo : 0x10 ≤ op := by
    simp only [atomicOp, Bool.and_eq_true, decide_eq_true_eq] at hop
    exact hop.1
  have h1 : op ≠ 1 := by omega
  have h2 : op ≠ 2 := by omega
  have h3 : op ≠ 3 := by omega
  have hany : (op = 1 || op = 2 || op = 3 || atomicOp op) = true := by rw [hop, Bool.or_true]
  rw [arrives_applies ha, applyRequest_at ha h3 hany]
  simp only [h1, h2, if_false]
  rfl

end

/-! ### The bytes it leaves (R318, R320) -/

theorem homeState_mem (l : Nat) (r : Request) (s : State) : (homeState l r s).mem = s.mem := (sbf_homeState l r s).mem

theorem respond_mem (l : Nat) (r : Request) (st n : Nat) (d : Bytes) (s : State) : (respond l r st n d s).mem = s.mem :=
  (sbf_respond l r st n d s).mem

theorem length_mergeLine (old new : Bytes) (mask : Nat) : (mergeLine old new mask).length = 128 := by
  simp [mergeLine]

/-- A byte of a merged line is the new one where the mask enables it. -/
theorem getD_mergeLine (old new : Bytes) (mask : Nat) {i : Nat} (hi : i < 128) :
    (mergeLine old new mask).getD i 0 = if bit mask i then new.getD i 0 else old.getD i 0 := by
  simp [mergeLine, List.getD_eq_getElem?_getD, hi]

/-- A line written back merged differs in the enabled bytes alone. -/
theorem readByte_mergedLine {m : List Host.Cell} (hm : Memory.wf Config.ramDefault m = true) (t mask a : Nat) (new : Bytes) :
    readByte Config.ramDefault a
        (writeBytes Config.ramDefault t (mergeLine (readBytes Config.ramDefault t 128 m) new mask) m) =
      if t ≤ a ∧ a < t + 128 ∧ bit mask (a - t) = true then new.getD (a - t) 0 else readByte Config.ramDefault a m := by
  rw [readByte_writeBytes, length_mergeLine]
  by_cases hin : t ≤ a ∧ a < t + 128
  · obtain ⟨hlo, hhi⟩ := hin
    have hi : a - t < 128 := by omega
    have hold : (readBytes Config.ramDefault t 128 m).getD (a - t) 0 = readByte Config.ramDefault a m := by
      have h := getD_readBytes Config.ramDefault t 128 (a - t) m hm hi
      rwa [Nat.add_sub_cancel' hlo] at h
    have hline := getD_mergeLine (readBytes Config.ramDefault t 128 m) new mask hi
    rw [hold] at hline
    simp only [hlo, hhi, true_and, if_true]
    exact hline
  · rw [if_neg hin, if_neg fun h => hin ⟨h.1, h.2.1⟩]

/-- Settles O23: what is applied writes its bytes at its address, and what answers it touches no memory. -/
theorem storeChangesItsLineAlone : Obligations.StoreChangesItsLineAlone := by
  intro l r t s u _ hw
  have ht1 : Memory.wf Config.ramDefault s.mem.t1 = true := by
    obtain ⟨-, -, -, h, -, -⟩ := hw
    exact h
  refine ⟨fun ha h => ?_, fun ha h => ?_, fun ha h => ?_⟩
  · obtain ⟨-, rfl⟩ := runOn_cases h
    rw [after_mem, store_arrives ha, respond_mem, homeState_mem]
    exact ⟨rfl, fun a => readByte_mergedLine ht1 ..⟩
  · obtain ⟨-, rfl⟩ := runOn_cases h
    rw [after_mem, atomic_arrives rfl ha, atomicDone, respond_mem, homeState_mem]
    refine ⟨rfl, fun a => (readByte_writeBytes ..).trans ?_⟩
    rw [length_le]
    rfl
  · obtain ⟨-, rfl⟩ := runOn_cases h
    rw [after_mem, load_arrives ha, respond_mem, homeState_mem]

/-! ### Waiting requests and responses (R322, R323, R325, R327) -/

section
variable {s : State}

/-- A waiting request that its line unit takes has its effect. -/
theorem acceptRequest_taken {region : Nat} {r : Request} {v : State} (h : lineAccept region s = (some r, v)) :
    acceptRequest region s = appliedRequest r v := by
  simp only [acceptRequest, h]

/-- A response of status 0 ends its transaction. -/
theorem responseTaken_ok {r : Response} {o : Outst}
    (ho : (s.wlt.outst.find? fun o => o.req.tag = r.tag && o.req.seq = r.seq && o.req.stream = r.stream) = some o) (hr : r.status = 0) :
    responseTaken r s = unstall (purposeDone o r (endTx o { s with wlt := { s.wlt with here := s.wlt.here.erase (.rsp r) } })) := by
  simp only [responseTaken, responseArrives, ho, hr]

/-- Within 10 ms of its first send a request is sent again. -/
theorem respTimedOut_again {tag : Nat} {o : Outst} (ho : s.wlt.outst.find? (·.req.tag = tag) = some o)
    (ht : now (advance (o.last + respTimeout s) s) < o.first + 10000000) :
    respTimedOut tag s = resend [o] (advance (o.last + respTimeout s) s) := by
  simp only [respTimedOut, ho, ht, if_true]

theorem targetTimeout_found {tag : Nat} {o : Outst} (ho : s.wlt.outst.find? (·.req.tag = tag) = some o) :
    targetTimeout tag s = targetDead o 3 (advance (o.first + 10000000) s) := by
  simp only [targetTimeout, ho]

theorem onceExpired_found {node stream sq : Nat} {x : OnceRes}
    (hx : (s.wlt.once.find? fun x => x.node = node && x.stream = stream && x.seq = sq) = some x) :
    onceExpired node stream sq s = (
      let v := advance (x.at_ + 20000000) s
      { v with wlt := { v.wlt with
        once := v.wlt.once.filter fun y => !(y.node = node && y.stream = stream && y.seq = sq) } }) := by
  simp only [onceExpired, hx]

/-! ### Flits and frames (R304, R305, R312, R315) -/

section
variable {l : Nat} {raw : Bytes}

/-- A whole flit with its CRC, on a link from PARAM to UP, is what its KIND says. -/
theorem flitArrives_sound (hlo : 3 ≤ (linkOf s l).st) (hhi : (linkOf s l).st ≤ 5) (hlen : raw.length = 512)
    (hcrc : leAt raw 504 8 = (crc64 (raw.take 504)).toNat) :
    (leAt raw 0 1 = 0 → leAt raw 2 6 = (linkOf s l).rxNext → flitArrives l raw s = dataFlit l raw s) ∧
    (leAt raw 0 1 = 1 → flitArrives l raw s = flitControl l raw s) := by
  have hst : ¬ ((linkOf s l).st < 3 || (linkOf s l).st > 5) = true := by
    simp only [Bool.or_eq_true, decide_eq_true_eq]
    omega
  have hsound : ¬ (raw.length ≠ 512 || leAt raw 504 8 ≠ (crc64 (raw.take 504)).toNat) = true := by simp [hlen, hcrc]
  unfold flitArrives
  rw [if_neg hst, if_neg hsound]
  refine ⟨fun hkind hseq => ?_, fun hkind => ?_⟩
  · rw [hkind]
    exact if_neg (not_not_intro hseq)
  · simp only [hkind]

theorem ackTimeout_oldest {e : SentFlit} {rest : List SentFlit} (h : (linkOf s l).replayBuf = e :: rest) :
    ackTimeout l s = replayFlits l (advance (e.at_ + 2000) s) := by
  simp only [ackTimeout, h, List.head?_cons]

theorem forward_other {f : Frame} (hf : isControl f = false) (hd : (frameHdr f).dest ≠ selfNode s) :
    forward l f s = routeFrame { inl := some l, held := some (bufferOf l f) } false f s :=
  if_neg (by simp [hf, hd])

/-! ### Notices (R328) -/

/-- A notice changes the links' states and queues alone. -/
theorem sbf_noticeArrives (node sq : Nat) : SameButFabric s (noticeArrives l node sq s) := by
  unfold noticeArrives
  extract_lets seen
  split
  · rfl
  · exact SameButFabric.trans (t := { s with wlt := { s.wlt with states := putN node sq s.wlt.states } }) rfl
      (sbf_foldl _ (fun _ _ => (sbh_sendControl ..).fabric) _ _)

/-- A NODE_STATE that has not been seen is passed on and told to the jobs. -/
theorem nodeStateIn_new {node sq : Nat} (hn : node ≠ selfNode s) (hnew : ∀ n, find? node s.wlt.states = some n → n < sq) :
    nodeStateIn l node sq s = noticeJobs node (
      let v := { s with wlt := { s.wlt with states := putN node sq s.wlt.states } }
      ((upLinks v).filter (· ≠ l)).foldl (fun s k => sendControl k (.nodeState (ctlHdr s k) node sq) s) v) := by
  have hself : node ≠ selfNode (noticeArrives l node sq s) := by
    rw [sbf_noticeArrives (s := s) node sq]
    exact hn
  have hpass : noticeArrives l node sq s = (
      let v := { s with wlt := { s.wlt with states := putN node sq s.wlt.states } }
      ((upLinks v).filter (· ≠ l)).foldl (fun s k => sendControl k (.nodeState (ctlHdr s k) node sq) s) v) := by
    unfold noticeArrives
    cases hs : find? node s.wlt.states with
    | none => exact if_neg (by simp [hn])
    | some n => exact if_neg (by simp [hn, hnew n hs])
  rw [← hpass]
  unfold nodeStateIn
  cases hs : find? node s.wlt.states with
  | none => exact if_pos (by simp [hself])
  | some n => exact if_pos (by simp [hself, hnew n hs])

end
end

/-- Settles O49, command by command. -/
theorem fabricRequestsComplete : Obligations.FabricRequestsComplete := by
  refine ⟨fun l r t s hl ha => ?_, fun l r t s hl ha => ?_, fun l r t s op hl _ ha => ?_, fun region s r v hr h => ?_,
    fun r s o hi ho hr => ?_, fun tag s o ho => ⟨fun ht => ?_, ?_⟩, fun node stream sq s x hx => ?_,
    fun l raw s hi hl hlo hhi hlen hcrc => ?_, fun l s e rest hl h => ?_, fun l f s hi hl hf hd => ?_, fun l node sq s hi hl hn hnew => ?_⟩
  · exact runOn_eq (decide_eq_true hl) (load_arrives ha)
  · exact runOn_eq (decide_eq_true hl) (store_arrives ha)
  · intro v old done
    refine ⟨?_, ?_, ?_, ?_, ?_, ?_⟩
    all_goals
      rintro rfl
      exact runOn_eq (decide_eq_true hl) (atomic_arrives rfl ha)
  · exact runOn_eq (decide_eq_true hr) (acceptRequest_taken h)
  · exact run_eq ((onFabric_on hi).trans (responseTaken_ok ho hr))
  · exact run_eq (respTimedOut_again ho ht)
  · exact run_eq (targetTimeout_found ho)
  · exact run_eq (onceExpired_found hx)
  · obtain ⟨hdata, hcontrol⟩ := flitArrives_sound hlo hhi hlen hcrc
    exact ⟨fun hkind hseq => runOn_eq (decide_eq_true hl) ((onFabric_on hi).trans (hdata hkind hseq)),
      fun hkind => runOn_eq (decide_eq_true hl) ((onFabric_on hi).trans (hcontrol hkind))⟩
  · exact runOn_eq (decide_eq_true hl) (ackTimeout_oldest h)
  · exact runOn_eq (decide_eq_true hl) ((onFabric_on hi).trans (forward_other hf hd))
  · exact runOn_eq (decide_eq_true hl) ((onFabric_on hi).trans (nodeStateIn_new hn hnew))

end Sys2Proof.Proofs
end

section
/-!
PROOFS. The life of a Welt link (R305, R307 to R309, R329, R339, R408): each training, key and loss event in the state of the link that
takes it.
-/
namespace Sys2Proof.Proofs
open Sys2Proof Sys2Proof.Machine

section
variable {l : Nat} {s : State}

/-! ### Training (R307 to R309) -/

theorem lanesLocked_all (h : (linkOf s l).st = 1) :
    lanesLocked l 15 s = enterLink l 2 (modLink l (fun k => { k with lanes := 15 }) s) :=
  (if_neg (not_not_intro h)).trans (if_pos rfl)

/-- Half the lanes will do where DEGRADE_OK says so; the link's reason tells of it. -/
theorem lanesLocked_half {mask : Nat} (h : (linkOf s l).st = 1) (hm : mask = 3 ∨ mask = 12)
    (hd : bit s.regs.wltCfg.toNat 44 = true) :
    lanesLocked l mask s = logAll 1 4 (unitLink l) 0x0502 0
      (enterLink l 2 (modLink l (fun k => { k with lanes := mask, reason := 11 }) s)) false := by
  have hall : mask ≠ 15 := by omega
  have hhalf : (mask = 3 || mask = 12) = true := by simpa using hm
  exact (if_neg (not_not_intro h)).trans ((if_neg hall).trans (if_pos (by rw [hhalf, hd]; rfl)))

theorem linkTimeout_in {st ns : Nat} {reason : Option Nat} {ev : Bool} (h : (linkOf s l).st = st) :
    linkTimeout l st ns reason ev s = linkDown l reason ev (advance ((linkOf s l).since + ns) s) := if_pos h

section
variable {t : TrainMsg} (h : (linkOf s l).st = 3) (ht : trainFails s l t = none)
include h ht

/-- A TRAIN that fails no check sets the peer, and the link goes on by whether it is encrypted. -/
theorem trainArrives_valid :
    trainArrives l t s = (
      let v := modLink l (fun k => { k with version := 0x48, peerNode := t.node, peerLink := t.link, encrypted := linkCrypt s l }) s
      if linkCrypt v l then
        if (linkBase? v).isNone then linkDown l (some 7) false v else beginKey l (enterLink l 4 v)
      else bringUp l v) := by
  unfold trainArrives
  rw [if_neg (not_not_intro h), ht]

theorem trainArrives_plain (hc : linkCrypt s l = false) :
    trainArrives l t s =
      bringUp l (modLink l (fun k => { k with version := 0x48, peerNode := t.node, peerLink := t.link, encrypted := linkCrypt s l }) s) :=
  (trainArrives_valid h ht).trans (if_neg (Bool.eq_false_iff.mp hc))

theorem trainArrives_encrypted (hc : linkCrypt s l = true) (hb : (linkBase? s).isSome = true) :
    trainArrives l t s = beginKey l (enterLink l 4
      (modLink l (fun k => { k with version := 0x48, peerNode := t.node, peerLink := t.link, encrypted := linkCrypt s l }) s)) := by
  have hn : ¬ (linkBase? s).isNone = true := Bool.eq_false_iff.mp (Option.isNone_eq_false_iff.mpr hb)
  exact (trainArrives_valid h ht).trans ((if_pos hc).trans (if_neg hn))

end

/-! ### Keys (R408) -/

section
variable {m : KeyMsg} (h : (linkOf s l).st = 4) (hq : m.keySeq = (linkOf s l).keySeq + 1)
include h hq

/-- A link in KEY takes a KEY frame of the next KEY_SEQ. -/
theorem keyFrame_taken :
    ¬ (!((linkOf s l).st = 4 || ((linkOf s l).st = 5 && (linkOf s l).encrypted)) || m.keySeq ≠ (linkOf s l).keySeq + 1) = true := by
  simp [h, hq]

theorem keyArrives_nonce (hm : m.step = 1) :
    keyArrives l m s = deriveKey l (modLink l (fun k => { k with peerNonce := some m.nonce }) (beginKey l s)) := by
  refine (if_neg (keyFrame_taken h hq)).trans ?_
  simp only [hm]

/-- A CONFIRM with the right TAG puts the new key in force for what is received. -/
theorem keyArrives_confirm {ks : Bytes × Bytes} (hm : m.step = 2) (hk : (linkOf s l).newKey = some ks)
    (ht : m.tag = confirmTag ks.2 (directionBit (linkOf s l).peerNode (selfNode s)) m.keySeq) :
    keyArrives l m s = keyDone l (modLink l (fun k => { k with confirmGot := true, rxKey := some ks.1 }) s) := by
  refine (if_neg (keyFrame_taken h hq)).trans ?_
  simp only [hm, hk]
  exact if_pos ht

end

theorem confirmTimeout_waiting (hn : (linkOf s l).myNonce.isSome = true) (hc : (linkOf s l).confirmGot = false) :
    confirmTimeout l s = linkDown l (some 7) ((linkOf s l).st = 5) (advance ((linkOf s l).nonceAt + 50000000) s) :=
  if_pos (by simp [hn, hc])

/-- An encrypted link that is UP takes the limits on the flits sent under one key. -/
theorem keyWornOut {n : Nat} (h : (linkOf s l).st = 5) (he : (linkOf s l).encrypted = true) (hn : n ≤ sinceKey (linkOf s l)) :
    ((linkOf s l).st = 5 && (linkOf s l).encrypted && sinceKey (linkOf s l) ≥ n) = true := by
  simp [h, he, hn]

/-! ### Losses and retraining (R308, R329) -/

/-- RETRAIN_MS after it went DOWN, a link that may train is in SIGNAL again. -/
theorem retrain_down (h : (linkOf s l).st = 6) (hm : linkMay s l = true) :
    retrain l s = (
      let v := advance ((linkOf s l).since + max 1 (wfield s.regs.wltCfg 34 10) * 1000000) s
      modLink l (fun k => { k.fresh with st := 1, since := now v, retrains := sat (k.retrains + 1) 16 }) v) :=
  if_pos (by simp [h, hm])

/-- RETRAIN takes a link that is enabled and not DOWN to DOWN, with reason PEER. -/
theorem retrainSelected_enabled {acc : Port} (h0 : (linkOf s (accRegs s acc).linkSel).st ≠ 0)
    (h6 : (linkOf s (accRegs s acc).linkSel).st ≠ 6) :
    retrainSelected acc s = linkDown (accRegs s acc).linkSel (some 10) ((linkOf s (accRegs s acc).linkSel).st = 5) s :=
  if_neg (by simp [h0, h6])

end

/-- Settles O48, command by command. -/
theorem linkCommandsComplete : Obligations.LinkCommandsComplete := by
  refine ⟨fun val s ho => ?_, fun l s hl h => ⟨?_, fun mask hm hd => ?_, ?_⟩, fun l s hl h => ⟨?_, ?_⟩, fun l s hl h => ⟨?_, ?_⟩,
    fun l t s hl h ht => ⟨fun hc => ?_, fun hc hb => ?_⟩, fun l m s hl h hq => ⟨fun hm => ?_, fun ks hm hk ht => ?_⟩,
    fun l s hl hn hc => ?_, fun l s hl h he => ⟨fun hn => ?_, fun hn => ?_⟩, fun l s hl h => ⟨?_, ?_⟩, fun l c n s hl => ?_,
    fun l s hl h hm => ?_, fun acc s ho h0 h6 => ?_⟩
  · exact run_eq (gateWrite_open ho)
  · exact runOn_eq (decide_eq_true hl) (lanesLocked_all h)
  · exact runOn_eq (decide_eq_true hl) (lanesLocked_half h hm hd)
  · exact runOn_eq (decide_eq_true hl) (linkTimeout_in h)
  · exact runOn_eq (decide_eq_true hl) (if_pos h)
  · exact runOn_eq (decide_eq_true hl) (linkTimeout_in h)
  · exact runOn_eq (decide_eq_true hl) (if_pos h)
  · exact runOn_eq (decide_eq_true hl) (linkTimeout_in h)
  · exact runOn_eq (decide_eq_true hl) (trainArrives_plain h ht hc)
  · exact runOn_eq (decide_eq_true hl) (trainArrives_encrypted h ht hc hb)
  · exact runOn_eq (decide_eq_true hl) (keyArrives_nonce h hq hm)
  · exact runOn_eq (decide_eq_true hl) (keyArrives_confirm h hq hm hk ht)
  · exact runOn_eq (decide_eq_true hl) (confirmTimeout_waiting hn hc)
  · exact runOn_eq (decide_eq_true hl) (if_pos (keyWornOut h he hn))
  · exact runOn_eq (decide_eq_true hl) (if_pos (keyWornOut h he hn))
  · exact runOn_eq (decide_eq_true hl) (if_pos (decide_eq_true h))
  · exact runOn_eq (decide_eq_true hl) (if_pos (decide_eq_true h))
  · exact runOn_next (decide_eq_true hl)
  · exact runOn_eq (decide_eq_true hl) (retrain_down h hm)
  · exact run_eq ((gateWrite_open ho).trans (retrainSelected_enabled h0 h6))

end Sys2Proof.Proofs
end

section
/-!
PROOFS. The marks of LIM_HWM (R481, R482), the state after reset (R456, R459), the limits of PWR_THERMAL (R472), and what the boot
stage leaves to the owner port (R467, R487).
-/
namespace Sys2Proof.Proofs
open Sys2Proof Sys2Proof.Machine

/-! ### The high-water marks (R481, R482) -/

/-- Every step ends in `after`: a command's as `runOn` answers it, and a tick's. -/
theorem step_after {s t : State} (h : step s = .next t) : ∃ u v, t = after u v := by
  cases hp : s.pending with
  | nil =>
    rw [step_idle s hp] at h
    cases h
    exact ⟨_, _, rfl⟩
  | cons c rest =>
    rw [step_front s c rest hp] at h
    obtain ⟨f, hf⟩ := exec_eq_runOn_hasUnit c { s with pending := rest }
    exact ⟨_, _, (runOn_cases (hf.symm.trans h)).2⟩

/-- Settles O5: whatever a step did, the marks that it leaves were brought up to the counts. -/
theorem peaksCoverTheCounts : Obligations.PeaksCoverTheCounts := by
  intro s t _ ht
  obtain ⟨u, v, rfl⟩ := step_after ht
  exact after_covers u v

/-- Nothing is in the metadata pool. -/
theorem poolUsedBytes_reset : poolUsedBytes State.reset = 0 := by
  have hr : State.reset.accs.countP (·.2.reqOpen) = 0 := rfl
  have hs : sumN (State.reset.ses.table.map fun p => poolBytesOf State.reset p.2) = 0 := rfl
  have hj : sumN (State.reset.map.jobs.map fun j => 32 * j.2.locRecs.length) = 0 := rfl
  rw [poolUsedBytes, hr, hs, hj, Nat.mul_zero]

/-- The greatest of zeros is 0. -/
theorem maxN_zeros (n : Nat) : maxN (List.replicate n 0) = 0 := by
  unfold maxN
  induction n with
  | zero => rfl
  | succ n ih => exact ih

/-- Every limit counts what is there, and after reset nothing is. -/
theorem limitNow_reset (i : Nat) : limitNow State.reset i = 0 := by
  unfold limitNow
  split
  case h_19 =>
    have ht : State.reset.ses.table = [] := rfl
    simp only [ht, List.filter_nil, List.length_nil, List.map_const', maxN_zeros]
  case h_20 => rw [poolUsedBytes_reset, Nat.zero_div]
  all_goals rfl

/-- Settles O6: a count of 0 is covered by any mark. -/
theorem peaksCoverAtReset : Obligations.PeaksCoverAtReset := by
  intro i _
  rw [limitNow_reset, Nat.zero_min]
  exact Nat.zero_le _

/-- Settles O7: each list of the state after reset is empty. -/
theorem memoriesWfAtReset : Obligations.MemoriesWfAtReset :=
  ⟨⟨List.Pairwise.nil, fun _ h => absurd h List.not_mem_nil, rfl, rfl, rfl, rfl⟩, rfl, rfl, rfl, rfl, rfl, rfl, rfl, rfl, rfl, rfl, rfl⟩

/-! ### The limits of PWR_THERMAL (R472) -/

/-- The slot of PWR_THERMAL: three RWS fields of 8 bits. -/
def thermalSlot : Slot := ⟨0, 2 ^ 24 - 1, (·.pwrThermal), fun v r => { r with pwrThermal := v }⟩

theorem rwsSlot?_thermal : rwsSlot? 0xD00020 = some thermalSlot := rfl

/-- A write before the seal takes the three fields. -/
theorem thermal_write_open {v : Word} {s : State} (ho : opens .owner 0xD00020 s = true) (hs : s.img.isSealed = false) :
    exec (.registerWrite .owner 0xD00020 v) s =
      .next (after s { s with regs := { s.regs with pwrThermal := v &&& BitVec.ofNat 64 (2 ^ 24 - 1) } }) := by
  rw [registerWrite_rwsSlot ho rwsSlot?_thermal, if_neg (by simp), writeSlot_open hs]
  simp [thermalSlot]

/-- A write under the seal leaves them. -/
theorem thermal_write_sealed {v : Word} {s : State} (ho : opens .owner 0xD00020 s = true) (hs : s.img.isSealed = true) :
    ∃ t, exec (.registerWrite .owner 0xD00020 v) s = .next (after s t) ∧
      t.regs = { s.regs with pwrThermal := s.regs.pwrThermal &&& BitVec.ofNat 64 (2 ^ 24 - 1) } := by
  refine ⟨_, registerWrite_rwsSlot ho rwsSlot?_thermal, ?_⟩
  rw [if_neg (by simp), writeSlot_sealed hs]
  dsimp only
  split
  · simp [thermalSlot]
  · rw [sbh_registerWarn]
    simp [thermalSlot]

/-- A field that begins at bit 0 is a remainder. -/
theorem field_low (n width : Nat) : field n 0 width = n % 2 ^ width := congrArg (· % 2 ^ width) (Nat.div_one n)

/-- Settles O13: PWR_THERMAL is a slot of RWS fields, and the three readers take each field in its range. -/
theorem thermalLimitsAreTakenInRange : Obligations.ThermalLimitsAreTakenInRange := by
  refine ⟨by decide, fun v s ho => ⟨fun hs => ?_, fun hs => ?_⟩, fun s => ?_⟩
  · refine ⟨_, thermal_write_open ho hs, rfl, ?_, ?_⟩
    · exact toNat_and_low v (by omega)
    · exact (congrArg (field · 0 8) (toNat_and_low v (by omega))).trans
        ((field_mod_two_pow v.toNat (by omega)).trans (field_low v.toNat 8))
  · obtain ⟨t, ht, hr⟩ := thermal_write_sealed (v := v) ho hs
    refine ⟨t, ht, fun hlt => ?_⟩
    show t.regs.pwrThermal.toNat = s.regs.pwrThermal.toNat
    rw [hr]
    exact (toNat_and_low s.regs.pwrThermal (by omega)).trans (Nat.mod_eq_of_lt hlt)
  · simp only [releaseC, tripC]
    refine ⟨fun h => if_pos h, fun h => if_neg (by omega), ?_, ?_, ?_⟩ <;> omega

/-! ### The owner port before WAIT_IMAGE (R467, R487) -/

/-- A defined offset is a multiple of 8. -/
theorem aligned_of_defined {off : Nat} (h : (regRow? off).isSome = true) : off % 8 = 0 := by
  obtain ⟨r, hr⟩ := Option.isSome_iff_exists.mp h
  have hp := List.find?_some hr
  simp only [Bool.and_eq_true, decide_eq_true_eq] at hp
  exact hp.2

/-- Of the defined offsets, the boot stage lets writes through to those that R487 names and to the two of the key commands. -/
theorem bootWritable_defined {off : Nat} (h : (regRow? off).isSome = true) :
    bootWritable off = true ↔ off ∈ [0xD00010, 0xD00038, 0xD00040, 0xD00048, 0xD00050, 0xB01088, 0xB01090, 0xB01098, 0xB010A0,
      0xB010A8] ∨ off ∈ [0xB01070, 0xB01078] := by
  have ha := aligned_of_defined h
  simp only [bootWritable, Bool.or_eq_true, Bool.and_eq_true, decide_eq_true_eq, List.mem_cons, List.not_mem_nil, or_false]
  omega

/-- An owner write that the boot stage holds back is logged, and changes no register. -/
theorem gateWrite_heldBack {off : Nat} {f : State → State} {s : State} (hb : onBus s = true) (hl : bootLimits s = true)
    (hw : bootWritable off = false) : gateWrite .owner off f s = registerWarn .owner off 3 s := by
  simp [gateWrite, hb, hl, hw]

/-- Before PACKAGE has ended a key command is refused as BUSY (R467). -/
theorem keyCommand_early {op slot : Nat} {s : State} (h : s.pwr.bootStage < 8) : keyCommand op slot s = keyResult 7 slot s := by
  simp [keyCommand, keyRefuses, h]

/-- Settles O14, by the offsets that the boot stage lets through. -/
theorem bootStageHoldsOwnerWritesBack : Obligations.BootStageHoldsOwnerWritesBack := by
  intro off v s hb hst hr named
  have hopen (o : Nat) (hw : bootWritable o = true) : opens .owner o s = true := by simp [opens, hb, hw]
  refine ⟨fun hn => ?_, fun _ hs => ⟨?_, ?_⟩, fun hn hk => ⟨?_, ?_, ?_⟩⟩
  · exact registerWrite_open (hopen off ((bootWritable_defined hr).mpr (.inl hn))) hr
  · rw [registerWrite_open (hopen _ rfl) rfl]
    exact congrArg (fun t => Host.Outcome.next (after s t)) (keyCommand_early hs)
  · exact registerWrite_open (hopen _ rfl) rfl
  · have hw : bootWritable off = false := Bool.eq_false_iff.mpr fun h => ((bootWritable_defined hr).mp h).elim hn hk
    refine run_eq ((if_neg ?_).trans (gateWrite_heldBack hb (decide_eq_true hst) hw))
    simp [Option.isNone_eq_false_iff.mpr hr]
  · rw [after_regs, sbh_registerWarn]
  · rw [after_accs, sbh_registerWarn]

end Sys2Proof.Proofs
end

section
/-!
PROOFS. The owner port (R400, R405, R406, R407, R426, R441, R501): its bus commands and the key commands, what each changes and the
state that it leaves.
-/
namespace Sys2Proof.Proofs
open Sys2Proof Sys2Proof.Machine

/-! ### What the bus commands leave as it was -/

theorem ownerXfer_modI3c_frame (f : I3c → I3c) (s : State) : ∃ c, ownerXfer (modI3c f) s = { s with i3c := c } := by
  unfold ownerXfer
  split <;> exact ⟨_, rfl⟩

theorem assignAddr_frame (a : Nat) (s : State) : ∃ c, assignAddr a s = { s with i3c := c } := by
  unfold assignAddr
  split <;> exact ⟨_, rfl⟩

theorem ite_modI3c_frame (b : Prop) [Decidable b] (f : I3c → I3c) (s : State) : ∃ c, (if b then modI3c f s else s) = { s with i3c := c } := by
  split <;> exact ⟨_, rfl⟩

theorem vrefChange_frame (present : Bool) (s : State) : ∃ c, vrefChange present s = { s with i3c := c } := by
  unfold vrefChange
  split <;> exact ⟨_, rfl⟩

theorem answerConst_frame (n : Nat) (s : State) : ∃ o, answerConst n s = { s with out := o } := by
  unfold answerConst
  split <;> exact ⟨_, rfl⟩

theorem answerStatus_frame (s : State) : ∃ n o, answerStatus s = { s with free := n, out := o } := by
  unfold answerStatus
  split <;> exact ⟨_, _, rfl⟩

theorem disarm_frame (s : State) : ∃ c e, disarm s = { s with clk := c, err := e } := by
  unfold disarm
  split <;> exact ⟨_, _, rfl⟩

/-- The answer of SEC_QUOTE_DATA, where the port has an address. -/
def quoteDataRead (s : State) : State :=
  if addressed s then emit (.i3c (le (readQuote s).1.toNat 8)) (readQuote s).2 else s

theorem quoteDataRead_frame (s : State) : ∃ o c, quoteDataRead s = { s with out := o, sec := c } := by
  unfold quoteDataRead
  split <;> exact ⟨_, _, rfl⟩

/-- Settles O26: each command's effect is an update of the units that it names. -/
theorem ownerPortFrames : Obligations.OwnerPortFrames := by
  intro s k1 k2 k3 k4 k5
  have konst (n : Nat) : k2 (run (answerConst n) s) := by
    obtain ⟨o, h⟩ := answerConst_frame n s
    exact run_leaves h rfl
  have target (f : I3c → I3c) : k1 (run (fun s => if onBus s then modI3c f s else s) s) := by
    obtain ⟨c, h⟩ := ite_modI3c_frame (onBus s = true) f s
    exact run_leaves h rfl
  refine ⟨fun x => ?_, fun x => ?_, target _, target _, target _, fun x => ?_, konst 0, konst 1, konst 2, konst 3, konst 4, ?_, ?_, ?_⟩
  · obtain ⟨c, h⟩ := ownerXfer_modI3c_frame (fun c => { c with sel := x }) s
    exact run_leaves h rfl
  · obtain ⟨c, h⟩ := assignAddr_frame x s
    exact run_leaves h rfl
  · obtain ⟨c, h⟩ := vrefChange_frame x s
    exact run_leaves h rfl
  · obtain ⟨c, e, h⟩ := disarm_frame s
    exact run_leaves h rfl
  · obtain ⟨n, o, h⟩ := answerStatus_frame s
    exact run_leaves h rfl
  · obtain ⟨o, c, h⟩ := quoteDataRead_frame s
    exact run_leaves h rfl

/-! ### Key commands (R405, R406) -/

section
variable {s : State} {op slot : Nat}

/-- A key command that nothing refuses starts with its payload, and the buffer is empty. -/
theorem keyCommand_taken (h : keyRefuses s op slot = none) :
    keyCommand op slot s = { s with sec := { s.sec with
      keyBuf := [], keyCode := 0, keySlot := slot, keyDone := false, keyBusy := some (op, slot, s.sec.keyBuf.take (keyPayload op)) } } := by
  simp only [keyCommand, h, modSec]

/-- While another runs a key command is BUSY, and the buffer stays. -/
theorem keyCommand_busy (h : s.sec.keyBusy.isSome = true) :
    keyCommand op slot s = raiseIbi 3 { s with sec := { s.sec with keyCode := 7, keySlot := slot, keyDone := true } } := by
  have hr : keyRefuses s op slot = some 7 := if_pos (by simp [h])
  simp only [keyCommand, hr, keyResult, modSec]

/-- One whose signature does not verify answers SIGNATURE, and the buffer is empty. -/
theorem keyCommand_unsigned (h : keyRefuses s op slot = some 3) :
    keyCommand op slot s =
      raiseIbi 3 { s with sec := { s.sec with keyBuf := [], keyCode := 3, keySlot := slot, keyDone := true } } := by
  simp only [keyCommand, h, keyResult, modSec]

/-- Where its signature alone can refuse it, the verification decides. -/
theorem keyCommand_signed (h : keyRefuses s op slot = none ∨ keyRefuses s op slot = some 3) :
    keyCommand op slot s =
      if keyRefuses s op slot = none then { s with sec := { s.sec with
        keyBuf := [], keyCode := 0, keySlot := slot, keyDone := false, keyBusy := some (op, slot, s.sec.keyBuf.take (keyPayload op)) } }
      else raiseIbi 3 { s with sec := { s.sec with keyBuf := [], keyCode := 3, keySlot := slot, keyDone := true } } := by
  rcases h with h | h
  · rw [if_pos h, keyCommand_taken h]
  · rw [if_neg (by rw [h]; exact Option.some_ne_none 3), keyCommand_unsigned h]

/-- The end of the command under way: its code answers, with its effect where the EEPROM took it. -/
theorem keyComplete_busy {payload : Bytes} (h : s.sec.keyBusy = some (op, slot, payload)) (ok : Bool) :
    keyComplete ok s = (
      let idle : State := { s with sec := { s.sec with keyBusy := none } }
      if ok then keyResult 1 slot (keyApply op slot payload idle) else keyResult 9 slot idle) := by
  simp only [keyComplete, h, modSec]

end

theorem addressed_of {s : State} (hb : onBus s = true) (ha : s.i3c.addr.isSome = true) : addressed s = true := by
  rw [addressed, hb, ha]
  rfl

/-- Settles O54, command by command. -/
theorem ownerPortCommandsComplete : Obligations.OwnerPortCommandsComplete := by
  refine ⟨fun s hb => ⟨fun addr ha => ?_, ?_, ?_, ?_⟩, fun s hb ha => ?_, fun val s ho hl => ?_, fun slot s ho => ?_,
    fun s slot payload op h => ?_⟩
  · exact run_eq (if_pos (by simp [hb, ha]))
  · exact run_eq (if_pos hb)
  · exact run_eq (if_pos hb)
  · exact run_eq (if_pos hb)
  · have hx := addressed_of hb ha
    refine ⟨?_, ?_, ?_, ?_, ?_, ?_, ?_⟩
    all_goals exact run_eq (if_pos hx)
  · exact run_eq ((gateWrite_open ho).trans (if_neg (by omega)))
  · intro started unsigned busy
    refine ⟨fun h => ?_, fun h => ?_, fun h => ?_, fun h => ?_, fun h => ?_, fun h => ?_, fun h => ?_, fun h => ?_⟩
    · exact run_eq ((gateWrite_open ho).trans (keyCommand_taken h))
    · exact run_eq ((gateWrite_open ho).trans (keyCommand_busy h))
    · exact run_eq ((gateWrite_open ho).trans (keyCommand_signed h))
    · exact run_eq ((gateWrite_open ho).trans (keyCommand_busy h))
    · exact run_eq ((gateWrite_open ho).trans (keyCommand_signed h))
    · exact run_eq ((gateWrite_open ho).trans (keyCommand_busy h))
    · exact run_eq ((gateWrite_open ho).trans (keyCommand_taken h))
    · exact run_eq ((gateWrite_open ho).trans (keyCommand_busy h))
  · intro idle freed rom answer
    refine ⟨run_eq (keyComplete_busy h false), ?_, ?_, ?_, ?_⟩
    all_goals
      rintro rfl
      exact run_eq (keyComplete_busy h true)

end Sys2Proof.Proofs
end

section
/-!
PROOFS. Error injection (R440, R441, R449): arming, and each kind of fault.
-/
namespace Sys2Proof.Proofs
open Sys2Proof Sys2Proof.Machine

/-- An armed injection whose unit is of the kind's sort ends the arming, is logged, and is treated as the fault. -/
theorem inject_armed {α : Type} {kind level unit t : Nat} {x : α} {target : Option α} {f : α → State → State} {s : State}
    (ho : opens .owner 0xC00028 s = true) (ha : s.err.armedTo = some t) (ht : now s ≤ t) (hx : target = some x) :
    inject kind level unit target f s = f x (logAll 0 level unit 0x0F01 kind { s with err := { s.err with armedTo := none } }) := by
  subst hx
  refine (gateWrite_open ho).trans ?_
  simp only [ha]
  exact if_pos ht

theorem disarm_armed {t : Nat} {s : State} (ha : s.err.armedTo = some t) :
    disarm s = { s with err := { s.err with armedTo := none }, clk := s.clk.advance t } := by
  simp only [disarm, ha]
  rfl

/-- Settles O57, kind by kind: an armed injection has its unit as the target of the fault. -/
theorem injectionCommandsComplete : Obligations.InjectionCommandsComplete := by
  refine ⟨fun s ho => run_eq (gateWrite_open ho), fun s t ha => run_eq (disarm_armed ha), fun s t unit ho ha ht => ?_⟩
  intro logged planted
  refine ⟨fun bank hx => ⟨?_, ?_⟩, fun c hx => ?_, fun tile hx => ?_, fun area hlt => ?_, fun ch hx => ?_, fun l hx => ?_, fun r hx => ?_⟩
  · exact run_eq (inject_armed ho ha ht hx)
  · exact run_eq (inject_armed ho ha ht hx)
  · exact run_eq (inject_armed ho ha ht hx)
  · exact run_eq (inject_armed ho ha ht hx)
  · exact run_eq (inject_armed ho ha ht (if_pos hlt))
  · exact run_eq (inject_armed ho ha ht hx)
  · exact run_eq (inject_armed ho ha ht hx)
  · exact run_eq (inject_armed ho ha ht hx)

end Sys2Proof.Proofs
end

section
/-!
PROOFS. The input, the rails, the clocks and the stages of a start (R402, R403, R439, R450 to R453, R455 to R458, R469), and the power
states, throttling, the trip, the SPI NOR and the connectors (R453, R459, R462 to R466, R475, R498, R499, R501): each command's own
effect, by the state that its meaning leaves.
-/
namespace Sys2Proof.Proofs
open Sys2Proof Sys2Proof.Machine

section
variable {s : State}

/-! ### Input power, rails and clocks (R450 to R452, R469) -/

/-- In OFF, with a start requested, an input that holds begins a cold start at the measured voltage. -/
theorem vinHolds_requested (ha : s.pwr.aux = true) (h0 : s.pwr.state = 0) (hr : s.pwr.startReq = true) :
    vinHolds s = coldStart { s with free := s.free + 1, pwr := { s.pwr with vinMv := 41000 + Config.sensor s.free % 9001 } } :=
  if_pos (by simp [ha, h0, hr])

/-- A started module whose input is out of range leaves service. -/
theorem vinBad_started {mv : Nat} (h : s.pwr.state ≠ 0) (hmv : mv < 40000 ∨ 50000 < mv) :
    vinBad mv s = leaveService 7 false { s with pwr := { s.pwr with vinMv := mv % 65536 } } :=
  if_pos (by simpa [modPwr, h] using hmv)

/-- Beyond the stop limits it is OFF. -/
theorem vinStops_started {mv : Nat} (h : s.pwr.state ≠ 0) (hmv : mv < 38000 ∨ 52000 < mv) :
    vinStops mv s = powerOff false 0 { s with pwr := { s.pwr with vinMv := mv % 65536 } } :=
  if_pos (by simpa [modPwr, h] using hmv)

/-- Without the auxiliary supply everything ends, the owner port's place on the bus as well. -/
theorem auxDown_started (h : s.pwr.state ≠ 0) :
    auxDown s = (
      let v := powerOff false 0 s
      { v with pwr := { v.pwr with aux := false, vinMv := 0, startReq := false, tripped := false, cmdResult := 0 },
               i3c := { vref := v.i3c.vref } }) := by
  unfold auxDown
  rw [if_neg h]

/-- The next rail in the order is taken as good. -/
theorem railUp_next {n : Nat} (h1 : s.pwr.state = 1) (h0 : s.pwr.bootStage = 0) (hn : n = s.pwr.rails + 1) :
    railUp n s = { s with pwr := { s.pwr with rails := n } } :=
  if_pos (by simp [h1, h0, hn])

/-- A rail that is up, or is the next, fails: the module leaves service. -/
theorem railFails_started {n : Nat} (h : s.pwr.state ≠ 0) (hn : n ≤ s.pwr.rails + 1) : railFails n s = leaveService 7 false s :=
  if_pos (by simp [h, hn])

/-- A rail of R451 is one of the five. -/
theorem isRail {n : Nat} (hlo : 1 ≤ n) (hhi : n ≤ 5) : (decide (1 ≤ n) && decide (n ≤ 5)) = true := by simp [hlo, hhi]

/-- The PLLs of the SerDes lose a reference that is lost. -/
theorem pllUnlock_started {lost : Bool} (h : s.pwr.state ≠ 0) :
    pllUnlock lost s = leaveService 7 false { s with pwr := { s.pwr with
      rootLock := false, refOk := s.pwr.refOk && !lost, hostSerdes := s.pwr.hostSerdes && !lost,
      weltSerdes := if lost = true then 0 else s.pwr.weltSerdes } } :=
  if_neg h

/-! ### The start-up sequence (R455) -/

section
variable {fails : List (Nat × Nat)} (h1 : s.pwr.state = 1) (h8 : s.pwr.bootStage < 8)
include h1 h8

/-- A chip-level failure in a stage leaves service. -/
theorem bootStage_chipFail : bootStage fails true s = leaveService (stageCause s.pwr.bootStage) false s :=
  (if_neg (by simp [h1, h8])).trans (if_pos rfl)

/-- A stage ends with its failing units fenced or recorded; POWER needs every rail. -/
theorem bootStage_ends (hp : s.pwr.bootStage ≠ 0 ∨ s.pwr.rails = 5) :
    bootStage fails false s = stageEnds s.pwr.bootStage (stageFails s.pwr.bootStage fails s) := by
  have hon : ¬ (decide (s.pwr.state ≠ 1) || decide (8 ≤ s.pwr.bootStage)) = true := by simp [h1, h8]
  have hup : ¬ (decide (s.pwr.bootStage = 0) && decide (s.pwr.rails < 5)) = true := by
    simp only [Bool.and_eq_true, decide_eq_true_eq]
    omega
  exact (if_neg hon).trans ((if_neg Bool.false_ne_true).trans (if_neg hup))

end

/-- Without failing units a stage but CELL changes nothing before it ends. -/
theorem stageFails_nil {n : Nat} (h : n ≠ 3) : stageFails n [] s = s := if_neg h

theorem stageEnds_package : stageEnds 7 s = packageEnds s := rfl

/-- A stage that has no failing unit and is not CELL ends. -/
theorem bootStage_clean {n : Nat} (h1 : s.pwr.state = 1) (hn : s.pwr.bootStage = n) (h8 : n < 8) (h3 : n ≠ 3)
    (hp : n ≠ 0 ∨ s.pwr.rails = 5) : bootStage [] false s = stageEnds n s := by
  subst hn
  rw [bootStage_ends h1 h8 hp, stageFails_nil h3]

end

/-- Settles O59, command by command. -/
theorem inputAndStartCommandsComplete : Obligations.InputAndStartCommandsComplete := by
  unfold Obligations.InputAndStartCommandsComplete
  intro changed
  refine ⟨fun mv s ha => ?_, fun s ha h0 hr => ?_, fun mv s h hmv => ?_, fun mv s h hmv => ?_, fun s ha => ?_, fun s h => ?_,
    fun rail s hlo hhi => ⟨fun h1 h0 hn => ?_, fun h hn => ?_⟩, fun lost s h => ?_, fun s h1 h0 h5 => ?_, fun n s h1 hn hm => ?_,
    fun s h1 h2 => ?_, fun s h1 h7 => ?_, fun fails s h1 h8 => ⟨?_, fun h0 => ?_⟩⟩
  · exact run_eq (if_neg (by simp [ha]))
  · exact run_eq (vinHolds_requested ha h0 hr)
  · exact run_eq (vinBad_started h hmv)
  · exact run_eq (vinStops_started h hmv)
  · exact run_eq (if_pos ha)
  · exact run_eq (auxDown_started h)
  · exact runOn_eq (isRail hlo hhi) (railUp_next h1 h0 hn)
  · exact runOn_eq (isRail hlo hhi) (railFails_started h hn)
  · exact run_eq (pllUnlock_started h)
  · exact run_eq (bootStage_clean h1 h0 (by omega) (by omega) (.inr h5))
  · simp only [List.mem_cons, List.not_mem_nil, or_false] at hm
    refine run_eq ((bootStage_clean h1 hn (by omega) (by omega) (.inl (by omega))).trans ?_)
    rcases hm with rfl | rfl | rfl | rfl <;> rfl
  · exact run_eq (bootStage_clean h1 h2 (by omega) (by omega) (.inl (by omega)))
  · exact run_eq ((bootStage_clean h1 h7 (by omega) (by omega) (.inl (by omega))).trans stageEnds_package)
  · exact run_eq (bootStage_chipFail h1 h8)
  · exact run_eq (bootStage_ends h1 h8 (.inl h0))

end Sys2Proof.Proofs
end

section
/-!
PROOFS. Resets, power states, throttling, the trip, the SPI NOR and the connectors (R453, R459, R462 to R466, R475, R498, R499, R501):
each command's own effect, by the state that its meaning leaves.
-/
namespace Sys2Proof.Proofs
open Sys2Proof Sys2Proof.Machine

section
variable {s : State}

/-! ### Power states (R453, R462 to R464) -/

/-- GOTO STANDBY that R463 accepts begins to quiesce. -/
theorem gotoStandby_accepted (hg : s.pwr.goto = none) (hm : mayStandby s = true) :
    gotoStandby s = modPwr (fun p => { p with goto := some 1, quiesceEnd := now s + 100000000, cmdResult := 0 }) s :=
  (if_neg (by simp [hg])).trans (if_pos hm)

theorem gotoOn_standby (h3 : s.pwr.state = 3) (hg : s.pwr.goto = none) :
    gotoOn s = modPwr (fun p => { p with goto := some 2, cmdResult := 0 }) s :=
  (if_pos h3).trans (if_neg (by simp [hg]))

/-- GOTO ON in OFF requests a start, which begins at once where the input holds. -/
theorem gotoOn_off (h0 : s.pwr.state = 0) :
    gotoOn s = (
      let v := modPwr (fun p => { p with startReq := true, tripped := false, cmdResult := 1 }) s
      if 41000 ≤ s.pwr.vinMv ∧ s.pwr.vinMv ≤ 50000 then coldStart v else v) := by
  have h3 : ¬ s.pwr.state = 3 := by omega
  refine (if_neg h3).trans ((if_pos h0).trans (ite_congr (propext ?_) (fun _ => rfl) fun _ => rfl))
  exact Bool.and_eq_true_iff.trans (and_congr decide_eq_true_iff decide_eq_true_iff)

/-- A resume that is complete brings back what STANDBY stopped. -/
theorem resumed_standby (hg : s.pwr.goto = some 2) (h3 : s.pwr.state = 3) :
    resumed s = (
      let u := scrubPass (modPwr (fun p => { p with state := 1, goto := none, cmdResult := 1, resetKind := 2 }) s)
      let u : State := { u with hst := { u.hst with txOn := bit u.regs.hstCtrl.toNat 0 } }
      let v := if u.clk.state = 2 then ptpEvent { u with clk := { u.clk with state := 3, goodSyncs := 0 } } else u
      applyEnable ((List.range 32).foldl (fun s l =>
        if (linkOf s l).st = 6 && linkMay s l then modLink l (fun k => { k.fresh with st := 1, since := now s }) s else s) v)) :=
  if_pos (by simp [hg, h3])

/-- IDLE_US without work end in IDLE. -/
theorem idleIn_idle (h1 : s.pwr.state = 1) (hus : wfield s.regs.pwrCfg 0 16 ≠ 0) (hw : working s = false) :
    idleIn s = modPwr (fun p => { p with state := 2 }) (advance (s.pwr.lastWork + wfield s.regs.pwrCfg 0 16 * 1000) s) :=
  if_pos (by simp [h1, hus, hw])

/-! ### Throttling and the trip (R465, R466) -/

/-- Where its limit is met the level moves at the next boundary. -/
theorem throttleMoves_due {up : Bool} {cause maxC hot watts : Nat} (hp : powered s = true)
    (hd : throttleDue up maxC watts (sensed maxC hot watts s) = true) :
    throttleMoves up cause maxC hot watts s =
      modPwr (fun p => { p with throttle := some (if up then p.level + 1 else p.level - 1, cause % 4) }) (sensed maxC hot watts s) :=
  (if_neg (by simp [hp])).trans (if_pos hd)

/-! ### The SPI NOR (R459, R475) -/

/-- Where no operation runs and the module is ON or IDLE the NOR takes a command. -/
theorem norGate_open {f : State → State} (hb : s.pwr.norBusy = false) (hp : powered s = true) : norGate f s = f s :=
  (if_neg (by simp [hb])).trans (if_pos hp)

theorem norDone_erase (h : s.pwr.norOp = some .erase) :
    norDone true s =
      modPwr (fun p => { p with nor := p.nor.filter fun c => 0x1000000 ≤ c.1, norBusy := false, norOp := none }) s := by
  unfold norDone
  rw [h]
  rfl

theorem norDone_program {off : Nat} {d : Bytes} (h : s.pwr.norOp = some (.program off d)) :
    norDone true s =
      modPwr (fun p => { p with nor := writeBytes Config.norDefault off d p.nor, norBusy := false, norOp := none }) s := by
  unfold norDone
  rw [h]
  rfl

theorem norDone_failed (h : s.pwr.norOp.isSome = true) :
    norDone false s = norFailed (modPwr (fun p => { p with norError := true }) s) := by
  obtain ⟨op, h⟩ := Option.isSome_iff_exists.mp h
  unfold norDone
  rw [h]
  rfl

/-! ### The host cage (R498) -/

/-- What a change of the plug-in leaves before the link can come up. -/
def osfpSwapped (inserted : Bool) (watts : Nat) (s : State) : State :=
  hostDown (modPwr (fun p => { p with osfp := inserted, osfpHeld := inserted && decide (15 < watts) }) s)

section
variable {watts : Nat}

/-- A plug-in that the cage cannot power is held in reset, and told. -/
theorem osfpChange_held (hw : 15 < watts) :
    osfpChange true watts s = logAll 1 6 (unitChip 0x30) (Config.eventCode 2) 0 (osfpSwapped true watts s) :=
  if_pos (decide_eq_true hw)

/-- With one that it can power the link comes up, once PACKAGE has ended. -/
theorem osfpChange_up (hw : watts ≤ 15) (hp : powered (osfpSwapped true watts s) = true)
    (h8 : 8 ≤ (osfpSwapped true watts s).pwr.bootStage) : osfpChange true watts s = hostUp (osfpSwapped true watts s) := by
  unfold osfpSwapped at hp h8 ⊢
  refine (if_neg ?_).trans (if_pos ?_)
  · simpa using hw
  · rw [hp, decide_eq_true h8]
    rfl

theorem osfpChange_out : osfpChange false watts s = osfpSwapped false watts s := rfl

end
end

/-- Settles O60, command by command. -/
theorem powerStateCommandsComplete : Obligations.PowerStateCommandsComplete := by
  unfold Obligations.PowerStateCommandsComplete
  intro changed
  refine ⟨fun s ho => ⟨fun h => ?_, fun hg hm => ?_, fun h3 hg => ?_, fun h0 => ?_, fun h => ?_⟩, fun s hg => ⟨?_, ?_⟩,
    fun s hg h3 => ?_, fun s h1 hus hw => ?_, fun s h2 => ?_, fun up cause maxC hot watts s hp => ?_, fun hot s hh h => ?_,
    fun val s ho hb hp => ?_, fun s ho hb hp => ?_, fun s => ⟨fun h => ?_, fun off d h => ?_, fun h => ?_⟩,
    fun ins watts s => ?_, fun l s hl => ⟨?_, ?_⟩, fun s => ⟨?_, ?_⟩⟩
  · exact run_eq ((gateWrite_open ho).trans (if_neg h))
  · exact run_eq ((gateWrite_open ho).trans (gotoStandby_accepted hg hm))
  · exact run_eq ((gateWrite_open ho).trans (gotoOn_standby h3 hg))
  · exact run_eq ((gateWrite_open ho).trans (gotoOn_off h0))
  · exact run_eq ((gateWrite_open ho).trans (if_neg h))
  · exact run_eq (if_pos hg)
  · exact run_eq (if_pos hg)
  · exact run_eq (resumed_standby hg h3)
  · exact run_eq (idleIn_idle h1 hus hw)
  · exact run_eq (if_pos h2)
  · intro v hd
    exact run_eq (throttleMoves_due hp hd)
  · exact runOn_eq (decide_eq_true hh) (if_neg h)
  · exact run_eq ((gateWrite_open ho).trans (norGate_open hb hp))
  · exact run_eq ((gateWrite_open ho).trans (norGate_open hb hp))
  · exact run_eq (norDone_erase h)
  · exact run_eq (norDone_program h)
  · exact run_eq (norDone_failed h)
  · intro v
    refine ⟨?_, ?_, ?_⟩
    · rintro rfl hw
      exact run_eq (osfpChange_held hw)
    · rintro rfl hw hp h8
      exact run_eq (osfpChange_up hw hp h8)
    · rintro rfl
      exact run_eq osfpChange_out
  · exact runOn_eq (decide_eq_true hl) rfl
  · exact runOn_eq (decide_eq_true hl) rfl
  · exact run_eq rfl
  · exact run_eq rfl

end Sys2Proof.Proofs
end

section
/-!
PROOFS. The agreement of the lace (R341, R347 to R351, R356, R362, R364): proposals, commits, the cobbler's lease, elections, SYNC and
the time limits of a job, each by the state that its meaning leaves.
-/
namespace Sys2Proof.Proofs
open Sys2Proof Sys2Proof.Machine

/-- A change of a job does not move the module. -/
theorem selfNode_modJob (n : Nat) (f : Job → Job) (s : State) : selfNode (modJob n f s) = selfNode s := by
  unfold modJob
  split <;> rfl

section
variable {l : LaceHdr} {job : Nat} {s : State} {j : Job}

/-! ### Proposals and commits (R349 to R351) -/

/-- A map that is that of its MAP_ID and that nothing refuses is accepted. -/
theorem proposed_accepted {part b : Bytes} {v : State} {m : LaceMap} (hc : collectPart 1 l part s = (some b, v)) (hm : mapOf l b = some m)
    (hr : refuseReason v m l.term = none) :
    proposed l part s = (
      let own : LaceHdr := match job? v l.job with | some j => ownHdr j | none => { job := l.job }
      sendLace l.sender 2 { own with term := l.term } []
        (modJob l.job (fun j => { j with accepted := some (l.mapId, m), term := max j.term l.term }) v)) := by
  simp only [proposed, hc, hm, hr] <;> rfl

section
variable {p : Proposal} (hj : job? s l.job = some j) (hp : j.proposal = some p)
include hj hp

theorem accepted_new (hk : (nodesOf p.map ++ nodesOf j.map).contains l.sender = true) (ht : l.term = p.map.term)
    (hn : p.accepted.contains l.sender = false) :
    accepted l s = checkProposal l.job
      (modJob l.job (fun j => { j with proposal := some { p with accepted := p.accepted ++ [l.sender] } }) s) := by
  simp only [accepted, hj, hp]
  exact if_pos (by rw [hk, hn, decide_eq_true ht]; rfl)

/-- A refusal of no higher term is recorded. -/
theorem refused_new {reason : Nat} (ht : l.term ≤ j.term) (hn : (p.refused.any (·.1 = l.sender)) = false) :
    refused l reason s = checkProposal l.job
      (modJob l.job (fun j => { j with proposal := some { p with refused := p.refused ++ [(l.sender, reason)] } }) s) := by
  have hlow : ¬ ((voters j.map ++ voters p.map).contains l.sender && decide (l.term > j.term)) = true := by
    rw [decide_eq_false (by omega), Bool.and_false]
    exact Bool.false_ne_true
  simp only [refused, hj, hp]
  exact (if_neg hlow).trans (if_neg (Bool.eq_false_iff.mp hn))

end

/-- A job that is not a member's, or has an earlier map, takes a later one. -/
theorem later_map {m : LaceMap} (h : j.live = false ∨ j.map.epoch < m.epoch) : (!j.live || decide (j.map.epoch < m.epoch)) = true := by
  simpa using h

theorem committed_accepted {m : LaceMap} (hj : job? s l.job = some j) (ha : j.accepted = some (l.mapId, m)) (he : m.epoch = l.epoch)
    (hl : j.live = false ∨ j.map.epoch < m.epoch) : committed l s = applyMap m s := by
  simp only [committed, hj, ha]
  exact if_pos (by rw [decide_eq_true he, later_map hl]; simp)

/-! ### The cobbler's lease (R347) -/

section
variable (hj : job? s job = some j)
include hj

/-- The cobbler's timer sends HEARTBEAT to every member, and opens the lease by the quorum. -/
theorem heartbeatDue_cobbler (hc : j.map.cobbler = selfNode s) (hl : j.live = true) :
    heartbeatDue job s = (
      let v := if j.hbSeq = 0 then s else advance (j.hbSent + j.map.hbMs * 1000000) s
      let live (h : Nat × Nat) : Bool := decide (now v < h.2 + leaseNs j.map)
      let v := modJob job (fun j => { j with
        hbSent := now v, hbSeq := j.hbSeq + 1,
        hbTimes := j.hbTimes.filter live ++ [(j.hbSeq + 1, now v)], lastAck := now v }) v
      grantLease job (laceAll (nodesOf j.map) 5 (ownHdr j) [] v)) := by
  unfold heartbeatDue
  rw [hj]
  exact if_neg (by simp [hc, hl])

theorem leaseOver_held (hh : j.hasLease = true) :
    leaseOver job s = modJob job (fun j => { j with hasLease := false }) (advance j.leaseEnd s) := by
  unfold leaseOver
  rw [hj]
  exact if_pos hh

/-! ### Elections (R348, R350) -/

/-- A voter that has waited stands with the next term. -/
theorem stand_voter (hv : (voters j.map).contains (selfNode s) = true) (hl : j.live = true) (hc : j.candidate = false)
    (hn : leads s j = false) :
    stand job s = (
      let v := advance (j.lastAck + j.map.leaseMs * 1000000 + (voters j.map).idxOf (selfNode s) * 5000000) s
      let v := modJob job (fun x => { x with
        term := j.term + 1, votedTerm := j.term + 1, candidate := true, votes := [selfNode s], candAt := now v }) v
      let v := { v with map := { v.map with elections := sat (v.map.elections + 1) 16 } }
      winElection job (laceAll (voters j.map) 7 { ownHdr j with term := j.term + 1 } [] v)) := by
  unfold stand
  rw [hj]
  exact if_neg (by rw [hv, hl, hc, hn]; decide)

theorem candidateOver_standing (hc : j.candidate = true) :
    candidateOver job s = (
      let v := advance (j.candAt + 20000000) s
      modJob job (fun j => { j with candidate := false, lastAck := now v - j.map.leaseMs * 1000000 }) v) := by
  unfold candidateOver
  rw [hj]
  exact if_pos hc

/-! ### Recomposition and time limits (R351, R356, R362) -/

/-- The cobbler proposes the ACTIVE map after FORMING. -/
theorem recompose_forming (h1 : j.map.state = 1) (hl : leads s j = true) (hp : j.proposal = none) :
    recompose job s = propose { j.map with state := 2, epoch := j.map.epoch + 1, term := j.term } true none s := by
  unfold recompose
  rw [hj]
  refine (if_neg ?_).trans ((if_neg ?_).trans (if_pos h1))
  · rw [hl, hp]
    decide
  · rw [h1]
    exact Bool.false_ne_true

theorem formOver_forming (h1 : j.map.state = 1) : formOver job s = tearDown job [] (advance j.formDue s) := by
  unfold formOver
  rw [hj]
  exact if_pos h1

theorem proposalOver_pending {p : Proposal} (hp : j.proposal = some p) :
    proposalOver job s = dropProposal job 5 0 (advance p.due s) := by
  unfold proposalOver
  rw [hj, Option.bind_some, hp]

/-- The drain window of a commit ends, and the module stays a member. -/
theorem drainOver_member (hd : j.drainOn = true) (hr : j.removed = false) :
    drainOver job s = (
      let v := advance (j.commitAt + j.map.drainUs * 1000) s
      modJob job (fun x => { x with
        drainOn := false, prev := none, older := [], locRecs := x.locRecs.filter fun r => homeNode v x.map r.handle = selfNode v }) v) := by
  unfold drainOver
  rw [hj]
  exact (if_neg (by rw [hd, hr]; decide)).trans (if_neg (by rw [hr]; exact Bool.false_ne_true))

end

section
variable (hj : job? s l.job = some j)
include hj

/-- A voter acknowledges a HEARTBEAT of a term that is not behind, and is not behind itself. -/
theorem heartbeatIn_voter (ht : j.term ≤ l.term) (hv : (voters j.map).contains (selfNode s) = true) (he : l.epoch ≤ j.map.epoch) :
    heartbeatIn l s = (
      let v := modJob l.job (fun j => { j with term := l.term }) s
      sendLace l.sender 6 { ownHdr j with term := l.term } []
        (modJob l.job (fun j => { j with lastAck := now v, candidate := false }) v)) := by
  unfold heartbeatIn
  rw [hj]
  refine (if_neg (by omega)).trans ((if_neg (by omega)).trans (if_pos ?_))
  rw [selfNode_modJob, hv]

theorem heartbeatAcked_cobbler (hc : j.map.cobbler = selfNode s) (ht : l.term = j.term) :
    heartbeatAcked l s = grantLease l.job (modJob l.job (fun j => { j with
      hbGot := putN l.sender (min j.hbSeq (findD l.sender j.hbGot 0 + 1)) j.hbGot,
      heard := putN l.sender (now s) j.heard }) s) := by
  unfold heartbeatAcked
  rw [hj]
  exact if_pos (by simp [hc, ht])

/-- A voter answers VOTE_REQUEST, with its vote where R348 gives it. -/
theorem voteAsked_voter (hv : (voters j.map).contains (selfNode s) = true) :
    voteAsked l s = (
      let ok := decide (j.votedTerm < l.term) && decide (j.term ≤ l.term) &&
        decide (j.lastAck + j.map.leaseMs * 1000000 ≤ now s) && decide (j.map.epoch ≤ l.epoch) && !leads s j
      let v := if ok then modJob l.job (fun j => { j with votedTerm := l.term, term := l.term, candidate := false }) s else s
      sendLace l.sender 8 { ownHdr j with term := l.term } (le (if ok then 1 else 0) 1 ++ zeros 7) v) := by
  unfold voteAsked
  rw [hj]
  exact if_neg (by rw [hv]; decide)

/-- A granted VOTE of the candidate's term counts. -/
theorem voteIn_granted (hc : j.candidate = true) (ht : l.term = j.term) (hn : j.votes.contains l.sender = false) :
    voteIn l true s = winElection l.job (modJob l.job (fun j => { j with votes := j.votes ++ [l.sender] }) s) := by
  unfold voteIn
  rw [hj]
  exact if_pos (by rw [hc, hn, decide_eq_true ht]; rfl)

/-! ### SYNC (R347) -/

theorem syncAsked_committed (h0 : j.map.state ≠ 0) :
    syncAsked l s = laceParts [l.sender] 10 { ownHdr j with mapId := mapIdOf j.map } (mapBytes j.map) s := by
  unfold syncAsked
  rw [hj]
  exact if_neg h0

omit hj in
/-- SYNC with its last part applies a map later than the committed one. -/
theorem synced_later {part b : Bytes} {v : State} {m : LaceMap} {j' : Job} (hj' : job? s l.job = some j')
    (hc : collectPart 10 l part s = (some b, v)) (hm : mapOf l b = some m) (hj : job? v l.job = some j)
    (hl : j.live = false ∨ j.map.epoch < m.epoch) (h3 : m.state ≠ 3) : synced l part s = applyMap m v := by
  have hnew : ¬ (j.live && decide (m.epoch ≤ j.map.epoch)) = true := by
    simp only [Bool.and_eq_true, decide_eq_true_eq]
    rcases hl with hl | hl
    · simp [hl]
    · omega
  simp only [synced, hj', hc, hm, hj]
  exact (if_neg hnew).trans (if_neg (by simp [h3]))

end

theorem syncNow_member {acc : Port} (hj : job? s (accRegs s acc).jobSel = some j) (hl : j.live = true) (hc : j.map.cobbler ≠ selfNode s) :
    syncNow acc s = sendLace j.map.cobbler 9 (ownHdr j) [] s := by
  unfold syncNow
  rw [hj]
  exact if_pos (by simp [hl, hc])

end

/-- Settles O50, command by command. -/
theorem laceAgreementCommandsComplete : Obligations.LaceAgreementCommandsComplete := by
  refine ⟨fun l part s b v m hi hc hm hr => ?_, fun l s j p hi hj hp => ⟨fun hk ht hn => ?_, fun reason ht hn => ?_⟩,
    fun l s j m hi hj ha he hl => ?_, fun job s j hj hc hl => ?_, fun l s j hi hj ht hv he => ?_, fun l s j hi hj hc ht => ?_,
    fun job s j hj hh => ?_, fun job s j hj hv hl hc hn => ?_, fun l s j hi hj hv => ?_, fun l s j hi hj hc ht hn => ?_,
    fun job s j hj hc => ?_, fun l s j hi hj h0 => ?_, fun l part s b v m j j' hi hj' hc hm hj hl h3 => ?_, fun s j ho hj hl hc => ?_,
    fun job s j hj h1 => ⟨fun hl hp => ?_, ?_⟩, fun job s j p hj hp => ?_, fun job s j hj hd hr => ?_⟩
  · exact run_eq ((onFabric_on hi).trans (proposed_accepted hc hm hr))
  · exact run_eq ((onFabric_on hi).trans (accepted_new hj hp hk ht hn))
  · exact run_eq ((onFabric_on hi).trans (refused_new hj hp ht hn))
  · exact run_eq ((onFabric_on hi).trans (committed_accepted hj ha he hl))
  · exact run_eq (heartbeatDue_cobbler hj hc hl)
  · exact run_eq ((onFabric_on hi).trans (heartbeatIn_voter hj ht hv he))
  · exact run_eq ((onFabric_on hi).trans (heartbeatAcked_cobbler hj hc ht))
  · exact run_eq (leaseOver_held hj hh)
  · exact run_eq (stand_voter hj hv hl hc hn)
  · exact run_eq ((onFabric_on hi).trans (voteAsked_voter hj hv))
  · exact run_eq ((onFabric_on hi).trans (voteIn_granted hj hc ht hn))
  · exact run_eq (candidateOver_standing hj hc)
  · exact run_eq ((onFabric_on hi).trans (syncAsked_committed hj h0))
  · exact run_eq ((onFabric_on hi).trans (synced_later hj' hc hm hj hl h3))
  · exact run_eq ((gateWrite_open ho).trans (syncNow_member hj hl hc))
  · exact run_eq (recompose_forming hj h1 hl hp)
  · exact run_eq (formOver_forming hj h1)
  · exact run_eq (proposalOver_pending hj hp)
  · exact run_eq (drainOver_member hj hd hr)

end Sys2Proof.Proofs
end

section
/-!
PROOFS. The services of a job (R346, R353, R354, R356, R358, R360, R361, R363, R365, R369): reports, teardowns, location records,
composition requests and forwarded work, each by the state that its meaning leaves.
-/
namespace Sys2Proof.Proofs
open Sys2Proof Sys2Proof.Machine

section
variable {l : LaceHdr} {s : State} {j : Job}

/-! ### Teardowns, records and requests of a job (R353, R360, R361, R365) -/

/-- A TEARDOWN at a later epoch, from a term that is not behind, is applied. -/
theorem tornDown_later {hdr : Bytes} (hj : job? s l.job = some j) (hl : j.live = true) (ht : j.term ≤ l.term)
    (he : j.map.epoch < l.epoch) (h3 : (readMapHeader hdr).state = 3) : tornDown l hdr s = applyTeardown l.job l.epoch l.term s := by
  unfold tornDown
  rw [hj]
  exact if_pos (by simp [hl, ht, he, h3])

/-- The cobbler tears the job of a silent member down, MEMBER_TIMEOUT_MS after it was heard. -/
theorem silent_member {job node t : Nat} (hj : job? s job = some j) (hc : j.map.cobbler = selfNode s) (hn : node ≠ selfNode s)
    (hm : (nodesOf j.map).contains node = true) (ht : find? node j.heard = some t) :
    silent job node s = tearDown job [node] (advance (t + j.map.memberMs * 1000000) s) := by
  unfold silent
  rw [hj]
  refine (if_pos (by rw [decide_eq_true hc, decide_eq_true hn, hm]; rfl)).trans ?_
  rw [ht]

/-- A member of a FORMING or ACTIVE job places the records of a LOCATION, which with fewer than 127 ends a handover of its epoch. -/
theorem located_member {recs : List LocRec} (hj : job? s l.job = some j) (hm : j.map.state = 1 ∨ j.map.state = 2)
    (hn : recs.length < 127) (he : l.epoch = j.map.epoch) :
    located l recs s = modJob l.job (fun j => { j with handover := j.handover.filter (· ≠ l.sender) })
      (recs.foldl (fun s r => placeLoc l.job l.sender r s) s) := by
  have hin : ¬ (decide (j.map.state ≠ 1) && decide (j.map.state ≠ 2)) = true := by
    simp only [Bool.and_eq_true, decide_eq_true_eq]
    omega
  unfold located
  rw [hj]
  exact (if_neg hin).trans ((if_neg (by omega)).trans ((if_neg (by omega)).trans (if_pos he)))

/-- The cobbler handles a request that another member passed on, with its last part. -/
theorem composeIn_cobbler {part b : Bytes} {v : State} {r : ComposeReq} {j' : Job} (hj' : job? s l.job = some j')
    (hc : collectPart 14 l part s = (some b, v)) (hr : readCompose b = some r) (hj : job? v l.job = some j) (hjob : r.job = l.job)
    (hop : r.op ≠ 1) (hcob : j.map.cobbler = selfNode v) : composeIn l part s = composeHere r none j v := by
  simp only [composeIn, hj', hc, hr, hj]
  exact if_pos (by rw [decide_eq_true hjob, decide_eq_true hop, decide_eq_true hcob]; rfl)

/-! ### Forwarded work (R354, R356, R358) -/

section
variable {src job : Nat} {h : TackHdr} {b : TackBody}

/-- A vector tack of a member of the job is performed. -/
theorem takeForwarded_vector (hj : job? s job = some j) (hm : (j.map.members.any (·.node = src)) = true) (hlo : 0x20 ≤ opcodeOf b)
    (hhi : opcodeOf b ≤ 0x24) : takeForwarded src job h b s = performVector { h with fwd := some (src, job) } b s := by
  unfold takeForwarded
  rw [hj]
  exact (if_pos (by simp [hlo, hhi])).trans (if_pos hm)

/-- No session tack has the opcode of a vector tack. -/
theorem not_vector_of_session {op : Nat} (h : sessionOp op = true) : ¬ (decide (0x20 ≤ op) && decide (op ≤ 0x24)) = true := by
  simp only [sessionOp, Bool.or_eq_true, Bool.and_eq_true, decide_eq_true_eq] at h ⊢
  omega

/-- A session tack of a member of the job that is served here is performed. -/
theorem takeForwarded_session (hj : job? s job = some j) (hm : (j.map.members.any (·.node = src)) = true)
    (hop : sessionOp (opcodeOf b) = true) (hr : routeIn s (some job) h.mapEpoch h.handle true = .here) :
    takeForwarded src job h b s = performSession { h with fwd := some (src, job) } b (now s) s := by
  refine (if_neg (not_vector_of_session hop)).trans ?_
  unfold forwardedTack
  rw [hj, hop]
  refine (if_neg (by simpa using hm)).trans ?_
  cases b <;> simp only [hr]

/-- A record that another node sent is taken as the forwarder's own. -/
theorem exec_forwardedRecord {qp : Nat} {r : ResultRec} (hsrc : src ≠ selfNode s) :
    exec (.forwardedRecord src qp r) s = .next (after s (forwardedRecord qp r s)) :=
  congrArg (fun t => Host.Outcome.next (after s t)) (if_neg hsrc)

theorem forwardedRecord_other {qp : Nat} {r : ResultRec} (hk : r.kind ≠ 1) :
    forwardedRecord qp r s = enterBatch { qp := qp, gen := (qpOf s qp).gen, record := r } s := if_neg hk

/-- An ordered completion takes its place in tack order. -/
theorem forwardedRecord_ordered {qp : Nat} {r : ResultRec} (hk : r.kind = 1) (ho : orderedOp r.opcode = true) (hv : r.opcode ≠ 0x24) :
    forwardedRecord qp r s = drainBatch (flushQp qp
      (modQp qp (fun q => { q with order := fillOrder r.tag r.opcode r none q.order }) (countTack r.status s))) := by
  refine (if_pos hk).trans ?_
  rw [if_neg hv]
  exact if_pos ho

/-- A tack that waited for a map epoch ends with SESSION_UNAVAILABLE. -/
theorem catchUpOver_found {qp due t : Nat} {tag : Word}
    (hx : (s.hst.catchUp.find? fun x => x.2.1.qp = qp && x.2.1.tag = tag) = some (job, h, b, due, t)) :
    catchUpOver qp tag s = (
      let v := advance due s
      complete h b 0x14 { v with
        hst := { v.hst with catchUp := v.hst.catchUp.erase (job, h, b, due, t) },
        map := { v.map with catchFails := sat (v.map.catchFails + 1) 32 } }) := by
  unfold catchUpOver
  rw [hx]

end

/-! ### MAP_REQ (R369) -/

section
variable {acc : Port} {val : Word}

/-- With a buffer, or room for one, 8 bytes are stored and the offset moves on. -/
theorem mapReqData_room (h : (accRegs s acc).reqOpen = true ∨ poolUsedBytes s + 2 ^ 21 ≤ poolSize) :
    mapReqData acc val s = modAcc acc (fun a => { a with
      reqOpen := true, reqBuf := writeBytes 0 (a.reqAddr % 2 ^ 21 / 8 * 8) (le val.toNat 8) a.reqBuf,
      reqAddr := (a.reqAddr % 2 ^ 21 / 8 * 8 + 8) % 2 ^ 21 }) s := by
  refine if_neg fun hn => ?_
  simp only [Bool.and_eq_true, Bool.not_eq_true', decide_eq_true_eq] at hn
  obtain ⟨hopen, hroom⟩ := hn
  rcases h with h | h
  · simp [h] at hopen
  · omega

variable (hb : bit val.toNat 0 = true) (hc : (accRegs s acc).reqCode ≠ 9)
include hb hc

/-- SUBMIT with none pending takes the request of the owner port from its buffer. -/
theorem mapReqSubmit_owner (ha : acc = .owner) (hn : wfield val 4 19 ≤ 262144) :
    mapReqSubmit acc val s = compose acc (readBytes 0 0 (8 * wfield val 4 19) (accRegs s acc).reqBuf)
      (modAcc acc (fun a => { a with reqOpen := false, reqBuf := [] }) s) := by
  subst ha
  exact (if_neg (by simp [hb])).trans ((if_neg hc).trans (if_neg (by omega)))

/-- That of a tenant is fetched. -/
theorem mapReqSubmit_host {qp : Nat} {r : DataRef} (ha : acc = .host qp)
    (hr : r = { addr := (accRegs s acc).reqAddr, len := field (accRegs s acc).reqKey 32 22, rkey := (accRegs s acc).reqKey % 2 ^ 32 })
    (hn : r.len ≤ 2097152) (hok : refRefused r = false) :
    mapReqSubmit acc val s = startFetch { qp := qp } .nop r stageCompose [] (setResult acc 9 0 0 0 s) := by
  subst ha hr
  refine (if_neg (by simp [hb])).trans ((if_neg hc).trans (if_neg fun h => ?_))
  simp only [Bool.or_eq_true, decide_eq_true_eq] at h
  rcases h with h | h
  · exact absurd hn (Nat.not_le.mpr h)
  · exact Bool.false_ne_true (hok.symm.trans h)

end
end

/-- Settles O51, command by command. -/
theorem laceServiceCommandsComplete : Obligations.LaceServiceCommandsComplete := by
  refine ⟨fun l node count s hi => ⟨?_, ?_, ?_⟩, fun l hdr s j hi hj hl ht he h3 => ?_, fun job node s j t hj hc hn hm ht => ?_,
    fun l recs s j hi hj hm hn he => ?_, fun l part s b v r j j' hi hj' hc hr hj hjob hop hcob => ?_,
    fun src job h b s j hj hm => ⟨fun hop _ _ hr => ?_, fun hlo hhi => ?_⟩, fun src qp r s hsrc => ⟨fun hk => ?_, fun hk ho hv => ?_⟩,
    fun qp tag s job h b due t hx => ?_, fun acc val s ho hroom => ?_, fun acc val s ho hb hc => ⟨fun ha hn => ?_, fun qp ha => ?_⟩⟩
  · exact run_eq (onFabric_on hi)
  · exact run_eq (onFabric_on hi)
  · exact run_eq (onFabric_on hi)
  · exact run_eq ((onFabric_on hi).trans (tornDown_later hj hl ht he h3))
  · exact run_eq (silent_member hj hc hn hm ht)
  · exact run_eq ((onFabric_on hi).trans (located_member hj hm hn he))
  · exact run_eq ((onFabric_on hi).trans (composeIn_cobbler hj' hc hr hj hjob hop hcob))
  · exact run_eq (takeForwarded_session hj hm hop hr)
  · exact run_eq (takeForwarded_vector hj hm hlo hhi)
  · rw [exec_forwardedRecord hsrc, forwardedRecord_other hk]
  · rw [exec_forwardedRecord hsrc, forwardedRecord_ordered hk ho hv]
  · exact run_eq (catchUpOver_found hx)
  · exact run_eq ((gateWrite_open ho).trans (mapReqData_room hroom))
  · exact run_eq ((gateWrite_open ho).trans (mapReqSubmit_owner hb hc ha hn))
  · intro r hn hok
    exact run_eq ((gateWrite_open ho).trans (mapReqSubmit_host hb hc ha rfl hn hok))

end Sys2Proof.Proofs
end

section
/-!
PROOFS. Quotes, the identity, audit rings and signed roots (R404, R408, R410, R411, R415, R416, R418 to R420, R426): each command's
own effect, by the state that its meaning leaves.
-/
namespace Sys2Proof.Proofs
open Sys2Proof Sys2Proof.Machine

section
variable {h : TackHdr} {r : DataRef} {s : State} (hid : s.sec.identity = true)
include hid

/-! ### Quotes (R410, R426) -/

/-- A sound QUOTE with room for a quote is queued. -/
theorem quoteEff_queued {nonce : Bytes} (hr : refRefused r = false) (hl : quoteLen ≤ r.len) (hq : s.sec.quotes.length < 16) :
    quoteEff h nonce r s = startQuote { s with
      sec := { s.sec with quotes := s.sec.quotes ++ [{ hdr := some (h, r), nonce := fit nonce 32 }] } } :=
  (if_neg (by simp [hid])).trans ((if_neg (Bool.eq_false_iff.mp hr)).trans ((if_neg (by omega)).trans (if_neg (by omega))))

/-- GO queues a quote over the nonce registers, and an unread one is gone. -/
theorem quoteGo_queued (hq : s.sec.quotes.length < 16) :
    quoteGo s = (
      let g := s.regs
      let nonce := le g.quoteNonce0.toNat 8 ++ le g.quoteNonce1.toNat 8 ++ le g.quoteNonce2.toNat 8 ++ le g.quoteNonce3.toNat 8
      startQuote { s with sec := { s.sec with
        quoteOut := [], quoteReady := false, quotes := s.sec.quotes ++ [{ hdr := none, nonce := nonce }] } }) :=
  (if_neg (by simp [modSec, hid])).trans (if_neg (Nat.not_le.mpr hq))

/-- Once the security block has signed the first quote, it goes to its requester. -/
theorem quoteSigned_first {q : QuoteReq} {rest : List QuoteReq} (hb : s.sec.quoteBusy = true) (hq : s.sec.quotes = q :: rest) :
    quoteSigned s = (
      let v : State := { s with sec := { s.sec with quotes := rest, quoteBusy := false } }
      let body := quoteBody v q.nonce
      let sig := (idSign body v).1
      let w := (idSign body v).2
      startQuote (match q.hdr with
        | some (h, r) => completeOp h 0x50 0 (rdmaWrite h.qp r.rkey r.addr (body ++ sig) w) { a := (body ++ sig).length }
        | none => raiseIbi 2 { w with sec := { w.sec with quoteOut := body ++ sig, quoteReady := true } })) := by
  have hbusy : (startQuote s).sec.quoteBusy = true := by simp [startQuote, modSec, hb]
  unfold quoteSigned
  refine (if_neg (by simp [hbusy])).trans ?_
  have hqs : (startQuote s).sec.quotes = q :: rest := hq
  rw [hqs]
  refine (if_neg (by simp [startQuote, modSec, hid])).trans ?_
  cases hh : q.hdr <;> rfl

/-! ### The identity (R404) -/

theorem identityEff_fits (hr : refRefused r = false)
    (hl : (fit s.sec.pubkey 32 ++ (match s.rom.endorsement with | some e => fit e 16320 | none => [])).length ≤ r.len) :
    identityEff h r s = (
      let out := fit s.sec.pubkey 32 ++ (match s.rom.endorsement with | some e => fit e 16320 | none => [])
      completeOp h 0x53 0 (rdmaWrite h.qp r.rkey r.addr out s) { a := out.length }) :=
  (if_neg (by simp [hid])).trans ((if_neg (Bool.eq_false_iff.mp hr)).trans (if_neg (Nat.not_lt.mpr hl)))

end

section
variable {h : TackHdr} {r : DataRef} {s : State}

/-! ### Audit rings (R415, R416) -/

/-- A ring of legal size and alignment on the tenant's event queue pair is set up. -/
theorem auditRingEff_legal {b : RingBody} (he : (tenant? s (tenantOf s h.qp)).map (·.eventQp) = some h.qp) (hlo : 6 ≤ b.log2Slots)
    (hhi : b.log2Slots ≤ 20) (ha : b.addr % 128 = 0) (hc : b.consumerAddr % 8 = 0) (hp : b.producerAddr % 8 = 0) :
    auditRingEff h b s = (
      let tn := tenantOf s h.qp
      let v := modQp h.qp (fun q => { q with audit := some (newRing b) }) s
      deliverAudit tn (completeOp h 0x51 0 (setAud tn { audOf v tn with ever := true } v))) := by
  have hlegal : ¬ (decide (b.log2Slots < 6) || decide (b.log2Slots > 20) || decide (b.addr % 128 ≠ 0) ||
      decide (b.consumerAddr % 8 ≠ 0) || decide (b.producerAddr % 8 ≠ 0)) = true := by
    simp only [Bool.or_eq_true, decide_eq_true_eq]
    omega
  exact (if_neg (not_not_intro he)).trans (if_neg hlegal)

theorem auditPoll_ring {tn consumed qp : Nat} {g : Ring} (hr : auditRing? s tn = some (qp, g)) :
    auditPoll tn consumed s = deliverAudit tn
      (modQp qp (fun q => { q with audit := some { g with cons := max g.cons (min consumed g.prod), reading := false } }) s) := by
  unfold auditPoll
  rw [hr]

/-! ### Roots (R418 to R420) -/

/-- With an image active the interval ends at its end. -/
theorem intervalEnd_active (hi : s.img.active.isSome = true) :
    intervalEnd s = closeInterval s.sec.nextEnd (s.sec.nextEnd + 250000000) (!s.clk.everLocked) (advance s.sec.nextEnd s) :=
  if_neg (Bool.eq_false_iff.mp (Option.isNone_eq_false_iff.mpr hi))

/-- The first root that waits is signed, kept, and told. -/
theorem rootSigned_first {p : PendRoot} {rest : List PendRoot} (hp : s.sec.rootsPend = p :: rest) :
    rootSigned s = (
      let sig := (idSign p.rcd s).1
      let v := (idSign p.rcd s).2
      let kept := v.sec.roots ++ [{ seq := v.sec.rootSeq + 1, rcd := p.rcd, sig := sig, subs := p.subs }]
      let w : State := { v with sec := { v.sec with
        rootsPend := rest, rootSeq := v.sec.rootSeq + 1, roots := kept.drop (kept.length - rootKeep v) } }
      startQuote (logTo ((tenants w).map (·.id)) 0 6 (unitChip 0x32) 0x0406 w.sec.rootSeq w)) := by
  unfold rootSigned
  rw [hp]
  rfl

section
variable {n : Nat} {x : AudRoot} (hid : s.sec.identity = true) (hr : refRefused r = false)
  (hlo : 1 ≤ (if n = 0 then s.sec.rootSeq else n)) (hhi : (if n = 0 then s.sec.rootSeq else n) ≤ s.sec.rootSeq)
  (hx : (s.sec.roots.find? fun x => x.seq = (if n = 0 then s.sec.rootSeq else n) && s.sec.rootSeq < x.seq + rootKeep s) = some x)
include hid hr hlo hhi hx

/-- AUDIT_ROOT_READ finds a root that is kept. -/
theorem rootReadEff_kept :
    rootReadEff h n r s =
      if r.len < (rootBytes x).length then completeOp h 0x52 0x72 s { a := (rootBytes x).length }
      else completeOp h 0x52 0 (rdmaWrite h.qp r.rkey r.addr (rootBytes x) s)
        { a := (rootBytes x).length, b := if n = 0 then s.sec.rootSeq else n } := by
  unfold rootReadEff
  refine (if_neg (by simp [hid])).trans ((if_neg (Bool.eq_false_iff.mp hr)).trans ((if_neg ?_).trans ?_))
  · simp only [Bool.or_eq_true, decide_eq_true_eq]
    omega
  · rw [hx]

end
end

/-- Settles O55, command by command. -/
theorem quoteAndAuditCommandsComplete : Obligations.QuoteAndAuditCommandsComplete := by
  refine ⟨fun h nonce r s t u hs hid hr hl hq => ?_, fun s ho hid hq => ?_, fun s q rest hb hq hid => ?_, fun h r s t u hs hid hr => ?_,
    fun h b s t u hs he hlo hhi ha hc hp => ?_, fun tn consumed s qp r hr => ?_, fun s hi => ?_, fun s p rest hp => ?_,
    fun h n r s t u x hs hid hr => ?_⟩
  · exact run_eq ((served_tackRow hs).trans (quoteEff_queued hid hr hl hq))
  · exact run_eq ((gateWrite_open ho).trans (quoteGo_queued hid hq))
  · exact run_eq (quoteSigned_first hid hb hq)
  · intro out hl
    exact run_eq ((served_tackRow hs).trans (identityEff_fits hid hr hl))
  · exact run_eq ((served_tackRow hs).trans (auditRingEff_legal he hlo hhi ha hc hp))
  · exact run_eq (auditPoll_ring hr)
  · exact run_eq (intervalEnd_active hi)
  · exact run_eq (rootSigned_first hp)
  · intro want hlo hhi hx
    have hk := rootReadEff_kept (h := h) hid hr hlo hhi hx
    exact ⟨fun hl => run_eq ((served_tackRow hs).trans (hk.trans (if_neg (Nat.not_lt.mpr hl)))),
      fun hl => run_eq ((served_tackRow hs).trans (hk.trans (if_pos hl)))⟩

end Sys2Proof.Proofs
end

section
/-!
PROOFS. Taking a checkpoint (R373, R374, R376, R378, R382, R398): each command's own effect, by the state that its meaning
leaves.
-/
namespace Sys2Proof.Proofs
open Sys2Proof Sys2Proof.Machine

section
variable {s : State}

/-- A checkpoint under way that fails: FAILED is written, the event logged, CKP_BEGIN completed, and the engine is IDLE (R382). -/
theorem ckpFail_underWay {status : Nat} (hlo : 1 ≤ s.ckp.st) (hhi : s.ckp.st ≤ 4) :
    ckpFail status s = (
      let v := poolOp false 2 0 (maskOf 24 8) (zeros 24 ++ le 1 8) 0 0 s
      restage (endCaptures (modCkp Ckp.idle (completeBegin status (logAll 2 7 (unitChip 0x40) 0x0703 (ckpDetail v) v))))) :=
  if_neg (by simp only [Bool.or_eq_true, decide_eq_true_eq]; omega)

/-! ### CKP_STORE (R373, R374) -/

section
variable {h : TackHdr} {job kind flags node : Nat} {r : DataRef} (hsec : s.rom.secret.isSome = true) (hk : kind ≤ 1)
  (hr : refRefused r = false)
include hsec hk hr

/-- A CKP_STORE that nothing refuses goes by FLAGS[0]: a fresh header, or the header read. -/
theorem ckpStoreEff_taken :
    ckpStoreEff h job kind flags node r s =
      if bit flags 0 then
        let g0 : Region := { job := job, kind := kind, node := node, qp := h.qp, ref := r }
        let g : Region := { g0 with used := g0.emptyMap, loaded := true }
        let v := storeWrite g 0 (regionHeader g) s
        complete h (.ckpStore job kind flags node r) 0 (register g (if kind = 0 then writeFreeMap g v else v))
      else startFetch h (.ckpStore job kind flags node r) { r with len := min r.len 4096 } 0 [] s :=
  (if_neg (Bool.eq_false_iff.mp (Option.isNone_eq_false_iff.mpr hsec))).trans
    ((if_neg (Nat.not_lt.mpr hk)).trans (if_neg (Bool.eq_false_iff.mp hr)))

end

/-! ### CKP_BEGIN (R382) -/

/-- A CKP_BEGIN in IDLE that nothing refuses starts CUTTING. -/
theorem ckpBeginEff_idle {h : TackHdr} {job members pool flags step base : Nat} (hsec : s.rom.secret.isSome = true)
    (hst : s.ckp.st = 0) (hlo : 1 ≤ members) (hhi : members ≤ 4096)
    (hpool : pool = 0xFFFF ∨ ∃ j, job? s job = some j ∧ (j.map.pools.any fun p => p.id = pool && p.kind = 0 && !p.park) = true)
    (hjob : job = 0 ∨ (job? s job).isSome = true) (hown : (regionOf s job 0 (selfNode s)).isSome = true)
    (hman : bit flags 0 = true → (regionOf s job 1 0).isSome = true) :
    ckpBeginEff h job members pool flags step base s = (
      let tenant := match job? s job with | some j => if job = 0 then tenantOf s h.qp else j.map.tenant | none => tenantOf s h.qp
      let keep := s.ckp.workStep = base && (s.ckp.working.isEmpty || (stageObj? s).isSome)
      let v := modCkp (fun c =>
        { c.idle with st := 1, coord := bit flags 0, job := job, step := step, base := base, members := members, pool := pool,
                      tenant := tenant, hdr := some h, cfg := s.regs.ckpCfg, phase := 1, ledger := if keep then c.working else [],
                      working := if keep then c.working else [], shards := 0,
                      shardBase := 0, written := 0, shared := 0, bytes := 0, digest := zeros 32 }) s
      let w := if bit flags 0 = true then poolOp false 2 0 (maskOf 0 128) (fit (le step 8) 128) 0 0 v else v
      ckpGo (if w.stp.running = true then restage w else takeCut w)) := by
  refine (if_neg (Bool.eq_false_iff.mp (Option.isNone_eq_false_iff.mpr hsec))).trans
    ((if_neg (not_not_intro hst)).trans ((if_neg ?_).trans ((if_neg ?_).trans rfl)))
  · have hm : ¬ members = 0 ∧ ¬ members > 4096 := by omega
    rcases hpool with hp | ⟨j, hj, hp⟩
    · rcases hjob with hj | hj
      · simp [hm, hp, hj]
      · simp [hm, hp, Option.isNone_eq_false_iff.mpr hj]
    · simp only [hj, hp]
      simp [hm]
  · rw [Option.isNone_eq_false_iff.mpr hown]
    cases hc : bit flags 0 with
    | false => simp
    | true => simp [Option.isNone_eq_false_iff.mpr (hman hc)]

/-! ### The claims (R378) -/

/-- CLAIM_POLL loads the claim again, or gives up after CLAIM_WAIT_MS. -/
theorem claimPoll_waits {b : BlobJob} {l : List BlobJob} {n : Nat} (ht : s.ckp.todo = b :: l) (hl : s.ckp.loading = 3)
    (hw : s.ckp.waiting = false) (hn : claimLog2? (advance (s.ckp.polled + 10000) s) = some n) :
    claimPoll s = (
      let v := advance (s.ckp.polled + 10000) s
      if s.ckp.since + wfield s.ckp.cfg 28 10 * 1000000 ≤ now v then ckpGo (placeOwn b v)
      else ckpGo (loadClaim n (sha256 b.data) v)) := by
  unfold claimPoll
  rw [ht]
  refine (if_neg (by simp [hl, hw])).trans ?_
  simp only [hn]
  rfl

/-! ### The writes of a member, and the manifest (R382) -/

/-- Everything this member writes has been written. -/
theorem writeDone_capturing (hst : s.ckp.st = 2) (hp : s.ckp.phase = 8) :
    writeDone true s = (
      let rs := s.ckp.captured.map (recordOf s)
      let v := poolOp false 0x10 16 0 [] 1 0 s
      let v := restage (modCkp (fun c =>
        { c with working := rs.map (fun r => (r.e.handle, r)), workStep := c.step, captured := [] }) v)
      if v.ckp.coord = true then modCkp (fun c => { c with st := 3, phase := 9 }) v
      else modCkp Ckp.idle (completeBegin 0 v)) :=
  (if_neg (by simp)).trans (if_pos (by simp [hst, hp]))

theorem writeDone_failed : writeDone false s = ckpFail 0x63 s := if_pos rfl

section
variable (hst : s.ckp.st = 3) (hp : s.ckp.phase = 9)
include hst hp

/-- With a pool the coordinator gathers the shard table from it. -/
theorem allDone_pool (hpool : (ckpPool? s).isSome = true) :
    allDone s = ckpGo (modCkp (fun c => { c with phase := 10, inbox := none }) s) :=
  (if_pos (by simp [hst, hp])).trans (if_pos hpool)

/-- A single member without a pool goes on to the manifests. -/
theorem allDone_alone (hpool : (ckpPool? s).isSome = false) (hm : s.ckp.members ≤ 1) :
    allDone s = ckpGo (modCkp (fun c => { c with phase := 12, inbox := none }) s) :=
  (if_pos (by simp [hst, hp])).trans ((if_neg (Bool.eq_false_iff.mp hpool)).trans (if_pos hm))

end

/-- CKP_COMMIT of the checkpoint in READY goes by the verification of its signature. -/
theorem ckpCommitEff_ready {h : TackHdr} {job step : Nat} {sig key : Bytes} {r : Region} (hst : s.ckp.st = 4) (hj : s.ckp.job = job)
    (hstep : s.ckp.step = step) (hr : regionOf s job 1 0 = some r) (hk : ownerKey? s (slice s.ckp.body 80 8) = some key) :
    ckpCommitEff h job step sig s =
      if slhVerify192s key s.ckp.body (fit sig 16224) = true then
        let v := storeWrite r (slotOff s.ckp.slot + s.ckp.body.length) (fit sig 16224) s
        let v := logAll 0 7 (unitChip 0x40) 0x0704 (ckpDetail v) v
        complete h (.ckpCommit job step sig) 0 (modCkp (fun c => { c.idle with last := step }) v)
      else complete h (.ckpCommit job step sig) 0x64 s := by
  unfold ckpCommitEff
  simp only [hr, hk, hst, hj, hstep, decide_true, Bool.true_and]

/-- CKP_ABORT of the checkpoint under way ends it. -/
theorem ckpAbortEff_underWay {h : TackHdr} {job step : Nat} (hlo : 1 ≤ s.ckp.st) (hhi : s.ckp.st ≤ 4) (hj : s.ckp.job = job)
    (hstep : s.ckp.step = step) : ckpAbortEff h job step s = complete h (.ckpAbort job step) 0 (ckpFail 0x63 s) :=
  if_pos (by simp [hlo, hhi, hj, hstep])

/-- SIGN_WAIT_S in READY without a signature ends the checkpoint. -/
theorem signWaitOver_ready (hst : s.ckp.st = 4) :
    signWaitOver s = ckpFail 0x63 (advance (s.ckp.readyAt + wfield s.ckp.cfg 38 16 * 1000000000) s) := if_pos hst

end

/-- Settles O52, command by command. -/
theorem checkpointTakingCommandsComplete : Obligations.CheckpointTakingCommandsComplete := by
  unfold Obligations.CheckpointTakingCommandsComplete
  intro failed
  refine ⟨fun h job kind flags node r s t u hs hsec hk hr => ?_,
    fun h job members pool flags st base s t u hs hsec hst hlo hhi hpool hjob hown hman => ?_, fun s b l n ht hl hw hn => ?_,
    fun s hst hp => ?_, fun s hlo hhi => ?_, fun s hst hp => ?_, fun h job st sig s t u r key hs hst hj hstep hr hk => ?_,
    fun h job st s t u hs hlo hhi hj hstep => ?_, fun s hst => ?_, fun acc s ho hlo hhi => ?_⟩
  · have hg := ckpStoreEff_taken (h := h) (job := job) (flags := flags) (node := node) hsec hk hr
    exact ⟨fun hb => run_eq ((served_tackRow hs).trans (hg.trans (if_pos hb))),
      fun hb => run_eq ((served_tackRow hs).trans (hg.trans (if_neg (Bool.eq_false_iff.mp hb))))⟩
  · exact run_eq ((served_tackRow hs).trans (ckpBeginEff_idle hsec hst hlo hhi hpool hjob hown hman))
  · exact run_eq (claimPoll_waits ht hl hw hn)
  · exact run_eq (writeDone_capturing hst hp)
  · exact run_eq (writeDone_failed.trans (ckpFail_underWay hlo hhi))
  · exact ⟨fun hpool => run_eq (allDone_pool hst hp hpool), fun hpool hm => run_eq (allDone_alone hst hp hpool hm)⟩
  · exact run_eq ((served_tackRow hs).trans (ckpCommitEff_ready hst hj hstep hr hk))
  · exact run_eq ((served_tackRow hs).trans ((ckpAbortEff_underWay hlo hhi hj hstep).trans
      (congrArg (complete h (.ckpAbort job st) 0) (ckpFail_underWay hlo hhi))))
  · exact run_eq ((signWaitOver_ready hst).trans (ckpFail_underWay (by rw [advance_ckp]; omega) (by rw [advance_ckp]; omega)))
  · exact run_eq ((gateWrite_open ho).trans (ckpFail_underWay hlo hhi))

end Sys2Proof.Proofs
end

section
/-!
PROOFS. Restoring, replaying and collecting (R384 to R389, R398): each command's own effect, by the state that its meaning
leaves.
-/
namespace Sys2Proof.Proofs
open Sys2Proof Sys2Proof.Machine

section
variable {h : TackHdr} {s : State}

/-! ### Restores (R385 to R388) -/

/-- A CKP_RESTORE in IDLE that nothing refuses starts a restore. -/
theorem ckpRestoreEff_idle {job which flags lo hi : Nat} {r : DataRef} (hst : s.ckp.st = 0) (hw : which ≤ 1) (hlo : lo ≤ hi)
    (hr : (regionOf s job 1 0).isSome = true) :
    ckpRestoreEff h job which flags lo hi r s = (
      let q : RestoreReq := { hdr := some h, job := job, which := which, flags := flags, slotLo := lo, slotHi := hi, buf := some r }
      let v := modCkp (fun c => { c.idle with st := 5, job := job, restore := some q, failCount := 0, cfg := s.regs.ckpCfg }) s
      readOn (restorePlan v q) v) :=
  (if_neg (not_not_intro hst)).trans ((if_neg (by simp only [Bool.or_eq_true, decide_eq_true_eq]; omega)).trans
    (if_neg (Bool.eq_false_iff.mp (Option.isNone_eq_false_iff.mpr hr))))

/-- A tack's restore under way, its reads finished, goes by what the manifests yield. -/
theorem restoreDone_tack {q : RestoreReq} (hq : s.ckp.restore = some q) (hh : q.hdr = some h) (hst : s.ckp.st = 5)
    (hp : s.ckp.placing = none) :
    restoreDone s =
      match restorePlan s q with
      | .error k => readOn (.error k : Except CkpKey Restored) s
      | .ok r =>
        match r.status with
        | some st => startOwed (modCkp Ckp.idle (completeOp h 0x44 st (readVersions s)))
        | none => applyRestore q r (readVersions s) := by
  unfold restoreDone
  rw [hq]
  refine (if_neg (by simp [hst, hp])).trans ?_
  cases hplan : restorePlan s q with
  | error k => rfl
  | ok r => cases hr : r.status <;> simp only [hr, hh]

/-! ### Replays (R389) -/

section
variable {b : ReplayBody} {tArr : Nat} (hb : replayBodyBad b = false)
include hb

/-- A sound replay with inline tokens is admitted. -/
theorem replayEff_inline {x : Bytes} (hx : b.input = .inline x) : replayEff h b tArr s = admitReplay h b tArr (idsOf b.count x) s := by
  unfold replayEff
  rw [if_neg (Bool.eq_false_iff.mp hb), hx]

/-- A sound replay by reference fetches its tokens. -/
theorem replayEff_ref {r : DataRef} (hx : b.input = .ref r) (hr : refRefused r = false) :
    replayEff h b tArr s = startFetch h (.ckpReplay b) { r with len := 4 * b.count } 0 [] s tArr := by
  unfold replayEff
  rw [if_neg (Bool.eq_false_iff.mp hb), hx]
  exact if_neg (Bool.eq_false_iff.mp hr)

end

/-! ### Collections (R384) -/

/-- A CKP_COLLECT in IDLE of a registered manifest region starts a collection. -/
theorem ckpCollectEff_idle {job : Nat} (hst : s.ckp.st = 0) (hr : (regionOf s job 1 0).isSome = true) :
    ckpCollectEff h job s = (
      let v := modCkp (fun c => { c.idle with st := 6, job := job, collect := some h }) s
      readOn (collectPlan v h) v) :=
  (if_neg (not_not_intro hst)).trans (if_neg (Bool.eq_false_iff.mp (Option.isNone_eq_false_iff.mpr hr)))

/-- A collection under way, its reads finished, goes by what the manifests yield. -/
theorem collectDone_underWay (hst : s.ckp.st = 6) (hc : s.ckp.collect = some h) :
    collectDone s =
      match collectPlan s h with
      | .error k => readOn (.error k : Except CkpKey (Option (List (Region × Nat × Nat) × Nat))) s
      | .ok none => startOwed (modCkp Ckp.idle (completeOp h 0x46 0x68 (readVersions s)))
      | .ok (some (maps, n)) =>
        let write (s : State) (x : Region × Nat × Nat) : State :=
          let r : Region := { x.1 with used := x.2.1, collectSeq := x.2.2 }
          storeWrite r 0 (regionHeader r) (writeFreeMap r s)
        startOwed (modCkp Ckp.idle (completeOp h 0x46 0 (maps.foldl write (readVersions s)) { b := n })) := by
  unfold collectDone
  refine (if_neg (not_not_intro hst)).trans ?_
  rw [hc]
  cases hplan : collectPlan s h with
  | error k => simp only [hplan]
  | ok p =>
    cases p with
    | none => simp only [hplan]
    | some x => simp only [hplan]

/-! ### The hold of restored adapters (R388) -/

theorem holdOver_held {t : Nat} (ht : s.ckp.holdEnd = some t) : holdOver s = releaseHold (advance t s) := by
  unfold holdOver
  rw [ht]

end

/-- Settles O53, command by command. -/
theorem restoreAndCollectCommandsComplete : Obligations.RestoreAndCollectCommandsComplete := by
  unfold Obligations.RestoreAndCollectCommandsComplete
  intro released
  refine ⟨fun h job which flags lo hi r s t u hs hst hw hlo hr => ?_, fun s q h hq hh hst hp => ?_, fun h b s t u hs hb => ?_,
    fun h job s t u hs hst hr => ?_, fun s h hst hc => ?_, fun s t ht => ?_, fun acc s ho => ?_⟩
  · exact run_eq ((served_tackRow hs).trans (ckpRestoreEff_idle hst hw hlo hr))
  · exact run_eq (restoreDone_tack hq hh hst hp)
  · exact ⟨fun x hx => run_eq ((served_tackRow hs).trans (replayEff_inline hb hx)),
      fun r hx hr => run_eq ((served_tackRow hs).trans (replayEff_ref hb hx hr))⟩
  · exact run_eq ((served_tackRow hs).trans (ckpCollectEff_idle hst hr))
  · exact run_eq (collectDone_underWay hst hc)
  · exact run_eq (holdOver_held ht)
  · exact run_eq (gateWrite_open ho)

end Sys2Proof.Proofs
end

section
/-!
PROOFS. What the times, transfers and moves of sessions leave as they were (R56, R57, R61, R64, R65, R66, R156, R177, R351): each is
made of operations on the sessions and on the memory that their storage lies in.
-/
namespace Sys2Proof.Proofs
open Sys2Proof Sys2Proof.Machine

/-! ### Sessions -/

section
variable {u : UnitSet} (hses : u.ses = true)
include hses

theorem outside_modEntry (i : Nat) (f : Entry → Entry) (s : State) : SameOutside u s (modEntry i f s) := outside_modSess hses ..

theorem outside_cancelBanking (i : Nat) (s : State) : SameOutside u s (cancelBanking i s) := outside_modSess hses ..

theorem outside_startCopy (i : Nat) (s : State) : SameOutside u s (startCopy i s) := outside_modSess hses ..

theorem outside_queueWake (i g k : Nat) (s : State) : SameOutside u s (queueWake i g k s) := by
  unfold queueWake
  extract_lets v
  have hv : SameOutside u s v := .ite (fun _ => .hit ..) fun _ => .refl s
  exact hv.trans ((outside_modSess hses ..).trans (.ses hses _ _))

theorem outside_moveReleased (h : Word) (s : State) : SameOutside u s (moveReleased h s) := by
  unfold moveReleased
  split
  · exact .ite (fun _ => outside_modSess hses ..) fun _ => .refl s
  · exact .refl s

theorem outside_claimAnswered (h : Word) (a : ClaimAns) (s : State) : SameOutside u s (claimAnswered h a s) := .ses hses _ s

/-- An allocator gives two addresses. -/
theorem outside_placeSess (hfree : u.free = true) (i : Nat) (s : State) : SameOutside u s (placeSess i s) :=
  (SameOutside.free hfree (s.free + 2) s).trans ((outside_modEntry hses ..).trans (outside_mapSess hses ..))

theorem outside_moveOffered (hfree : u.free = true) (src job : Nat) (e : Entry) (s : State) :
    SameOutside u s (moveOffered src job e s) := by
  unfold moveOffered
  split
  · exact .ite (fun _ => (SameOutside.ses hses _ s).trans (outside_placeSess hses hfree ..)) fun _ => .refl s
  · exact .refl s

section
variable (hclk : u.clk = true)
include hclk

theorem outside_kindleReached (i : Nat) (s : State) : SameOutside u s (kindleReached i s) := by
  unfold kindleReached
  split
  · exact .refl s
  refine .ite (fun _ => .refl s) fun _ => ?_
  extract_lets v
  have hv : SameOutside u s v := outside_advance hclk ..
  split
  · exact hv.trans (outside_queueWake hses ..)
  · exact hv.trans (outside_startCopy hses ..)
  · exact hv

theorem outside_kindleOver (i : Nat) (s : State) : SameOutside u s (kindleOver i s) := by
  unfold kindleOver
  split
  · exact .refl s
  · exact .ite (fun _ => (outside_advance hclk ..).trans (outside_modEntry hses ..)) fun _ => .refl s

end

theorem outside_bankingFailed (hhst : u.hst = true) (hshp : u.shp = true) (i : Nat) (s : State) :
    SameOutside u s (bankingFailed i s) := by
  unfold bankingFailed
  split
  · exact .ite (fun _ => (outside_cancelBanking hses ..).trans (.of_host hhst hshp (sbh_logAll ..))) fun _ => .refl s
  · exact .refl s

end

/-! ### Storage in T2 -/

section
variable {u : UnitSet} (hmem : u.mem = true)
include hmem

theorem outside_takeT2 (n : Nat) (s : State) : SameOutside u s (takeT2 n s) :=
  .foldl (fun s _ => .ite (fun _ => .refl s) fun _ => outside_modChan hmem ..) _ s

theorem outside_freeT2 (n : Nat) (s : State) : SameOutside u s (freeT2 n s) :=
  .foldl (fun s _ => .ite (fun _ => .refl s) fun _ => outside_modChan hmem ..) _ s

theorem outside_writeStripe (key : Bytes) (l : List Nat) (b : Bytes) (s : State) : SameOutside u s (writeStripe key l b s) :=
  .foldl (fun _ _ => outside_writeT2 hmem ..) _ s

theorem outside_eraseStripe (l : List Nat) (n : Nat) (s : State) : SameOutside u s (eraseStripe l n s) :=
  .foldl (fun _ _ => outside_eraseT2 hmem ..) _ s

theorem outside_freeRow (c : Nat) (r : Row) (s : State) : SameOutside u s (freeRow c r s) := by
  unfold freeRow
  split
  · exact .refl s
  · exact (outside_modChan hmem ..).trans (.foldl (fun _ _ => outside_eraseT2 hmem ..) _ _)

theorem outside_freeSpilled (x : Sess) (s : State) : SameOutside u s (freeSpilled x s) :=
  .foldl (fun _ _ => outside_freeRow hmem ..) _ s

theorem outside_freeKept (x : Sess) (s : State) : SameOutside u s (freeKept x s) :=
  .foldl (fun _ _ => outside_freeRow hmem ..) _ s

theorem outside_freeDesc (x : Sess) (s : State) : SameOutside u s (freeDesc x s) := by
  unfold freeDesc
  split
  · exact .ite (fun _ => (outside_freeT2 hmem ..).trans (outside_eraseStripe hmem ..)) fun _ => .refl s
  · exact .refl s

/-- A stripe that finds room in T2 is written there. -/
theorem outside_bankT2 {i : Nat} {e : Entry} {st : Store} {s v : State} {d : BankDesc} (h : bankT2 i e st s = some (d, v)) :
    SameOutside u s v := by
  simp only [bankT2, Option.ite_none_left_eq_some, Option.map_eq_some_iff, Prod.mk.injEq] at h
  obtain ⟨_, _, _, _, rfl⟩ := h
  exact (outside_takeT2 hmem ..).trans (outside_writeStripe hmem ..)

theorem outside_spillsOn (t : Nat) (s : State) : SameOutside u s (spillsOn t s) := .mem hmem _ s

/-! ### The end of a session's storage -/

section
variable (hses : u.ses = true)
include hses

section
variable (hfree : u.free = true)
include hfree

/-- How far a cancelled move to T1 came is a free value. -/
theorem outside_stopTransfers (i : Nat) (s : State) : SameOutside u s (stopTransfers i s) := by
  unfold stopTransfers
  extract_lets _ v
  have hv : SameOutside u s v := .mem hmem _ s
  split
  · exact hv
  extract_lets _ _ _ w
  have hw : SameOutside u v w := .ite (fun _ => .free hfree _ v) fun _ => .refl v
  exact (hv.trans hw).trans (outside_modSess hses ..)

theorem outside_freeEntry (i : Nat) (s : State) : SameOutside u s (freeEntry i s) :=
  (outside_stopTransfers hmem hses hfree i s).trans ((outside_setT1 hmem ..).trans (.ses hses _ _))

theorem outside_moveCancelled (h : Word) (s : State) : SameOutside u s (moveCancelled h s) := by
  unfold moveCancelled
  split
  · exact .ite (fun _ => .refl s) fun _ => outside_freeEntry hmem hses hfree ..
  · exact .refl s

theorem outside_reclaim (i : Nat) (s : State) : SameOutside u s (reclaim i s) := by
  unfold reclaim
  split
  · exact .refl s
  next x _ =>
  refine .ite (fun _ => .refl s) fun _ => ?_
  extract_lets v w
  have hv : SameOutside u s v := (((outside_freeSpilled hmem x s).trans (outside_freeKept hmem x _)).trans
    (outside_freeDesc hmem x _)).trans (outside_setT1 hmem ..)
  have hw : SameOutside u v w := outside_modSess hses ..
  exact (hv.trans hw).trans (.ite (fun _ => outside_freeEntry hmem hses hfree ..) fun _ => .refl w)

theorem outside_reclaimRead (i : Nat) (s : State) : SameOutside u s (reclaimRead i s) :=
  .ite (fun _ => .refl s) fun _ => outside_reclaim hmem hses hfree ..

theorem outside_keepOver (hclk : u.clk = true) (i : Nat) (s : State) : SameOutside u s (keepOver i s) := by
  unfold keepOver
  split
  · exact .refl s
  refine .ite (fun _ => ?_) fun _ => .refl s
  exact (outside_advance hclk _ s).trans (.ite (fun _ => outside_freeEntry hmem hses hfree ..) fun _ => .refl _)

end

section
variable (hatn : u.atn = true)
include hatn

/-- The stripe of a banking commits: in T3 it is written, in T2 it is written now. -/
theorem outside_commitBanking (hfree : u.free = true) (i : Nat) (s : State) : SameOutside u s (commitBanking i s) := by
  unfold commitBanking
  split
  · exact .refl s
  next x _ =>
  extract_lets commit
  have hcommit (d : BankDesc) (v : State) : SameOutside u v (commit d v) :=
    ((outside_freeSpilled hmem x v).trans (outside_modSess hses ..)).trans
      ((outside_retile hmem hses hatn ..).trans (outside_placeSess hses hfree ..))
  refine .ite (fun _ => .refl s) fun _ => .ite (fun _ => ?_) fun _ => ?_
  · split
    · exact hcommit ..
    · exact .refl s
  · split
    · next hb => exact (outside_bankT2 hmem hb).trans (hcommit ..)
    · exact .refl s

/-! ### Spills (R156, R177) -/

theorem outside_spillOn (n t : Nat) (s : State) : SameOutside u s (spillOn n t s) := by
  induction n generalizing s with
  | zero => exact .refl s
  | succ n ih =>
    unfold spillOn
    refine .ite (fun _ => .refl s) fun _ => ?_
    split
    · exact .refl s
    · exact ((outside_modPages hses ..).trans (outside_retile hmem hses hatn ..)).trans (ih _)

theorem outside_kvSpill (t : Nat) (s : State) : SameOutside u s (kvSpill t s) :=
  (outside_spillsOn hmem t s).trans (.ite (fun _ => outside_spillOn hmem hses hatn ..) fun _ => .refl _)

theorem outside_sessionSpillOn (n t : Nat) (s : State) : SameOutside u s (sessionSpillOn n t s) := by
  induction n generalizing s with
  | zero => exact .refl s
  | succ n ih =>
    unfold sessionSpillOn
    refine .ite (fun _ => .refl s) fun _ => ?_
    split
    · exact .refl s
    · exact .ite (fun _ => .hit ..) fun _ => ((outside_modSess hses ..).trans (outside_retile hmem hses hatn ..)).trans (ih _)

theorem outside_sessionSpill (t : Nat) (s : State) : SameOutside u s (sessionSpill t s) :=
  (outside_spillsOn hmem t s).trans (.ite (fun _ => outside_sessionSpillOn hmem hses hatn ..) fun _ => .refl _)

end
end
end

/-- A member that the map removed leaves the job with the drain window, its sessions released. -/
theorem agent_drainOver {u : AgentUnits} (hclk : u.clk = true) (hmap : u.map = true) (hses : u.ses = true) (n : Nat) (s : State) :
    AgentFrame u s (drainOver n s) := by
  unfold drainOver
  split
  · exact .refl s
  refine .ite (fun _ => .refl s) fun _ => ?_
  extract_lets v w
  have hw : AgentFrame u s w := (agent_advance hclk ..).trans (agent_modJob hmap ..)
  have hr : AgentFrame u w (releaseSessions n w) := .of_outside (.ses hses _ w)
  exact hw.trans (.ite (fun _ => hr.trans (agent_setJob hmap ..)) fun _ => .refl w)

/-- Settles O30: each command's meaning changes no unit but those of the operations that it is made of. -/
theorem sessionFrames : Obligations.SessionFrames := by
  intro s k1 k2 k3 k4 k5 k6 k7 k8 k9
  refine ⟨fun h => ?_, fun h a => ?_, fun i => ?_, fun i => ?_, fun src job e => ?_, fun t => ?_, fun t => ?_, fun n => ?_,
    fun h => ?_, fun i => ?_, fun i => ?_, fun i => ?_, fun i => ?_⟩
  · exact SameOutside.run (u := { ses := true }) (outside_onFabric (outside_moveReleased rfl h s))
  · exact SameOutside.run (u := { ses := true }) (outside_onFabric (outside_claimAnswered rfl h a s))
  · exact SameOutside.run (u := { clk := true, ses := true }) (outside_kindleReached rfl rfl i s)
  · exact SameOutside.run (u := { clk := true, ses := true }) (outside_kindleOver rfl rfl i s)
  · exact SameOutside.run (u := { free := true, ses := true }) (outside_onFabric (outside_moveOffered rfl rfl src job e s))
  · exact SameOutside.runOn (u := { atn := true, mem := true, ses := true }) (outside_kvSpill rfl rfl rfl t s)
  · exact SameOutside.runOn (u := { atn := true, mem := true, ses := true }) (outside_sessionSpill rfl rfl rfl t s)
  · exact AgentFrame.run (u := { clk := true, map := true, ses := true }) (agent_drainOver rfl rfl rfl n s)
  · exact SameOutside.run (u := { free := true, mem := true, ses := true }) (outside_onFabric (outside_moveCancelled rfl rfl rfl h s))
  · exact SameOutside.run (u := { free := true, mem := true, ses := true }) (outside_reclaimRead rfl rfl rfl i s)
  · exact SameOutside.run (u := { hst := true, ses := true, shp := true }) (outside_bankingFailed rfl rfl rfl i s)
  · exact SameOutside.run (u := { atn := true, free := true, mem := true, ses := true })
      (outside_commitBanking rfl rfl rfl rfl i s)
  · exact SameOutside.run (u := { clk := true, free := true, mem := true, ses := true }) (outside_keepOver rfl rfl rfl rfl i s)

end Sys2Proof.Proofs
end

section
/-!
PROOFS. What a tack leaves as it was (R253): the checks on its way, its routing (R354 to R356) and its completion (R262 to R264) change
the host port, the fabric, the sessions and the lace agent, and the tacks of R57, R61, R63, R94, R252, R256, R260, R404 and R420
that are framed here add nothing to them.
-/
namespace Sys2Proof.Proofs
open Sys2Proof Sys2Proof.Machine

/-- The units that a tack may change on its way: the host port and the fabric that bring and answer it, the sessions, the lace
agent. -/
def tackUnits : AgentUnits :=
  { free := true, hst := true, map := true, out := true, ses := true, shp := true, wlt := true }

/-- `t` is `s` but for those units and the limit counts and marks. -/
def TackFrame (s t : State) : Prop := AgentFrame tackUnits s t

namespace TackFrame
variable {s t v : State}

theorem refl (s : State) : TackFrame s s := AgentFrame.refl s

theorem trans (hs : TackFrame s t) (ht : TackFrame t v) : TackFrame s v := AgentFrame.trans hs ht

theorem ite {b : Prop} [Decidable b] (ht : b → TackFrame s t) (hv : ¬ b → TackFrame s v) : TackFrame s (if b then t else v) :=
  AgentFrame.ite ht hv

theorem of_host (ht : SameButHost s t) : TackFrame s t := AgentFrame.of_host rfl rfl ht

theorem of_outside (ht : SameOutside tackUnits.toUnitSet s t) : TackFrame s t := AgentFrame.of_outside ht

theorem ses (x) (s : State) : TackFrame s { s with ses := x } := of_outside (.ses rfl x s)

theorem hst (x) (s : State) : TackFrame s { s with hst := x } := of_outside (.hst rfl x s)

theorem map (x) (s : State) : TackFrame s { s with map := x } := AgentFrame.map rfl x s

end TackFrame

/-! ### Messages to other nodes -/

theorem tack_sendSession (d j : Nat) (m : SesMsg) (s : State) : TackFrame s (sendSession d j m s) :=
  .of_outside (outside_sendSession rfl rfl rfl rfl rfl d j m s)

theorem tack_sendLace (d n : Nat) (h : LaceHdr) (x : Bytes) (s : State) (p : Purpose) : TackFrame s (sendLace d n h x s p) :=
  agent_sendLace rfl rfl rfl rfl d n h x s p

theorem tack_modSess (i : Nat) (f : Sess → Sess) (s : State) : TackFrame s (modSess i f s) := .of_outside (outside_modSess rfl i f s)

theorem tack_modJob (n : Nat) (f : Job → Job) (s : State) : TackFrame s (modJob n f s) := agent_modJob rfl n f s

/-! ### Completions (R262 to R264) -/

/-- A tack is answered to its forwarder, in its order, or at once. -/
theorem tack_completeOp (h : TackHdr) (op status : Nat) (s : State) (w : Words) (ring : Option RingBody) :
    TackFrame s (completeOp h op status s w ring) := by
  unfold completeOp
  extract_lets r v
  split
  · exact tack_sendSession ..
  have hv : TackFrame s v := .of_host (sbh_countTack ..)
  refine hv.trans (.ite (fun _ => ?_) fun _ => .of_host (sbh_postRecord ..))
  exact (TackFrame.of_host ((sbh_modQp ..).trans (sbh_flushOrder ..))).trans
    (.of_outside (outside_drainBatch rfl rfl rfl rfl rfl _))

theorem sbh_refusedTurn (h : TackHdr) (b : TackBody) (s : State) : SameButHost s (refusedTurn h b s) := by
  unfold refusedTurn
  split
  · split
    · exact sbh_unmeasured ..
    · rfl
  · rfl

theorem tack_complete (h : TackHdr) (b : TackBody) (status : Nat) (s : State) (w : Words) : TackFrame s (complete h b status s w) :=
  TackFrame.trans (.ite (fun _ => .refl s) fun _ => .of_host (sbh_refusedTurn h b s)) (tack_completeOp ..)

theorem tack_refuseRights (t : Nat) (h : TackHdr) (b : TackBody) (st : Nat) (s : State) : TackFrame s (refuseRights t h b st s) :=
  (TackFrame.of_host (sbh_logTo ..)).trans (tack_complete ..)

/-! ### Arrival (R250, R253, R280 to R283) -/

theorem sbh_pushCtl (o : Out) (n : Nat) (s : State) : SameButHost s (pushCtl o n s) := sbh_modPort ..

theorem sbh_rnrNak (q : Nat) (s : State) : SameButHost s (rnrNak q s) := by
  unfold rnrNak
  extract_lets _ v
  have hv : SameButHost s v := rfl
  exact hv.trans ((sbh_pushCtl ..).trans (sbh_hit ..))

theorem sbh_setClassQ (c : Nat) (q : List QTack) (s : State) : SameButHost s (setClassQ c q s) := rfl

theorem sbh_enqueueTack (h : TackHdr) (b : TackBody) (g : Nat) (s : State) : SameButHost s (enqueueTack h b g s) := sbh_setClassQ ..

theorem sbh_enterOrder (h : TackHdr) (op : Nat) (s : State) : SameButHost s (enterOrder h op s) := by
  unfold enterOrder
  split <;> rfl

theorem sbh_releaseGroup (g : Nat) (s : State) : SameButHost s (releaseGroup g s) := by
  unfold releaseGroup
  split
  · rfl
  · dsimp only
    split <;> rfl

/-- A mark changes its meter, and may reach limit 10. -/
theorem sbh_markTack (h : TackHdr) (b : TackBody) (s : State) : SameButHost s (markTack h b s).2 := by
  unfold markTack
  split
  · rfl
  have hh (c : Prop) [Decidable c] : SameButHost s (if c then hit 10 s else s) := by split <;> rfl
  exact (hh _).trans rfl

/-- A tack that is refused on arrival is answered, or counted where it has no ring. -/
theorem tack_arrivalChecks (h : TackHdr) (op : Nat) (b : Option TackBody) (s : State) :
    TackFrame s (arrivalChecks h op b s).2 := by
  unfold arrivalChecks
  extract_lets q refuse v w
  have hv : TackFrame s v := .of_host (sbh_enterOrder ..)
  have hrefuse (st : Nat) (x : Words) (t : State) : TackFrame t (refuse st x t).2 := tack_completeOp ..
  refine hv.trans ?_
  split
  · exact (TackFrame.of_host (sbh_logAll ..)).trans (hrefuse ..)
  split
  · exact hrefuse ..
  split
  · exact hrefuse ..
  split
  · exact .of_host ((sbh_modQp ..).trans rfl)
  · next body _ _ _ =>
    have hm : TackFrame v (markTack h body v).2 := .of_host (sbh_markTack h body v)
    dsimp only
    split
    · exact (hm.trans (.of_host (sbh_refusedTurn ..))).trans (hrefuse ..)
    split
    · exact (hm.trans (.of_host (sbh_refusedTurn ..))).trans (hrefuse ..)
    · exact hm

/-- The state in which a tack is taken or left. -/
def takenState : Taken → State
  | .taken _ _ s => s
  | .done s => s

/-- Taking a tack from its queue, or on its arrival. -/
theorem tack_takeTack (h : TackHdr) (b : TackBody) (s : State) : TackFrame s (takenState (takeTack h b s)) := by
  unfold takeTack
  split
  · split
    · exact .refl s
    · split
      · split
        · exact .of_host ((sbh_setClassQ ..).trans (sbh_releaseGroup ..))
        · exact .refl s
      · exact .refl s
  split
  · exact .refl s
  split
  · exact .of_host (sbh_rnrNak ..)
  split
  · exact (TackFrame.of_host (sbh_enterOrder ..)).trans (tack_completeOp ..)
  · have hc := tack_arrivalChecks h (opcodeOf b) (some b) s
    split
    · next v hv =>
      rw [hv] at hc
      split
      · exact hc.trans (.of_host (SameButHost.trans (t := { v with shp := _, hst := _ }) rfl (sbh_enqueueTack ..)))
      · exact hc
    · next v hv =>
      rw [hv] at hc
      exact hc

/-! ### Routing (R354 to R356, R66) -/

theorem tack_suspend (i : Nat) (s : State) : TackFrame s (suspend i s) := tack_modSess ..

theorem tack_answerClaim (h : Word) (s : State) : TackFrame s (answerClaim h s).2 := by
  unfold answerClaim
  split
  · exact .refl s
  · exact tack_suspend ..

/-- A dispute begins with the answer of this module's own copy, and a query to every other member. -/
theorem tack_openDispute (h : Word) (n : Nat) (s : State) : TackFrame s (openDispute h n s) := by
  unfold openDispute
  split
  · exact .refl s
  refine .ite (fun _ => .refl s) fun _ => ?_
  refine ((tack_answerClaim h s).trans (.ses _ _)).trans (AgentFrame.foldl (fun _ _ => ?_) _ _)
  exact tack_sendSession ..

theorem tack_catchUp (h : TackHdr) (b : TackBody) (n t : Nat) (s : State) : TackFrame s (catchUp h b n t s) := by
  unfold catchUp
  split
  · exact tack_complete ..
  · exact (TackFrame.hst _ s).trans (.ite (fun _ => .refl _) fun _ => tack_sendLace ..)

theorem sbh_startFetch (h : TackHdr) (b : TackBody) (r : DataRef) (stage : Nat) (part : Bytes) (s : State) (t : Nat) (d : Bind) :
    SameButHost s (startFetch h b r stage part s t d) := by
  unfold startFetch
  extract_lets n v f
  have hv : SameButHost s v := by unfold v; split <;> rfl
  exact hv.trans ((sbh_modQp ..).trans (sbh_issueReads ..))

/-- A tack is refused here, waits for its data, or goes to another node. -/
theorem tack_forwardTack (h : TackHdr) (b : TackBody) (d n : Nat) (s : State) : TackFrame s (forwardTack h b d n s) := by
  unfold forwardTack
  extract_lets bad send
  have hsend (b : TackBody) (t : State) : TackFrame t (send b t) := (TackFrame.map _ t).trans (tack_sendSession ..)
  refine .ite (fun _ => tack_complete ..) fun _ => .ite (fun _ => tack_complete ..) fun _ => ?_
  split
  · refine .ite (fun _ => hsend ..) fun _ => .ite (fun _ => tack_complete ..) fun _ => ?_
    exact .of_host (sbh_startFetch ..)
  · exact hsend ..

section
variable {eff : State → State} (he : ∀ v, TackFrame v (eff v))
include he

theorem tack_routeTack (h : TackHdr) (b : TackBody) (t : Nat) (s : State) : TackFrame s (routeTack h b t eff s) := by
  unfold routeTack
  refine .ite (fun _ => he s) fun _ => ?_
  split
  · exact he s
  · exact tack_catchUp ..
  · exact (TackFrame.map _ s).trans (tack_complete ..)
  · exact tack_forwardTack ..
  · exact (tack_openDispute ..).trans (.ses _ _)
  · exact tack_complete ..

theorem tack_ckpGate (h : TackHdr) (b : TackBody) (s : State) : TackFrame s (ckpGate h b eff s) :=
  .ite (fun _ => tack_complete ..) fun _ => he s

end

/-- A tack's row leaves what its own effect leaves. -/
theorem tack_tackRowB {eff : Nat → Bind → State → State} (he : ∀ t d v, TackFrame v (eff t d v)) (h : TackHdr) (b : TackBody)
    (s : State) : TackFrame s (tackRowB h b eff s) := by
  have ht := tack_takeTack h b s
  unfold tackRowB
  split
  · next v hv =>
    rw [hv] at ht
    exact ht
  · next t d v hv =>
    rw [hv] at ht
    refine ht.trans ?_
    split
    · exact tack_refuseRights ..
    · exact tack_routeTack (fun v => tack_ckpGate (he t d) h b v) h b t v

theorem tack_tackRow {eff : Nat → State → State} (he : ∀ t v, TackFrame v (eff t v)) (h : TackHdr) (b : TackBody) (s : State) :
    TackFrame s (tackRow h b eff s) :=
  tack_tackRowB (fun t _ v => he t v) h b s

/-! ### The session tacks (R57, R61, R63) -/

theorem tack_queueWake (i g k : Nat) (s : State) : TackFrame s (queueWake i g k s) := .of_outside (outside_queueWake rfl i g k s)

theorem tack_cancelBanking (i : Nat) (s : State) : TackFrame s (cancelBanking i s) := tack_modSess ..

theorem tack_onSession {f : Nat → Sess → State → State} (hf : ∀ i x v, TackFrame v (f i x v)) (h : TackHdr) (b : TackBody)
    (s : State) : TackFrame s (onSession h b f s) := by
  unfold onSession
  split
  · exact tack_complete ..
  · exact .ite (fun _ => tack_complete ..) fun _ => hf ..

theorem tack_wakeEff (h : TackHdr) (s : State) : TackFrame s (wakeEff h s) := by
  refine tack_onSession (fun i x v => ?_) h _ s
  split
  · exact (tack_queueWake ..).trans (tack_complete ..)
  · exact (tack_cancelBanking ..).trans (tack_complete ..)
  · exact tack_complete ..

theorem tack_hit (i : Nat) (s : State) : TackFrame s (hit i s) := .of_host (sbh_hit i s)

theorem tack_kindleAt (h : TackHdr) (eta t i : Nat) (s : State) : TackFrame s (kindleAt h eta t i s) := by
  unfold kindleAt
  split
  · exact .refl s
  · exact .ite (fun _ => (tack_hit ..).trans (tack_completeOp ..)) fun _ => (tack_modSess ..).trans (tack_completeOp ..)

theorem tack_kindleEff (h : TackHdr) (eta t : Nat) (s : State) : TackFrame s (kindleEff h eta t s) := by
  refine tack_onSession (fun i x v => ?_) h _ s
  split
  · exact tack_kindleAt ..
  · refine .ite (fun _ => .ite (fun _ => ?_) fun _ => ?_) fun _ => ?_
    · exact (tack_hit ..).trans (tack_completeOp ..)
    · exact (tack_cancelBanking ..).trans (tack_kindleAt ..)
    · exact (tack_cancelBanking ..).trans (tack_completeOp ..)
  · exact tack_kindleAt ..
  all_goals exact tack_completeOp ..

/-- A session that is pinned while it is banking, banked or waking comes back. -/
theorem tack_pinEff (h : TackHdr) (s : State) : TackFrame s (pinEff h s) := by
  refine tack_onSession (fun i x v => ?_) h _ s
  refine .ite (fun _ => tack_complete ..) fun _ => .ite (fun _ => tack_complete ..) fun _ => .ite (fun _ => ?_) fun _ => ?_
  · exact (tack_hit ..).trans (tack_complete ..)
  extract_lets w y
  have hw : TackFrame v w := tack_modSess ..
  have hy : TackFrame w y := by
    unfold y
    split
    · exact tack_cancelBanking ..
    · exact tack_queueWake ..
    · exact tack_modSess ..
    · exact .refl w
  exact (hw.trans hy).trans (tack_complete ..)

theorem tack_unpinEff (h : TackHdr) (s : State) : TackFrame s (unpinEff h s) :=
  tack_onSession (fun _ _ _ => .ite (fun _ => tack_complete ..) fun _ => (tack_modSess ..).trans (tack_complete ..)) h _ s

/-! ### Loads, rings and reads of the security block (R94, R256, R260, R404, R420) -/

theorem tack_adapterLoadEff (h : TackHdr) (d : Bind) (r : DataRef) (s : State) : TackFrame s (adapterLoadEff h d r s) :=
  .ite (fun _ => tack_completeOp ..) fun _ => .of_host (sbh_startFetch ..)

theorem tack_weightsStageEff (h : TackHdr) (c : Nat) (r : DataRef) (s : State) : TackFrame s (weightsStageEff h c r s) :=
  .ite (fun _ => tack_completeOp ..) fun _ => .of_host (sbh_startFetch ..)

theorem tack_ringEff (h : TackHdr) (b : RingBody) (s : State) : TackFrame s (ringEff h b s) :=
  .ite (fun _ => tack_completeOp ..) fun _ => .ite (fun _ => tack_completeOp ..) fun _ => tack_completeOp ..

theorem tack_identityEff (h : TackHdr) (r : DataRef) (s : State) : TackFrame s (identityEff h r s) := by
  unfold identityEff
  refine .ite (fun _ => tack_completeOp ..) fun _ => .ite (fun _ => tack_completeOp ..) fun _ => .ite (fun _ => ?_) fun _ => ?_
  · exact tack_completeOp ..
  · exact (TackFrame.of_host (sbh_rdmaWrite ..)).trans (tack_completeOp ..)

theorem tack_rootReadEff (h : TackHdr) (n : Nat) (r : DataRef) (s : State) : TackFrame s (rootReadEff h n r s) := by
  unfold rootReadEff
  refine .ite (fun _ => tack_completeOp ..) fun _ => .ite (fun _ => tack_completeOp ..) fun _ => .ite (fun _ => ?_) fun _ => ?_
  · exact tack_completeOp ..
  split
  · exact tack_completeOp ..
  · refine .ite (fun _ => tack_completeOp ..) fun _ => ?_
    exact (TackFrame.of_host (sbh_rdmaWrite ..)).trans (tack_completeOp ..)

/-! ### LOCATION (R353) -/

theorem tack_placeLoc (n sender : Nat) (r : LocRec) (s : State) : TackFrame s (placeLoc n sender r s) := by
  unfold placeLoc
  split
  · exact .refl s
  extract_lets others own held
  clear_value held
  refine .ite (fun _ => tack_modJob ..) fun _ => .ite (fun _ => tack_modJob ..) fun _ => ?_
  split
  · exact .ite (fun _ => tack_hit ..) fun _ => tack_modJob ..
  · exact .ite (fun _ => tack_modJob ..) fun _ => .ite (fun _ => tack_openDispute ..) fun _ => .refl s

theorem tack_located (l : LaceHdr) (recs : List LocRec) (s : State) : TackFrame s (located l recs s) := by
  unfold located
  split
  · exact .refl s
  refine .ite (fun _ => .refl s) fun _ => ?_
  have hf : TackFrame s (recs.foldl (fun s r => placeLoc l.job l.sender r s) s) :=
    AgentFrame.foldl (fun v r => tack_placeLoc l.job l.sender r v) recs s
  refine hf.trans (.ite (fun _ => .refl _) fun _ => .ite (fun _ => tack_modJob ..) fun _ => .ite (fun _ => ?_) fun _ => .refl _)
  exact tack_modJob ..

/-- Settles O33: on its way to its completion a tack changes the units of `tackUnits` alone, whatever its own checks answer. -/
theorem tackFrames : Obligations.TackFrames := by
  intro s k1
  refine ⟨fun h => ?_, fun h eta => ?_, fun h => ?_, fun h => ?_, fun h r => ?_, fun h c r => ?_, fun h b => ?_, fun h => ?_,
    fun l recs => ?_, fun h r => ?_, fun h n r => ?_⟩
  · exact AgentFrame.run (tack_tackRow (fun _ => tack_wakeEff h) h _ s)
  · exact AgentFrame.run (tack_tackRow (tack_kindleEff h eta) h _ s)
  · exact AgentFrame.run (tack_tackRow (fun _ => tack_pinEff h) h _ s)
  · exact AgentFrame.run (tack_tackRow (fun _ => tack_unpinEff h) h _ s)
  · exact AgentFrame.run (tack_tackRowB (fun _ d => tack_adapterLoadEff h d r) h _ s)
  · exact AgentFrame.run (tack_tackRow (fun _ => tack_weightsStageEff h c r) h _ s)
  · exact AgentFrame.run (tack_tackRow (fun _ => tack_ringEff h b) h _ s)
  · exact AgentFrame.run (tack_tackRow (fun _ v => tack_complete h .nop 0 v _) h _ s)
  · exact AgentFrame.run (f := onFabric (located l recs)) (agent_onFabric (tack_located l recs s))
  · exact AgentFrame.run (tack_tackRow (fun _ => tack_identityEff h r) h _ s)
  · exact AgentFrame.run (tack_tackRow (fun _ => tack_rootReadEff h n r) h _ s)

end Sys2Proof.Proofs
end

section
/-!
PROOFS. The step boundary (R75 to R78, R82, R83, R85, R376) of a module that is sound.
-/
namespace Sys2Proof.Proofs
open Sys2Proof Sys2Proof.Machine

/-- The boundary of a sound module is that of R82 at the present time, after the end of the step in flight. -/
theorem boundary_sound {s : State} (h : (s.err.chipOut && s.err.unsound) = false) :
    boundary s = takeBoundary (now s) (if s.stp.running then stepEnds (now s) s else s) :=
  if_neg (Bool.eq_false_iff.mp h)

theorem boundary_running {s : State} (h : (s.err.chipOut && s.err.unsound) = false) (hr : s.stp.running = true) :
    boundary s = takeBoundary (now s) (stepEnds (now s) s) := by
  rw [boundary_sound h, if_pos hr]

theorem boundary_empty {s : State} (h : (s.err.chipOut && s.err.unsound) = false) (hr : s.stp.running = false) :
    boundary s = takeBoundary (now s) s := by
  rw [boundary_sound h, if_neg (Bool.eq_false_iff.mp hr)]

/-- Settles O58: both boundaries are that of R82, the one after the step in flight has ended. -/
theorem stepBoundaryRuns : Obligations.StepBoundaryRuns := by
  intro s hs bounded
  have hb (v : State) : takeBoundary (now s) v = bounded v := rfl
  clear_value bounded
  refine ⟨fun hr => ?_, fun hr hp => ?_⟩
  · exact run_eq ((if_pos hr).trans ((boundary_running hs hr).trans (hb _)))
  · have hgo : ¬ (s.stp.running || !powered s) = true := by simp [hr, hp]
    exact run_eq (f := fun s => if s.stp.running || !powered s then s else boundary s)
      ((if_neg hgo).trans ((boundary_empty hs hr).trans (hb s)))

end Sys2Proof.Proofs
end

section
/-!
PROOFS. The session tacks past the checks before their own (R52, R53, R57, R61, R63, R64, R68, R80, R253, R352): each on a session in a
state that takes it.
-/
namespace Sys2Proof.Proofs
open Sys2Proof Sys2Proof.Machine

section
variable {h : TackHdr} {s : State} {idx : Nat} {x : Sess}

/-- An operation on the session that a tack names. -/
theorem onSession_names {b : TackBody} {f : Nat → Sess → State → State} (hn : names h idx x s) :
    onSession h b f s = f idx x s := by
  obtain ⟨hx, hash⟩ := hn
  unfold onSession
  rw [hx]
  exact if_neg hash

/-! ### OPEN and TURN (R57, R80) -/

/-- OPEN of a context that the image names, on a job that serves and that this module does not leave, or on none. -/
theorem openEff_admits {b : OpenBody} {cfg : CtxCfg} {img : Image} {budget : Nat} (hc : ctxCfg? s b.ctx = some cfg)
    (hi : s.img.active = some img) (hb : cfg.budgetFor (attnLayers img b.ctx) b.budget = some budget)
    (hidx : freeIndex? s = some idx)
    (hj : ∀ j, (jobOfQp s h.qp).bind (job? s) = some j → j.map.state = 2 ∧ ∃ m, ownMember s j.map = some m ∧ m.mstate = 0) :
    openEff h b s = openAt h b cfg budget idx (jobOfQp s h.qp) s := by
  unfold openEff
  simp only [hc, hi, hb, hidx]
  cases hjob : (jobOfQp s h.qp).bind (job? s) with
  | none => rfl
  | some j =>
    obtain ⟨hst, m, hm, hms⟩ := hj j hjob
    simp [hst, hm, hms]

/-- A TURN that no check of R80 refuses joins the prefill queue. -/
theorem admitTurn_enqueues {b : TurnBody} {t ver : Nat} {ids : List Nat} (hd : b.deadline = 0 ∨ s.clk.everLocked = true)
    (hx : byHandle? s h.handle = some (idx, x)) (hs : stateRefuses x.e = none) (hc : contextRefuses s x.e.ctx = none)
    (hv : bindFor s x.e = some ver) (h1 : 1 ≤ b.inputCount) (h2 : b.inputCount ≤ 262144)
    (h3 : x.e.length + b.inputCount + 1 ≤ maxPositions s x.e.ctx) (hq : queueFull s = false) :
    admitTurn h b t ids s = enqueueTurn h 2 t
      { cls := turnClass b.cls x, deadline := b.deadline, maxTokens := b.maxTokens, stops := b.stops, samp := b.samp, ids := ids }
      idx x ver (x.e.turnSeq + 1) s := by
  have htime : (b.deadline ≠ 0 && !s.clk.everLocked) = false := by rcases hd with hd | hd <;> simp [hd]
  have hlen : (b.inputCount = 0 || b.inputCount > 262144 || x.e.length + b.inputCount + 1 > maxPositions s x.e.ctx) = false := by
    simp only [Bool.or_eq_false_iff, decide_eq_false_iff_not]
    omega
  unfold admitTurn
  simp only [htime, hx, hs, hc, hv, hlen, hq, Bool.false_eq_true, if_false]

theorem turnEff_inline {b : TurnBody} {y : Bytes} {t : Nat} (hb : turnBodyBad b = false) (hi : b.input = .inline y) :
    turnEff h b t s = admitTurn h b t (idsOf b.inputCount y) s := by
  unfold turnEff
  rw [if_neg (Bool.eq_false_iff.mp hb), hi]

/-! ### PARK, WAKE, KINDLE, PIN and UNPIN (R57, R61, R63) -/

section
variable (hn : names h idx x s)
include hn

/-- PARK to T2 of an EMBER session that nothing holds. -/
theorem parkEff_ember (he : x.e.state = .ember) (hp : x.e.pinned = false) (ht : x.e.turnAdmitted = false) (hc : x.copyUp = false) :
    parkEff h 2 s = completeOp h 3 0 (startBanking idx 2 false s) := by
  unfold parkEff
  refine (if_neg (by decide)).trans ((onSession_names hn).trans ?_)
  simp only [he, hp, ht, hc]
  rfl

theorem wakeEff_banked (he : x.e.state = .banked) : wakeEff h s = completeOp h 4 0 (queueWake idx 6 0 s) := by
  refine (onSession_names hn).trans ?_
  rw [he]
  rfl

theorem wakeEff_banking (he : x.e.state = .banking) : wakeEff h s = completeOp h 4 0 (cancelBanking idx s) := by
  refine (onSession_names hn).trans ?_
  rw [he]
  rfl

/-- KINDLE of a BANKED session sets KINDLE_AT, within the bound. -/
theorem kindleEff_banked {eta t : Nat} (hx : sess? s idx = some x) (he : x.e.state = .banked)
    (hk : x.e.kindled = true ∨ kindleCount s < kindleLimit s) :
    kindleEff h eta t s = (
      let k := max t (t + eta * 1000 - reviveEst s x.e.place)
      completeOp h 5 0 (modSess idx (fun x => { x with
        e := { x.e with kindled := true, kindleAt := k }, kindleEta := t + eta * 1000 }) s) { a := k }) := by
  have hroom : ¬ (!x.e.kindled && decide (kindleCount s ≥ kindleLimit s)) = true := by
    rcases hk with hk | hk
    · simp [hk]
    · simp [Nat.not_le.mpr hk]
  unfold kindleEff
  refine (onSession_names hn).trans ?_
  simp only [he, kindleAt, hx]
  exact if_neg hroom

theorem pinEff_ember (he : x.e.state = .ember) (hcls : x.e.cls = 0) (htop : h.fwd.isSome = true ∨ topClass s h.qp = 0)
    (hl : pinnedCount s < pinLimit s) :
    pinEff h s = completeOp h 6 0 (modEntry idx (fun e => { e with pinned := true }) s) := by
  have hmay : ¬ (decide (x.e.cls ≠ 0) || (h.fwd.isNone && decide (topClass s h.qp ≠ 0))) = true := by
    rcases htop with hf | ht
    · simp [hcls, Option.isNone_eq_false_iff.mpr hf]
    · simp [hcls, ht]
  refine (onSession_names hn).trans ((if_neg (by simp [he])).trans ((if_neg hmay).trans ((if_neg (Nat.not_le.mpr hl)).trans ?_)))
  rw [he]
  rfl

theorem unpinEff_serves (hm : x.e.state ≠ .moving) (hs : x.e.state ≠ .suspect) :
    unpinEff h s = completeOp h 7 0 (modEntry idx (fun e => { e with pinned := false }) s) :=
  (onSession_names hn).trans (if_neg (by simp [hm, hs]))

/-! ### MOVE and CLOSE (R57, R63 to R65) -/

/-- MOVE to another compute member of the committed epoch sends the entry, then the storage. -/
theorem moveEff_sends {dest n : Nat} {j : Job} (hst : x.e.state = .ember ∨ x.e.state = .banked) (hp : x.e.pinned = false)
    (ht : x.e.turnAdmitted = false) (hc : x.copyUp = false) (hjob : x.job = some n) (hj : job? s n = some j)
    (hact : j.map.state = 2) (hd : dest ≠ selfNode s) (hm : (j.map.members.any fun m => m.node = dest && bit m.roles 0) = true) :
    moveEff h dest s = (
      let v := labDropSess idx (stopTransfers idx s)
      let mv : MoveInfo := { source := true, peer := dest, job := n, epoch := x.e.ownerEpoch, due := now v + moveTimeout v }
      let v := modSess idx (fun x => { x with
        e := { clearKindle x.e with state := .moving, prior := x.e.state }, mv := some mv }) v
      let e := match sess? v idx with | some y => y.e | none => x.e
      completeOp h 8 0 (sendSession dest n (.storage x.e.handle) (sendSession dest n (.offer e) v))) := by
  unfold moveEff
  refine (onSession_names hn).trans ?_
  have hok : (decide (j.map.state = 2) && decide (dest ≠ selfNode s) &&
      j.map.members.any fun m => decide (m.node = dest) && bit m.roles 0) = true := by
    rw [hm, decide_eq_true hact, decide_eq_true hd]
    rfl
  simp only [hjob, Option.bind_some, hj, hok, hp, ht, hc]
  rcases hst with hst | hst <;> rw [hst] <;> rfl

theorem closeEff_live (he : x.e.state = .live) :
    closeEff h s = completeOp h 9 0 (modSess idx (fun x => { x with closeReq := true }) s) := by
  refine (onSession_names hn).trans ?_
  rw [he]
  rfl

theorem closeEff_atOnce (hl : x.e.state ≠ .live) (hm : x.e.state ≠ .moving) : closeEff h s = completeOp h 9 0 (closeNow idx s) := by
  refine (onSession_names hn).trans ?_
  split
  · next he => exact absurd he hm
  · next he => exact absurd he hl
  · rfl

end

/-! ### CONFIRM and RESOLVE (R68) -/

section
variable {b : TackBody} {node n : Nat} {j : Job} {d : Dispute} (hx : byHandle? s h.handle = some (idx, x)) (hjob : x.job = some n)
  (hj : job? s n = some j) (hhome : homeNode s j.map h.handle = selfNode s)
  (hd : s.ses.disputes.find? (·.handle = h.handle) = some d) (hdone : d.done = true)
include hx hjob hj hhome hd hdone

/-- CONFIRM of the winner at the slot home settles the dispute. -/
theorem settleEff_winner {w : Nat × Nat} (hw : d.winner = some w) (hwin : w.1 = node) :
    settleEff h b node false s = complete h b 0 (settle d node s) := by
  unfold settleEff
  simp only [hx, hjob, Option.bind_some, hj, hhome, hd, hdone, hw, hwin, ne_eq, not_true_eq_false, if_false, if_true,
    Bool.not_true, Bool.false_eq_true]

/-- RESOLVE of a copy that answered settles the dispute. -/
theorem settleEff_answered (ha : (d.answers.any fun a => a.node = node) = true) :
    settleEff h b node true s = complete h b 0 (settle d node s) := by
  unfold settleEff
  simp only [hx, hjob, Option.bind_some, hj, hhome, hd, hdone, ha, ne_eq, not_true_eq_false, if_false, if_true,
    Bool.not_true, Bool.false_eq_true]

end
end

/-- Settles O38: each tack past the checks of R253 meets its own. -/
theorem sessionTacksComplete : Obligations.SessionTacksComplete := by
  refine ⟨fun h b s t u cfg img budget idx hs hc hi hb hidx hj => ?_,
    fun h b y s t u idx x ver hs hin hbad hd hx hst hc hv h1 h2 h3 hq => ?_, fun h s t u idx x hs hn he hp ht hc => ?_,
    fun h s t u idx x hs hn => ⟨fun he => ?_, fun he => ?_⟩, fun h eta s t u idx x hs hn hx he hk => ?_,
    fun h s t u idx x hs hn he hcls htop hl => ?_, fun h s t u idx x hs hn hm hsus => ?_,
    fun h dest s t u idx x n j hs hn hst hp ht hc hjob hj hact hd hm => ?_,
    fun h s t u idx x hs hn => ⟨fun he => ?_, fun hl hm => ?_⟩,
    fun h node s u idx x n j d w hs hx hjob hj hhome hd hdone hw hwin => ?_,
    fun h node s u idx x n j d hs hx hjob hj hhome hd hdone ha => ?_⟩
  · exact run_eq ((served_tackRow hs).trans (openEff_admits hc hi hb hidx hj))
  · exact run_eq ((served_tackRow hs).trans ((turnEff_inline hbad hin).trans (admitTurn_enqueues hd hx hst hc hv h1 h2 h3 hq)))
  · exact run_eq ((served_tackRow hs).trans (parkEff_ember hn he hp ht hc))
  · exact run_eq ((served_tackRow hs).trans (wakeEff_banked hn he))
  · exact run_eq ((served_tackRow hs).trans (wakeEff_banking hn he))
  · exact run_eq ((served_tackRow hs).trans (kindleEff_banked hn hx he hk))
  · exact run_eq ((served_tackRow hs).trans (pinEff_ember hn he hcls htop hl))
  · exact run_eq ((served_tackRow hs).trans (unpinEff_serves hn hm hsus))
  · exact run_eq ((served_tackRow hs).trans (moveEff_sends hn hst hp ht hc hjob hj hact hd hm))
  · exact run_eq ((served_tackRow hs).trans (closeEff_live hn he))
  · exact run_eq ((served_tackRow hs).trans (closeEff_atOnce hn hl hm))
  · exact run_eq ((settles_row hs).trans (settleEff_winner hx hjob hj hhome hd hdone hw hwin))
  · exact run_eq ((settles_row hs).trans (settleEff_answered hx hjob hj hhome hd hdone ha))

end Sys2Proof.Proofs
end

section
/-!
PROOFS. The completions, times and rules of sessions (R55 to R57, R59 to R62, R75): bankings, wakes, copies, kindles, pressure, the end of
ASH, and SES_INSPECT.
-/
namespace Sys2Proof.Proofs
open Sys2Proof Sys2Proof.Machine

section
variable {idx : Nat} {s : State} {x : Sess}

/-- A stripe for which every channel has room goes to T2. -/
theorem bankT2_room {e : Entry} {st : Store} {first : List Nat} (hr : t2Room s (stripeTiles (wtOf s e.ctx) (fmtOf s e.ctx) st) = true)
    (hf : stripePlace s (stripeTiles (wtOf s e.ctx) (fmtOf s e.ctx) st) = some first) :
    bankT2 idx e st s = some (descOf (wtOf s e.ctx) (fmtOf s e.ctx) 2 e.ctx idx 0 first st,
      writeStripe (contextKey s e.ctx) first (stripe (wtOf s e.ctx) (fmtOf s e.ctx) st)
        (takeT2 (stripeTiles (wtOf s e.ctx) (fmtOf s e.ctx) st) s)) := by
  simp only [bankT2, hr, hf, Bool.not_true, Bool.false_eq_true, if_false, Option.map_some]

/-! ### Wakes that start (R62) -/

theorem startNextWake_next (hn : wakesRun s < 64) (hw : nextWake? s = some (idx, x)) : startNextWake s = beginWake idx x s := by
  unfold startNextWake
  rw [if_neg (Nat.not_le.mpr hn), hw]

/-! ### The pressure rule (R60) -/

theorem pressure_low (h : s.ses.pressing = true ∨ projectedFree s < wfield s.regs.sesCfg 0 12 * 2 ^ 30) :
    pressure s = pressOn 33 { s with ses := { s.ses with pressing := true } } :=
  if_pos (by simpa using h)

section
variable (hx : sess? s idx = some x)
include hx

/-! ### Bankings (R57, R190) -/

/-- A banking to T2 that finds room there commits. -/
theorem commitBanking_t2 (he : x.e.state = .banking) (ht : x.bankTier = some 2) {first : List Nat}
    (hr : t2Room s (stripeTiles (wtOf s x.e.ctx) (fmtOf s x.e.ctx) x.st) = true)
    (hf : stripePlace s (stripeTiles (wtOf s x.e.ctx) (fmtOf s x.e.ctx) x.st) = some first) :
    commitBanking idx s = (
      let w := wtOf s x.e.ctx
      let f := fmtOf s x.e.ctx
      let u := writeStripe (contextKey s x.e.ctx) first (stripe w f x.st) (takeT2 (stripeTiles w f x.st) s)
      let d := descOf w f 2 x.e.ctx idx 0 first x.st
      placeSess idx (retile idx (modSess idx (fun x => { x with
        e := { x.e with state := .banked, place := 2 }, desc := some d,
        bankTier := none, bankPress := false, st := bankedIn (rowListBytes idx x.st.rows) x.st }) (freeSpilled x u)))) := by
  unfold commitBanking
  rw [hx]
  refine (if_neg (not_not_intro he)).trans ((if_neg (by simp [ht])).trans ?_)
  rw [bankT2_room hr hf]
  rfl

theorem bankingFailed_banking (he : x.e.state = .banking) :
    bankingFailed idx s = logAll 2 4 (unitChip 0x35) 0x0105 0 (cancelBanking idx s) := by
  unfold bankingFailed
  rw [hx]
  exact if_pos he

/-! ### Wakes and copies that end (R57, R59, R176) -/

section
variable {w : Wake} (he : x.e.state = .waking) (hw : x.wake = some w) (hrun : w.running = true)
include he hw hrun

theorem wakeFailed_running :
    wakeFailed idx s = logTo [x.e.tenant] 2 4 (unitChip 0x35) 0x0304 idx (endTurnNow idx 0x1C
      (modSess idx (fun x => { x with e := { x.e with state := .banked }, wake := none, got := [] }) (t1Ask idx [] s))) := by
  unfold wakeFailed
  rw [hx]
  exact if_pos (by simp [he, hw, hrun])

/-- The stripe of a wake with its storage has been read back: the revive is accepted by its digest. -/
theorem finishWake_readBack (ha : allocWaits s idx = false) {d : BankDesc} {b : Bytes} (hd : x.desc = some d)
    (hb : stripeBack s x d = some b) :
    finishWake idx s =
      if sha256 b ≠ d.digest then wakeFailed idx s
      else
        let p := if x.e.turnAdmitted then 0 else 1
        let a := attnCount s x.e.ctx
        placeSess idx (retile idx (modSess idx (fun x => { x with
          e := { x.e with state := .ember, place := p }, wake := none, desc := none, got := [],
          st := placedIn a p { x.st with rows := listedRows x.st.rowList x.st.rows } }) (freeDesc x s))) := by
  unfold finishWake
  rw [hx]
  refine (if_neg (by simp [he, hw, hrun, ha])).trans ?_
  simp only [hd, hb]

end

theorem finishCopy_underWay (hc : x.copyUp = true) :
    finishCopy idx s = placeSess idx (retile idx (modSess idx (fun x => { x with
      e := { x.e with place := 0 }, copyUp := false,
      st := { x.st with
        rows := x.st.rows.map (fun r => { r with pages := r.pages.map fun p => if p.tier = 1 then { p with tier := 0 } else p }),
        recBacked := true, recDirty := [] } }) s)) := by
  unfold finishCopy
  rw [hx]
  exact if_neg (by simp [hc])

/-! ### Kindles (R61) -/

section
variable (hk : x.e.kindled = true)
include hk

theorem kindleReached_banked (he : x.e.state = .banked) :
    kindleReached idx s = queueWake idx 2 x.e.kindleAt (advance x.e.kindleAt s) := by
  unfold kindleReached
  rw [hx]
  refine (if_neg (by simp [hk])).trans ?_
  rw [he]

theorem kindleReached_ember (he : x.e.state = .ember) : kindleReached idx s = startCopy idx (advance x.e.kindleAt s) := by
  unfold kindleReached
  rw [hx]
  refine (if_neg (by simp [hk])).trans ?_
  rw [he]

theorem kindleOver_kindled :
    kindleOver idx s = modEntry idx clearKindle (advance (x.kindleEta + wfield s.regs.sesCfg 34 16 * 1000000) s) := by
  unfold kindleOver
  rw [hx]
  exact if_pos hk

end

/-! ### The end of ASH (R56) -/

section
variable (he : x.e.state = .ash)
include he

/-- The storage of an ASH session that no capture reads is freed, and its entry unless it moved and is kept still. -/
theorem reclaimRead_unread (hr : x.reclaimed = false) (hc : captureReads s x.e.handle = false) :
    reclaimRead idx s = (
      let v := setT1 idx [] (freeDesc x (freeKept x (freeSpilled x s)))
      let v := modSess idx (fun x => { x with e := { x.e with reclaimed := true }, reclaimed := true, st := {}, desc := none }) v
      if !x.e.moved || decide (x.ashAt + wfield v.regs.sesCfg 50 14 * 1000000 ≤ now v) then freeEntry idx v else v) := by
  refine (if_neg (by simp [hx, hc])).trans ?_
  unfold reclaim
  rw [hx]
  exact if_neg (by simp [he, hr])

theorem keepOver_reclaimed (hm : x.e.moved = true) (hr : x.reclaimed = true) :
    keepOver idx s = freeEntry idx (advance (x.ashAt + wfield s.regs.sesCfg 50 14 * 1000000) s) := by
  unfold keepOver
  rw [hx]
  exact (if_pos (by simp [he, hm])).trans (if_pos hr)

end

end
end

/-! ### SES_INSPECT (R54, R75) -/

/-- A write of SES_INSPECT_INDEX inside the table takes a snapshot for its accessor. -/
theorem inspect_held {acc : Port} {val : Word} {s : State} {x : Sess} (hi : val.toNat % 2 ^ 21 < tableMax s)
    (hx : sess? s (val.toNat % 2 ^ 21) = some x) :
    inspect acc val s = modAcc acc (fun a => { a with
      inspectIdx := val.toNat % 2 ^ 21, inspectTenant := x.e.tenant,
      inspect := match acc with
        | .host _ => (entryBytes x).take 96 ++ zeros 16 ++ (entryBytes x).drop 112
        | _ => entryBytes x }) s := by
  have hin : ¬ val.toNat % 2 ^ 21 ≥ tableMax s := Nat.not_le.mpr hi
  unfold inspect
  simp only [hx, if_neg hin] <;> rfl

/-- Settles O39, command by command. -/
theorem sessionTimesAndTransfersComplete : Obligations.SessionTimesAndTransfersComplete := by
  refine ⟨fun idx s x hx he ht => ?_, fun idx s x hx he => ?_, fun s idx x hn hw => ?_,
    fun idx s x w hx he hw hrun ha d b hd hb => ⟨fun hsame => ?_, fun hdiff => ?_⟩, fun idx s x w hx he hw hrun => ?_,
    fun idx s x hx hc => ?_, fun idx s x hx hk => ⟨fun he => ?_, fun he => ?_, ?_⟩, fun s h => ?_,
    fun idx s x hx he hr hc => ?_, fun idx s x hx he hm hr => ?_, fun acc val s x ho hi hx => ?_⟩
  · intro w f n hr first hf
    exact run_eq (commitBanking_t2 hx he ht hr hf)
  · exact run_eq (bankingFailed_banking hx he)
  · exact run_eq (startNextWake_next hn hw)
  · have hfin := (finishWake_readBack hx he hw hrun ha hd hb).trans (if_neg (not_not_intro hsame))
    exact run_eq (f := fun s => markReady (finishWake idx s)) (congrArg markReady hfin)
  · have hfin := (finishWake_readBack hx he hw hrun ha hd hb).trans (if_pos hdiff)
    exact run_eq (f := fun s => markReady (finishWake idx s)) (congrArg markReady hfin)
  · exact run_eq (wakeFailed_running hx he hw hrun)
  · exact run_eq (f := fun s => markReady (finishCopy idx s)) (congrArg markReady (finishCopy_underWay hx hc))
  · exact run_eq (kindleReached_banked hx hk he)
  · exact run_eq (kindleReached_ember hx hk he)
  · exact run_eq (kindleOver_kindled hx hk)
  · exact run_eq (pressure_low h)
  · exact run_eq (reclaimRead_unread hx he hr hc)
  · exact run_eq (keepOver_reclaimed hx he hm hr)
  · exact run_eq ((gateWrite_open ho).trans (inspect_held hi hx))

end Sys2Proof.Proofs
end

section
/-!
PROOFS. Moves and disputes (R54, R57, R64 to R68): each message and time at the copy that it reaches.
-/
namespace Sys2Proof.Proofs
open Sys2Proof Sys2Proof.Machine

section
variable {h : Word} {s : State} {idx : Nat} {x : Sess} {m : MoveInfo}

/-! ### The offer and the storage of a move (R54, R57, R64) -/

/-- The entry of a session that has been offered, at the destination. -/
def offeredEntry (e : Entry) (idx : Nat) (j : Job) : Entry :=
  { clearKindle e with
    state := .moving, pinned := false, index := idx, lane := 0xFFFF, place := if e.prior = .banked then 2 else 1,
    forwardNode := 0, moved := false, reclaimed := false, mapEpoch := j.map.epoch }

theorem moveOffered_taken {src job : Nat} {e : Entry} {j : Job} {own : Member} (hj : job? s job = some j)
    (hidx : freeIndex? s = some idx) (hact : j.map.state = 2) (ho : ownMember s j.map = some own) (hr : bit own.roles 0 = true)
    (hc : (ctxCfg? s e.ctx).isSome = true) (hash : ∀ p, byHandle? s e.handle = some p → p.2.e.state = .ash) :
    moveOffered src job e s = (
      let mv : MoveInfo := { source := false, peer := src, job := job, epoch := e.ownerEpoch, due := 0 }
      let y : Sess := { e := offeredEntry e idx j, job := some job, mv := some mv }
      placeSess idx { s with ses := { s.ses with table := putN idx y s.ses.table } }) := by
  unfold moveOffered
  simp only [hj, hidx, ho, hr, hc, decide_eq_true hact]
  cases hb : byHandle? s e.handle with
  | none => rfl
  | some p => exact if_pos (by simp [hash p hb])

/-- The storage of a move to place 2 finds room: it is stored, the slot home is told, and where no other node is home the
acknowledgement is sent. -/
theorem moveReceived_t2 {st : Store} (hx : byHandle? s h = some (idx, x)) (hm : x.mv = some m) (he : x.e.state = .moving)
    (hs : m.source = false) (ha : m.ackSent = false) (hp : m.placed = false) (hpl : x.e.place = 2) {first : List Nat}
    (hr : t2Room s (stripeTiles (wtOf s x.e.ctx) (fmtOf s x.e.ctx) st) = true)
    (hf : stripePlace s (stripeTiles (wtOf s x.e.ctx) (fmtOf s x.e.ctx) st) = some first) :
    moveReceived h st s = (
      let w := wtOf s x.e.ctx
      let f := fmtOf s x.e.ctx
      let u := writeStripe (contextKey s x.e.ctx) first (stripe w f st) (takeT2 (stripeTiles w f st) s)
      let d := descOf w f 2 x.e.ctx idx 0 first st
      let v := retile idx (modSess idx (fun x => { x with
        st := bankedIn (rowListBytes idx st.rows) st, desc := some d, mv := some { m with placed := true } }) u)
      let home := (job? v m.job).map fun j => homeNode v j.map h
      let v := locate h (m.epoch + 1) (.moved h) (some m.job) v
      if home = some (selfNode v) || home.isNone then ackMove idx v else v) := by
  unfold moveReceived
  simp only [hx, hm]
  refine (if_neg (by simp [he, hs, ha, hp])).trans ((if_pos hpl).trans ?_)
  rw [bankT2_room hr hf]

/-! ### A session in a move (R57, R64, R65) -/

section
variable (hin : inMove s h true = some (idx, x, m))
include hin

theorem moveAcked_next : moveAcked h (m.epoch + 1) s = moveCommitted idx m s := by
  unfold moveAcked
  rw [hin]
  exact if_pos rfl

theorem moveTimedOut_first (hq : m.queried = false) :
    moveTimedOut h s = sendSession m.peer m.job (.query h) (modSess idx (fun x => { x with
      mv := some { m with queried := true, due := now (advance m.due s) + moveTimeout s } }) (advance m.due s)) := by
  unfold moveTimedOut
  rw [hin]
  exact if_neg (Bool.eq_false_iff.mp hq)

section
variable (hq : m.queried = true)
include hq

theorem queryAnswered_committed : queryAnswered h true s = moveCommitted idx m s := by
  unfold queryAnswered
  rw [hin]
  exact (if_neg (by simp [hq])).trans (if_pos rfl)

theorem queryAnswered_notCommitted :
    queryAnswered h false s = modSess idx (fun x => { x with e := { x.e with state := x.e.prior }, mv := none })
      (sendSession m.peer m.job (.cancel h) s) := by
  unfold queryAnswered
  rw [hin]
  exact (if_neg (by simp [hq])).trans (if_neg Bool.false_ne_true)

theorem queryTimedOut_queried : queryTimedOut h s = reportSuspect idx (suspendKeep idx (advance m.due s)) := by
  unfold queryTimedOut
  rw [hin]
  exact if_pos hq

end
end

section
variable (hin : inMove s h false = some (idx, x, m))
include hin

section
variable (ha : m.ackSent = true)
include ha

theorem moveReleased_acked :
    moveReleased h s = modSess idx (fun x => { x with e := { x.e with state := x.e.prior }, mv := none }) s := by
  unfold moveReleased
  rw [hin]
  exact if_pos ha

theorem releaseTimedOut_acked : releaseTimedOut h s = reportSuspect idx (suspendKeep idx (advance m.due s)) := by
  unfold releaseTimedOut
  rw [hin]
  exact if_pos ha

end

theorem moveCancelled_notAcked (ha : m.ackSent = false) : moveCancelled h s = freeEntry idx s := by
  unfold moveCancelled
  rw [hin]
  exact if_neg (Bool.eq_false_iff.mp ha)

end

/-! ### Disputes (R66 to R68) -/

theorem suspectReported_home {src job : Nat} {j : Job} (hj : job? s job = some j) (hact : j.map.state = 2)
    (hhome : homeNode s j.map h = selfNode s) (hm : (j.map.members.any (·.node = src)) = true) :
    suspectReported src job h s = openDispute h job s := by
  unfold suspectReported
  rw [hj]
  exact if_pos (by rw [hm, decide_eq_true hact, decide_eq_true hhome]; rfl)

section
variable (hx : byHandle? s h = some (idx, x))
include hx

/-- A claim query makes the copy held here SUSPECT, and is answered with what it was. -/
theorem claimQueried_held {home job : Nat} {a : ClaimAns} (hc : claimOf s h = some a) :
    claimQueried home job h s = sendSession home job (.claimAnswer h a) (suspend idx s) := by
  have hans : answerClaim h s = (some a, suspend idx s) := by
    unfold answerClaim
    rw [hx]
    exact congrArg (·, suspend idx s) hc
  unfold claimQueried
  rw [hans]

section
variable {winner epoch : Nat} (he : x.e.state = .suspect)
include he

/-- The winner's copy is confirmed at the larger epoch. -/
theorem settleCopy_winner (hw : winner = selfNode s) :
    settleCopy h winner epoch s = (
      let st (e : Entry) : SesState := if e.prior = .moving then .ember else e.prior
      let lane : Nat := ((s.stp.lanes.find? fun l => l.2.turn.idx = idx).map (·.1)).getD 0xFFFF
      emberPlace idx (modSess idx (fun x => { x with
        e := { x.e with
          state := st x.e, lane := if st x.e = .live then lane else 0xFFFF,
          ownerEpoch := max x.e.ownerEpoch epoch }, mv := none }) s)) := by
  unfold settleCopy
  rw [hx]
  exact (if_neg (not_not_intro he)).trans (if_pos hw)

theorem settleCopy_loser (hw : winner ≠ selfNode s) : settleCopy h winner epoch s = toAsh idx (endTurnNow idx 0x2B s) := by
  unfold settleCopy
  rw [hx]
  exact (if_neg (not_not_intro he)).trans (if_neg hw)

end
end

section
variable {d : Dispute} (hd : (s.ses.disputes.find? fun d => d.handle = h && !d.done) = some d)
include hd

/-- A collection that an answer ranks in names the winner. -/
theorem collected_ranked {w : Nat × Nat} (hr : (d.answers.any ranks) = true) (hw : disputeWinner d.answers = some w) :
    collected h s = (
      let v := advance d.due s
      let d' : Dispute := { d with done := true, winner := some w, waiting := [] }
      let v := { v with ses := { v.ses with disputes := v.ses.disputes.map fun x => if x.handle = h then d' else x } }
      d.waiting.foldl (fun s q => complete q.1 q.2 0x13 s)
        (logTo [disputeTenant v d] 1 7 (unitChip 0x40) 0x0301 (w.1 + w.2 % 2 ^ 48 * 65536) v)) := by
  unfold collected
  simp only [hd, hr, hw, if_true]

/-- One that no answer ranks in is dropped. -/
theorem collected_unranked (hr : (d.answers.any ranks) = false) :
    collected h s = (
      let v := advance d.due s
      d.waiting.foldl (fun s q => complete q.1 q.2 0x10 s)
        { v with ses := { v.ses with disputes := v.ses.disputes.filter (·.handle ≠ h) } }) := by
  unfold collected
  simp only [hd, hr, Bool.false_eq_true, if_false]

end
end

/-- Settles O40, command by command. -/
theorem movesAndDisputesComplete : Obligations.MovesAndDisputesComplete := by
  refine ⟨fun src job e s j idx m hon hj hidx hact ho hr hc hash => ?_,
    fun h st s idx x m hon hx hm he hs ha hp hpl => ?_, fun h s idx x m hon hin => ?_,
    fun h s idx x m hon hin ha => ⟨?_, ?_⟩, fun h s idx x m hon hin ha => ?_, fun h s idx x m hin hq => ?_,
    fun h s idx x m hon hin hq => ⟨?_, ?_, ?_⟩, fun src job h s hon => ?_, fun src job h s j hon hj hact hhome hm => ?_,
    fun home job h s idx x a hon hx hc => ?_, fun h a s hon => ?_, fun h s d w hd hr hw => ?_, fun h s d hd hr => ?_,
    fun h winner epoch s idx x hon hx he => ⟨fun hw => ?_, fun hw => ?_⟩⟩
  · exact run_eq ((onFabric_on hon).trans (moveOffered_taken hj hidx hact ho hr hc hash))
  · intro w f n hroom first hf
    exact run_eq ((onFabric_on hon).trans (moveReceived_t2 hx hm he hs ha hp hpl hroom hf))
  · exact run_eq ((onFabric_on hon).trans (moveAcked_next hin))
  · exact run_eq ((onFabric_on hon).trans (moveReleased_acked hin ha))
  · exact run_eq (releaseTimedOut_acked hin ha)
  · exact run_eq ((onFabric_on hon).trans (moveCancelled_notAcked hin ha))
  · exact run_eq (moveTimedOut_first hin hq)
  · exact run_eq ((onFabric_on hon).trans (queryAnswered_committed hin hq))
  · exact run_eq ((onFabric_on hon).trans (queryAnswered_notCommitted hin hq))
  · exact run_eq (queryTimedOut_queried hin hq)
  · exact run_eq (onFabric_on hon)
  · exact run_eq ((onFabric_on hon).trans (suspectReported_home hj hact hhome hm))
  · exact run_eq ((onFabric_on hon).trans (claimQueried_held hx hc))
  · exact run_eq (onFabric_on hon)
  · exact run_eq (collected_ranked hd hr hw)
  · exact run_eq (collected_unranked hd hr)
  · exact run_eq ((onFabric_on hon).trans (settleCopy_winner hx he hw))
  · exact run_eq ((onFabric_on hon).trans (settleCopy_loser hx he hw))

end Sys2Proof.Proofs
end
